-- ==== Sys2Proof/Word.lean ====
section
/-! DEFINITION. The word types of the THX-4896 model: bytes, 32-bit registers, 64-bit TIMECNT values (R15, R23). -/

namespace Sys2Proof

/-- One byte of a memory, record or descriptor (R15). -/
abbrev Byte := BitVec 8

/-- One 32-bit register (R13). -/
abbrev Word := BitVec 32

/-- One 64-bit quantity: a TIMECNT value, a signature, a RISC-V register (R23, R316). -/
abbrev DWord := BitVec 64

end Sys2Proof
end

