-- ==== Sys2Proof/Syntax.lean ====
section
/-! DEFINITION. The commands of the block: one constructor per row of spec/opcode_table.json. -/

namespace Sys2Proof

/-- Who makes an access (R25): the host through PFn, or the firmware. -/
inductive Who
  | pf (n : Nat)
  | fw
  deriving DecidableEq, Repr

/-- What walks a descriptor list (chapters 14 and 15): stream k of core stream engine u, stream k of vision stream engine u, or
DMA channel c. -/
inductive Mover
  | nc (u k : Nat)
  | vs (u k : Nat)
  | ch (c : Nat)
  deriving DecidableEq, Repr

/-- A Rolven datagram as received (R482): its packet, whether it carried the congestion mark CE, and whether its UDP checksum failed or
it was an IP fragment. -/
structure Dgram where
  pkt : List Byte
  ce : Bool
  bad : Bool
  deriving DecidableEq, Repr

/-- A burst whose packet header is lost (R138): its port, and whether the burst began with a start-of-transmission error (R171). -/
structure LostHeader where
  port : Nat
  sot : Bool
  deriving DecidableEq, Repr

/-- The commands. The first operand `dt` of each is the time in ns that passes before it (log entry 1); the rule after each
mnemonic is the one the table names. -/
inductive Instr
  /-- LOAD_GRAPH (R99): partition and operand words of a submission made at once, or none for the submission latched by CMD_SUBMIT. -/
  | loadGraph (dt : Nat) (p : Nat) (args : Option (List Word))
  /-- IMAGE_RESIDENT (R80): graph index. -/
  | imageResident (dt : Nat) (g : Nat)
  /-- UNLOAD_GRAPH (R80): as LOAD_GRAPH. -/
  | unloadGraph (dt : Nat) (p : Nat) (args : Option (List Word))
  /-- START_GRAPH (R100): as LOAD_GRAPH. -/
  | startGraph (dt : Nat) (p : Nat) (args : Option (List Word))
  /-- STOP_GRAPH (R130): as LOAD_GRAPH. -/
  | stopGraph (dt : Nat) (p : Nat) (args : Option (List Word))
  /-- RUN_ONCE (R653): as LOAD_GRAPH. -/
  | runOnce (dt : Nat) (p : Nat) (args : Option (List Word))
  /-- DMA_COPY (R444): as LOAD_GRAPH. -/
  | dmaCopy (dt : Nat) (p : Nat) (args : Option (List Word))
  /-- SET_OPP (R552): as LOAD_GRAPH. -/
  | setOpp (dt : Nat) (p : Nat) (args : Option (List Word))
  /-- QUERY (R80): as LOAD_GRAPH. -/
  | query (dt : Nat) (p : Nat) (args : Option (List Word))
  /-- COMMIT (R71): accessor and BAR0 offset of the page. -/
  | commit (dt : Nat) (who : Who) (page : Nat)
  /-- COMMIT_APPLIED (R71): BAR0 offset of the page. -/
  | commitApplied (dt : Nat) (page : Nat)
  /-- SOFT_RESET (R74): accessor and page. -/
  | softReset (dt : Nat) (who : Who) (page : Nat)
  /-- BLK_PART_WRITE (R28): accessor, page and value. -/
  | blkPartWrite (dt : Nat) (who : Who) (page : Nat) (v : Word)
  /-- SCRATCHPAD_CLEAR_DONE (R387): scratchpad number. -/
  | scratchpadClearDone (dt : Nat) (u : Nat)
  /-- TILE_CLEAR_DONE (R400): nothing. -/
  | tileClearDone (dt : Nat)
  /-- BLK_ERR_INJ (R66): accessor, page and value. -/
  | blkErrInj (dt : Nat) (who : Who) (page : Nat) (v : Word)
  /-- REGISTER_WRITE (R13): accessor, BAR0 offset and value. -/
  | registerWrite (dt : Nat) (who : Who) (a : Nat) (v : Word)
  /-- IRQ_ENABLE_WRITE (R87): accessor, offset of an enable or of an IRQ_ROUTE entry, and value. -/
  | irqEnableWrite (dt : Nat) (who : Who) (a : Nat) (v : Word)
  /-- CPL_RD_IDX_WRITE (R83): accessor, partition and value. -/
  | cplRdIdxWrite (dt : Nat) (who : Who) (p : Nat) (v : Word)
  /-- DLOG_RD_IDX_WRITE (R47): accessor, partition and value. -/
  | dlogRdIdxWrite (dt : Nat) (who : Who) (p : Nat) (v : Word)
  /-- VR_RD_IDX_WRITE (R525): accessor and value. -/
  | vrRdIdxWrite (dt : Nat) (who : Who) (v : Word)
  /-- SINK_RD_IDX_WRITE (R587): accessor, sink and value. -/
  | sinkRdIdxWrite (dt : Nat) (who : Who) (k : Nat) (v : Word)
  /-- DISC_RD_IDX_WRITE (R652): accessor and value. -/
  | discRdIdxWrite (dt : Nat) (who : Who) (v : Word)
  /-- CPL_LOG_CONFIG_WRITE (R84): accessor, offset and value. -/
  | cplLogConfigWrite (dt : Nat) (who : Who) (a : Nat) (v : Word)
  /-- DLOG_CONFIG_WRITE (R48): accessor, offset and value. -/
  | dlogConfigWrite (dt : Nat) (who : Who) (a : Nat) (v : Word)
  /-- VR_CONFIG_WRITE (R526): accessor, offset and value. -/
  | vrConfigWrite (dt : Nat) (who : Who) (a : Nat) (v : Word)
  /-- CPL_COAL_WRITE (R86): accessor, partition and value. -/
  | cplCoalWrite (dt : Nat) (who : Who) (p : Nat) (v : Word)
  /-- COAL_TIME_EXPIRY (R86): partition. -/
  | coalTimeExpiry (dt : Nat) (p : Nat)
  /-- FGS_GRANT_WRITE (R20): accessor, partition and value. -/
  | fgsGrantWrite (dt : Nat) (who : Who) (p : Nat) (v : Word)
  /-- SE_RESUME (R441): accessor, VSE rather than NCSE, instance and stream. -/
  | seResume (dt : Nat) (who : Who) (vs : Bool) (u : Nat) (k : Nat)
  /-- CH_RESUME (R441): accessor and channel. -/
  | chResume (dt : Nat) (who : Who) (c : Nat)
  /-- CH_STOP (R449): accessor and channel. -/
  | chStop (dt : Nat) (who : Who) (c : Nat)
  /-- RESUME_TIMEOUT (R441): stream or channel. -/
  | resumeTimeout (dt : Nat) (m : Mover)
  /-- LIST_WR_IDX_WRITE (R169): accessor, replay channel, list and value. -/
  | listWrIdxWrite (dt : Nat) (who : Who) (r : Nat) (l : Nat) (v : Word)
  /-- BUNDLE_PUSH (R158): accessor, SCTL instance and value written to BUNDLE_PUSH. -/
  | bundlePush (dt : Nat) (who : Who) (u : Nat) (v : Word)
  /-- BUNDLE_ISSUE (R160): SCTL instance. -/
  | bundleIssue (dt : Nat) (u : Nat)
  /-- BUNDLE_DONE (R162): SCTL instance, and whether the sensor failed to acknowledge. -/
  | bundleDone (dt : Nat) (u : Nat) (nack : Bool)
  /-- SETTINGS_WINDOW_CLOSE (R161): SCTL instance and profile. -/
  | settingsWindowClose (dt : Nat) (u : Nat) (f : Nat)
  /-- FSYNC_ARM (R165): accessor, output and value of FSYNC_CTL. -/
  | fsyncArm (dt : Nat) (who : Who) (n : Nat) (v : Word)
  /-- FSYNC_DISARM (R165): accessor, output and value of FSYNC_CTL. -/
  | fsyncDisarm (dt : Nat) (who : Who) (n : Nat) (v : Word)
  /-- FSYNC_PULSE (R144): output. -/
  | fsyncPulse (dt : Nat) (n : Nat)
  /-- FRAME_START (R143): port, virtual channel, frame number, and whether the header needed a correction. -/
  | frameStart (dt : Nat) (port : Nat) (vc : Nat) (num : Nat) (fix : Bool)
  /-- LINE_PACKET (R148): port, virtual channel, data type, payload, a wrong CRC, a corrected header. -/
  | linePacket (dt : Nat) (port : Nat) (vc : Nat) (ty : Nat) (bytes : List Byte) (bad : Bool) (fix : Bool)
  /-- EMBEDDED_PACKET (R141): as LINE_PACKET. -/
  | embeddedPacket (dt : Nat) (port : Nat) (vc : Nat) (ty : Nat) (bytes : List Byte) (bad : Bool) (fix : Bool)
  /-- GENERIC_SHORT_PACKET (R136): port, and a corrected header. -/
  | genericShortPacket (dt : Nat) (port : Nat) (fix : Bool)
  /-- HEADER_UNCORRECTABLE (R138): the burst whose header is lost. -/
  | headerUncorrectable (dt : Nat) (burst : LostHeader)
  /-- FRAME_END (R153): as FRAME_START. -/
  | frameEnd (dt : Nat) (port : Nat) (vc : Nat) (num : Nat) (fix : Bool)
  /-- FRAME_TIMEOUT (R150): stream context. -/
  | frameTimeout (dt : Nat) (n : Nat)
  /-- LINK_DOWN (R171): port. -/
  | linkDown (dt : Nat) (port : Nat)
  /-- REPLAY_FRAME_ITEM (R167): replay channel. -/
  | replayFrameItem (dt : Nat) (r : Nat)
  /-- REPLAY_DROP_ITEM (R167): replay channel. -/
  | replayDropItem (dt : Nat) (r : Nat)
  /-- REPLAY_END_ITEM (R167): replay channel. -/
  | replayEndItem (dt : Nat) (r : Nat)
  /-- TIMER_TRIGGER (R101): graph index and flow index. -/
  | timerTrigger (dt : Nat) (g : Nat) (f : Nat)
  /-- HAMPER_FORM (R105): nothing. -/
  | hamperForm (dt : Nat)
  /-- TASK_PREFETCH (R113): nothing. -/
  | taskPrefetch (dt : Nat)
  /-- ISP_FRAME (R176): instance. -/
  | ispFrame (dt : Nat) (u : Nat)
  /-- PYR_BUILD (R217): instance. -/
  | pyrBuild (dt : Nat) (u : Nat)
  /-- WARP_MESH (R220): instance. -/
  | warpMesh (dt : Nat) (u : Nat)
  /-- WARP_HOMOGRAPHY (R221): instance. -/
  | warpHomography (dt : Nat) (u : Nat)
  /-- STR_DISPARITY (R250): instance. -/
  | strDisparity (dt : Nat) (u : Nat)
  /-- FLW_FLOW (R276): instance. -/
  | flwFlow (dt : Nat) (u : Nat)
  /-- FTR_DETECT (R283): instance. -/
  | ftrDetect (dt : Nat) (u : Nat)
  /-- FTR_MATCH (R300): instance. -/
  | ftrMatch (dt : Nat) (u : Nat)
  /-- FMS_LOAD (R299): FTR instance. -/
  | fmsLoad (dt : Nat) (u : Nat)
  /-- NC_RUN (R311): core. -/
  | ncRun (dt : Nat) (u : Nat)
  /-- MOVE (R426): DMA channel. -/
  | move (dt : Nat) (c : Nat)
  /-- BARRIER (R503): remote-operation slot. -/
  | barrier (dt : Nat) (k : Nat)
  /-- SIGNAL (R500): remote-operation slot. -/
  | signal (dt : Nat) (k : Nat)
  /-- TASK_END (R119): block type code and instance. -/
  | taskEnd (dt : Nat) (b : Nat) (u : Nat)
  /-- COLLECTOR_ENTRY (R125): nothing. -/
  | collectorEntry (dt : Nat)
  /-- HAMPER_RELEASE (R126): graph index and flow index. -/
  | hamperRelease (dt : Nat) (g : Nat) (f : Nat)
  /-- PARK (R116): core. -/
  | park (dt : Nat) (u : Nat)
  /-- RESUME (R117): core. -/
  | resume (dt : Nat) (u : Nat)
  /-- TASTER_WINDOW_DUE (R530): block type code and instance. -/
  | tasterWindowDue (dt : Nat) (b : Nat) (u : Nat)
  /-- TASTER_BEGIN (R118): block type code and instance. -/
  | tasterBegin (dt : Nat) (b : Nat) (u : Nat)
  /-- TASTER_END (R532): block type code and instance. -/
  | tasterEnd (dt : Nat) (b : Nat) (u : Nat) (fin : Bool) (sig : Option Nat)
  /-- TASTER_WEDGED (R533): block type code and instance. -/
  | tasterWedged (dt : Nat) (b : Nat) (u : Nat)
  /-- NC_MMA (R327): core. -/
  | ncMma (dt : Nat) (u : Nat)
  /-- NC_MDRAIN (R329): core. -/
  | ncMdrain (dt : Nat) (u : Nat)
  /-- NC_MRAWST (R330): core. -/
  | ncMrawst (dt : Nat) (u : Nat)
  /-- NC_MRAWADD (R330): core. -/
  | ncMrawadd (dt : Nat) (u : Nat)
  /-- NC_SE (R426): core. -/
  | ncSe (dt : Nat) (u : Nat)
  /-- NC_WAIT (R310): core. -/
  | ncWait (dt : Nat) (u : Nat)
  /-- NC_LPOP (R452): core. -/
  | ncLpop (dt : Nat) (u : Nat)
  /-- NC_RSIG (R343): core. -/
  | ncRsig (dt : Nat) (u : Nat)
  /-- NC_RWAIT (R343): core. -/
  | ncRwait (dt : Nat) (u : Nat)
  /-- NC_FENCE (R321): core. -/
  | ncFence (dt : Nat) (u : Nat)
  /-- NC_END (R320): core. -/
  | ncEnd (dt : Nat) (u : Nat)
  /-- SCALAR_INSTRUCTION (R316): core. -/
  | scalarInstruction (dt : Nat) (u : Nat)
  /-- VECTOR_INSTRUCTION (R336): core. -/
  | vectorInstruction (dt : Nat) (u : Nat)
  /-- MATRIX_COMMAND_COMPLETE (R334): core. -/
  | matrixCommandComplete (dt : Nat) (u : Nat)
  /-- STREAM_ARM (R432): VSE rather than NCSE, instance and stream. -/
  | streamArm (dt : Nat) (vs : Bool) (u : Nat) (k : Nat)
  /-- DESCRIPTOR_BATCH (R420): list processor. -/
  | descriptorBatch (dt : Nat) (m : Mover)
  /-- STREAM_COMMAND_COMPLETE (R430): stream or channel. -/
  | streamCommandComplete (dt : Nat) (m : Mover)
  /-- FAULT_HALT (R439): stream or channel. -/
  | faultHalt (dt : Nat) (m : Mover)
  /-- DMA_RETRY (R445): channel. -/
  | dmaRetry (dt : Nat) (c : Nat)
  /-- DMA_BURST (R446): channel and the sampled level of its request line. -/
  | dmaBurst (dt : Nat) (c : Nat) (line : Bool)
  /-- RING_SIGNAL_ARRIVE (R344): target core. -/
  | ringSignalArrive (dt : Nat) (u : Nat)
  /-- LOAD_GO (R302): accessor and value of LOAD_CTL. -/
  | loadGo (dt : Nat) (who : Who) (v : Word)
  /-- LOAD_CLEAR (R299): accessor and value of LOAD_CTL. -/
  | loadClear (dt : Nat) (who : Who) (v : Word)
  /-- SET_OWN_WRITE (R308): accessor and value; the match set is the one FMS_SEL shows. -/
  | setOwnWrite (dt : Nat) (who : Who) (v : Word)
  /-- FMS_LOAD_START (R299): nothing. -/
  | fmsLoadStart (dt : Nat)
  /-- FMS_VERSION_SWITCH (R299): nothing. -/
  | fmsVersionSwitch (dt : Nat)
  /-- XLAT_INV (R465): accessor and value. -/
  | xlatInv (dt : Nat) (who : Who) (v : Word)
  /-- XLAT_INV_DONE (R465): partition. -/
  | xlatInvDone (dt : Nat) (p : Nat)
  /-- ERR_POP (R469): accessor and HBM instance. -/
  | errPop (dt : Nat) (who : Who) (n : Nat)
  /-- FAULT_POP (R546): accessor. -/
  | faultPop (dt : Nat) (who : Who)
  /-- PEER_READ (R496): accessor and value of PEER_CTL. -/
  | peerRead (dt : Nat) (who : Who) (v : Word)
  /-- PEER_WRITE (R496): accessor and value of PEER_CTL. -/
  | peerWrite (dt : Nat) (who : Who) (v : Word)
  /-- RSUB_OP (R497): accessor and value of RSUB_OP. -/
  | rsubOp (dt : Nat) (who : Who) (v : Word)
  /-- SAFE_RELEASE (R517): accessor. -/
  | safeRelease (dt : Nat) (who : Who)
  /-- BOOT_WARM (R602): accessor. -/
  | bootWarm (dt : Nat) (who : Who)
  /-- BOOT_COLD (R602): accessor. -/
  | bootCold (dt : Nat) (who : Who)
  /-- HOST_GO (R614): accessor. -/
  | hostGo (dt : Nat) (who : Who)
  /-- COLD_START (R604): nothing. -/
  | coldStart (dt : Nat)
  /-- WARM_START (R604): nothing. -/
  | warmStart (dt : Nat)
  /-- START_STEP_COMPLETE (R604): whether the work succeeded, and for the march the failing rows outside the map as entries of the march log. -/
  | startStepComplete (dt : Nat) (ok : Bool) (rows : List Nat)
  /-- FW_READY (R603): nothing. -/
  | fwReady (dt : Nat)
  /-- FW_HANG (R615): nothing. -/
  | fwHang (dt : Nat)
  /-- OTP_PROGRAM (R627): accessor and value of the programming register. -/
  | otpProgram (dt : Nat) (who : Who) (v : Word)
  /-- OTP_PROGRAM_DONE (R627): whether the cells took the value. -/
  | otpProgramDone (dt : Nat) (ok : Bool)
  /-- ATT_GO (R630): accessor. -/
  | attGo (dt : Nat) (who : Who)
  /-- ATT_REPORT_DONE (R630): nothing. -/
  | attReportDone (dt : Nat)
  /-- FREEZE (R578): accessor. -/
  | freeze (dt : Nat) (who : Who)
  /-- UNFREEZE (R578): accessor. -/
  | unfreeze (dt : Nat) (who : Who)
  /-- FREEZE_INSTANT (R578): nothing. -/
  | freezeInstant (dt : Nat)
  /-- GLOBAL_STOP (R593): accessor. -/
  | globalStop (dt : Nat) (who : Who)
  /-- GC_CLEAR (R577): accessor. -/
  | gcClear (dt : Nat) (who : Who)
  /-- MEMRD (R599): accessor and value of the register. -/
  | memrd (dt : Nat) (who : Who) (v : Word)
  /-- TRIG_ARM (R589): accessor and value of TRIG_CFG. -/
  | trigArm (dt : Nat) (who : Who) (v : Word)
  /-- PHASE_CLEAR (R565): accessor and value of PHASE_CTL. -/
  | phaseClear (dt : Nat) (who : Who) (v : Word)
  /-- PHASE_CLEAR_ALL (R565): accessor. -/
  | phaseClearAll (dt : Nat) (who : Who)
  /-- SCAN_RESTART (R598): accessor and value of SCAN_CTL. -/
  | scanRestart (dt : Nat) (who : Who) (v : Word)
  /-- SCAN_DATA_READ (R598): accessor. -/
  | scanDataRead (dt : Nat) (who : Who)
  /-- HIGH_WATER_READ (R457): accessor and ladle. -/
  | highWaterRead (dt : Nat) (who : Who) (l : Nat)
  /-- AGE_WORST_READ (R528): accessor; the age slot is the one AGE_SEL shows. -/
  | ageWorstRead (dt : Nat) (who : Who)
  /-- LATCHING_LO_READ (R372): accessor and offset of the low word. -/
  | latchingLoRead (dt : Nat) (who : Who) (a : Nat)
  /-- CMD_OPID_READ (R576): accessor, block type code and instance. -/
  | cmdOpidRead (dt : Nat) (who : Who) (b : Nat) (u : Nat)
  /-- BYPASS (R597): data shifted in. -/
  | bypass (dt : Nat) (bits : List Bool)
  /-- IDCODE (R597): data shifted in. -/
  | idcode (dt : Nat) (bits : List Bool)
  /-- SAMPLE_PRELOAD (R597): levels at the pins and data shifted in. -/
  | samplePreload (dt : Nat) (pins : List Bool) (bits : List Bool)
  /-- EXTEST (R597): levels at the pins and data shifted in. -/
  | extest (dt : Nat) (pins : List Bool) (bits : List Bool)
  /-- GSTOP (R593): nothing. -/
  | gstop (dt : Nat)
  /-- SCAN_SEL (R598): data shifted in. -/
  | scanSel (dt : Nat) (bits : List Bool)
  /-- SCAN_DR (R598): data shifted in. -/
  | scanDr (dt : Nat) (bits : List Bool)
  /-- DUAL_COMPARE (R538): nothing. -/
  | dualCompare (dt : Nat)
  /-- AGE_EXAMINE (R527): nothing. -/
  | ageExamine (dt : Nat)
  /-- FAULT_REACTION (R519): nothing. -/
  | faultReaction (dt : Nat)
  /-- LOCKSTEP (R515): nothing. -/
  | lockstep (dt : Nat)
  /-- CLOCK_MONITOR_WINDOW (R516): counts of the monitored clocks in the window. -/
  | clockMonitorWindow (dt : Nat) (counts : List Nat)
  /-- SAFE_HB (R517): nothing. -/
  | safeHb (dt : Nat)
  /-- PWR_TICK (R566): nothing. -/
  | pwrTick (dt : Nat)
  /-- ACTIVITY_SAMPLE (R563): per block instance, its block type code, its number and its event counts of the past µs in the order of the estimator weights. -/
  | activitySample (dt : Nat) (acts : List (Nat × Nat × List Nat))
  /-- PMBUS_POLL (R561): slot, PMBus command code, and the word read or none where the regulator did not answer twice. -/
  | pmbusPoll (dt : Nat) (rail : Nat) (code : Nat) (val : Option Nat)
  /-- PMBUS_ALERT (R560): rail whose address answered and its STATUS_WORD. -/
  | pmbusAlert (dt : Nat) (rail : Nat) (status : Nat)
  /-- VOUT_COMMAND_ACK (R553): whether the regulator acknowledged. -/
  | voutCommandAck (dt : Nat) (ok : Bool)
  /-- VSETTLE_EXPIRY (R553): nothing. -/
  | vsettleExpiry (dt : Nat)
  /-- PLL_LOCK_DONE (R553): whether the PLLs locked in time. -/
  | pllLockDone (dt : Nat) (ok : Bool)
  /-- PLL_SWITCH (R559): nothing. -/
  | pllSwitch (dt : Nat)
  /-- DROOP_TRIP (R558): per droop detector, the depth of its supply below the setpoint in mV. -/
  | droopTrip (dt : Nat) (mv : List Nat)
  /-- DROOP_LEVEL_STEP (R558): nothing. -/
  | droopLevelStep (dt : Nat)
  /-- THERMAL_SAMPLE (R568): raw readings of the sensors. -/
  | thermalSample (dt : Nat) (temps : List Int)
  /-- EMERG_LEVEL_STEP (R569): nothing. -/
  | emergLevelStep (dt : Nat)
  /-- THERMAL_SHUTDOWN (R571): nothing. -/
  | thermalShutdown (dt : Nat)
  /-- WRITE (R491): fabric link and the datagram as received. -/
  | write (dt : Nat) (link : Nat) (g : Dgram)
  /-- READ_REQ (R492): as WRITE. -/
  | readReq (dt : Nat) (link : Nat) (g : Dgram)
  /-- READ_RESP (R492): as WRITE. -/
  | readResp (dt : Nat) (link : Nat) (g : Dgram)
  /-- ACK (R485): as WRITE. -/
  | ack (dt : Nat) (link : Nat) (g : Dgram)
  /-- NACK (R491): as WRITE. -/
  | nack (dt : Nat) (link : Nat) (g : Dgram)
  /-- CMD (R498): as WRITE. -/
  | cmd (dt : Nat) (link : Nat) (g : Dgram)
  /-- CMD_RESP (R499): as WRITE. -/
  | cmdResp (dt : Nat) (link : Nat) (g : Dgram)
  /-- TRIGGER (R500): as WRITE. -/
  | trigger (dt : Nat) (link : Nat) (g : Dgram)
  /-- CREDIT (R501): as WRITE. -/
  | credit (dt : Nat) (link : Nat) (g : Dgram)
  /-- CREDIT_REQ (R501): as WRITE. -/
  | creditReq (dt : Nat) (link : Nat) (g : Dgram)
  /-- ARRIVE (R503): as WRITE. -/
  | arrive (dt : Nat) (link : Nat) (g : Dgram)
  /-- RELEASE (R503): as WRITE. -/
  | release (dt : Nat) (link : Nat) (g : Dgram)
  /-- THROTTLE_NOTICE (R505): as WRITE. -/
  | throttleNotice (dt : Nat) (link : Nat) (g : Dgram)
  /-- KEEPALIVE (R486): as WRITE. -/
  | keepalive (dt : Nat) (link : Nat) (g : Dgram)
  /-- HELLO (R494): as WRITE. -/
  | hello (dt : Nat) (link : Nat) (g : Dgram)
  /-- LLDP (R493): fabric link and the frame as received. -/
  | lldp (dt : Nat) (link : Nat) (frame : List Byte)
  /-- NEIGHBOUR_SOLICITATION (R481): as LLDP. -/
  | neighbourSolicitation (dt : Nat) (link : Nat) (frame : List Byte)
  /-- RTO_EXPIRY (R485): peer entry. -/
  | rtoExpiry (dt : Nat) (peer : Nat)
  /-- ACK_TIMER (R485): peer entry. -/
  | ackTimer (dt : Nat) (peer : Nat)
  /-- KEEPALIVE_TIMER (R486): peer entry. -/
  | keepaliveTimer (dt : Nat) (peer : Nat)
  /-- PEER_TIMEOUT (R486): peer entry. -/
  | peerTimeout (dt : Nat) (peer : Nat)
  /-- LINK_CHANGE (R487): fabric link and its new state. -/
  | linkChange (dt : Nat) (link : Nat) (up : Bool)
  /-- LLDP_TIMER (R493): fabric link. -/
  | lldpTimer (dt : Nat) (link : Nat)
  /-- HELLO_TIMER (R494): fabric link. -/
  | helloTimer (dt : Nat) (link : Nat)
  /-- RATE_PERIOD (R488): peer entry. -/
  | ratePeriod (dt : Nat) (peer : Nat)
  /-- PTP_EVENT_MESSAGE (R509): fabric link, PTP message and hardware timestamp. -/
  | ptpEventMessage (dt : Nat) (link : Nat) (msg : List Byte) (stamp : DWord)
  /-- PTP_SYNC_LOSS (R510): nothing. -/
  | ptpSyncLoss (dt : Nat)
  /-- SCRUB (R470): HBM instance, word, and what it met there. -/
  | scrub (dt : Nat) (n : Nat) (word : Nat) (err : Nat)
  /-- NOC_CRC_FAIL (R476): how many times in a row the packet failed. -/
  | nocCrcFail (dt : Nat) (fails : Nat)
  /-- FUNCTION_LEVEL_RESET (R88): function. -/
  | functionLevelReset (dt : Nat) (n : Nat)
  /-- CONVENTIONAL_RESET (R89): nothing. -/
  | conventionalReset (dt : Nat)
  /-- BAR2_ACCESS (R64): function, offset, length, and the bytes written or none for a read. -/
  | bar2Access (dt : Nat) (n : Nat) (a : Nat) (len : Nat) (wr : Option (List Byte))
  /-- BAR4_ACCESS (R65): function, offset, length, and the bytes written or none for a read. -/
  | bar4Access (dt : Nat) (n : Nat) (a : Nat) (len : Nat) (wr : Option (List Byte))
  /-- REFCLK_LOSS (R641): nothing. -/
  | refclkLoss (dt : Nat)
  /-- RAIL_QUIET (R558): nothing. -/
  | railQuiet (dt : Nat)
  /-- RESET_N_FALL (R638): nothing. -/
  | resetNFall (dt : Nat)
  /-- TJ_HIGH (R606): nothing. -/
  | tjHigh (dt : Nat)
  /-- ISLAND_MEM_UE (R518): nothing. -/
  | islandMemUe (dt : Nat)
  deriving DecidableEq, Repr

end Sys2Proof
end

