-- ==== Sys2Proof/Machine/Bits.lean ====
section
/-! DEFINITION. Bit fields, byte order, sign extension, CRC-32 and CRC-64, shared by every unit. -/

namespace Sys2Proof.Machine
open Sys2Proof

/-- Field [lo + n - 1 : lo] of a number read as bits (R15). -/
def fld (w lo n : Nat) : Nat := (w >>> lo) % 2 ^ n

/-- Bit i of a number read as bits (R15). -/
def bitOf (w i : Nat) : Bool := (w >>> i) % 2 == 1

/-- A number with field [lo + n - 1 : lo] replaced by v. -/
def setFld (w lo n v : Nat) : Nat :=
  w - (fld w lo n) * 2 ^ lo + (v % 2 ^ n) * 2 ^ lo

/-- A Boolean as a bit. -/
def b2n (b : Bool) : Nat := if b then 1 else 0

/-- The signed value of the low n bits. -/
def sext (w n : Nat) : Int :=
  if n = 0 then 0
  else if w % 2 ^ n < 2 ^ (n - 1) then (w % 2 ^ n : Nat) else (w % 2 ^ n : Nat) - (2 ^ n : Nat)

/-- The low n bits of a signed value, as a number. -/
def trunc (v : Int) (n : Nat) : Nat := (v % (2 ^ n : Nat)).toNat

/-- A signed value limited to [lo, hi]. -/
def clampI (lo hi v : Int) : Int := if v < lo then lo else if hi < v then hi else v

/-- A number limited to at most hi. -/
def satN (hi v : Nat) : Nat := if hi < v then hi else v

/-- Little-endian bytes to a number (R15). -/
def leNat : List Byte → Nat
  | [] => 0
  | b :: r => b.toNat + 256 * leNat r

/-- The n little-endian bytes of a number (R15). -/
def natLe : Nat → Nat → List Byte
  | 0, _ => []
  | n + 1, v => BitVec.ofNat 8 v :: natLe n (v / 256)

/-- Bytes at [off, off + n) of a byte list, read little-endian; bytes beyond the list count as 0. -/
def leAt (bs : List Byte) (off n : Nat) : Nat := leNat ((bs.drop off).take n)

/-- n consecutive numbers from a. -/
def rangeFrom (a n : Nat) : List Nat := (List.range n).map (a + ·)

/-- One CRC step of a reflected polynomial. -/
def crcBit (poly c : Nat) : Nat := if c % 2 = 1 then (c / 2) ^^^ poly else c / 2

/-- One byte into a reflected CRC. -/
def crcByte (poly c b : Nat) : Nat :=
  let c := c ^^^ b
  crcBit poly (crcBit poly (crcBit poly (crcBit poly
    (crcBit poly (crcBit poly (crcBit poly (crcBit poly c)))))))

/-- CRC-32 with the IEEE 802.3 polynomial (R17, R81); bit order and the all-ones start and end are PRESUMED (log entry 7). -/
def crc32 (bs : List Byte) : Nat :=
  (bs.foldl (fun c b => crcByte 0xEDB88320 c b.toNat) 0xFFFFFFFF) ^^^ 0xFFFFFFFF

/-- One bit of the CRC-64 of ECMA-182, most significant bit first, on an accumulator of 64 bits. -/
def crc64Bit (c : Nat) : Nat :=
  if c / 2 ^ 63 % 2 = 1 then ((c * 2) % 2 ^ 64) ^^^ 0x42F0E1EBA9EA3693 else (c * 2) % 2 ^ 64

/-- One byte into the CRC-64. -/
def crc64Byte (c b : Nat) : Nat :=
  let c := c ^^^ (b * 2 ^ 56)
  crc64Bit (crc64Bit (crc64Bit (crc64Bit (crc64Bit (crc64Bit (crc64Bit (crc64Bit c)))))))

/-- CRC-64 (ECMA-182) of bytes (R17, R532), starting from 0 without a final inversion (log entry 7). -/
def crc64 (bs : List Byte) : Nat := bs.foldl (fun c b => crc64Byte c b.toNat) 0

/-- Sequence a is below b: (b - a) mod 2^32 lies in 1 to 2^31 - 1 (R102). -/
def seqBelow (a b : Word) : Bool :=
  let d := (b - a).toNat
  decide (1 ≤ d) && decide (d < 2 ^ 31)

/-- Sequence a is above b (R102). -/
def seqAbove (a b : Word) : Bool := seqBelow b a

/-- The greatest multiple of d at or below n. -/
def alignDown (n d : Nat) : Nat := n - n % d

/-- Ceiling division. -/
def ceilDiv (n d : Nat) : Nat := (n + d - 1) / d

/-- The element of a list at a place, or a default. -/
def nth {α : Type} (d : α) (l : List α) (i : Nat) : α := l.getD i d

/-- The list with its i-th element replaced by a function of it. -/
def modNth {α : Type} (f : α → α) : Nat → List α → List α
  | _, [] => []
  | 0, a :: r => f a :: r
  | i + 1, a :: r => a :: modNth f i r

/-- The first k distinct numbers appear once, in their first order. -/
def dedupN (l : List Nat) : List Nat :=
  l.foldl (fun acc x => if acc.contains x then acc else acc ++ [x]) []

/-- log2 rounded down, 0 for 0. -/
def lg2 (n : Nat) : Nat := Nat.log2 n

end Sys2Proof.Machine
end

