-- ==== Sys2Proof/Machine/Crypto.lean ====
section
/-! DEFINITION. SHA-512 and Ed25519 of RFC 8032, as R611, R612, R629 and R630 name them; the standards are outside the spec (log entry 25). -/

namespace Sys2Proof.Machine
open Sys2Proof

/-! ## SHA-512 -/

/-- Initial hash value of SHA-512. -/
def shaInit : List Nat := [0x6A09E667F3BCC908, 0xBB67AE8584CAA73B, 0x3C6EF372FE94F82B, 0xA54FF53A5F1D36F1,
  0x510E527FADE682D1, 0x9B05688C2B3E6C1F, 0x1F83D9ABFB41BD6B, 0x5BE0CD19137E2179]

/-- Round constants of SHA-512, first half. -/
def shaK0 : List Nat := [
  0x428A2F98D728AE22, 0x7137449123EF65CD, 0xB5C0FBCFEC4D3B2F, 0xE9B5DBA58189DBBC,
  0x3956C25BF348B538, 0x59F111F1B605D019, 0x923F82A4AF194F9B, 0xAB1C5ED5DA6D8118,
  0xD807AA98A3030242, 0x12835B0145706FBE, 0x243185BE4EE4B28C, 0x550C7DC3D5FFB4E2,
  0x72BE5D74F27B896F, 0x80DEB1FE3B1696B1, 0x9BDC06A725C71235, 0xC19BF174CF692694,
  0xE49B69C19EF14AD2, 0xEFBE4786384F25E3, 0x0FC19DC68B8CD5B5, 0x240CA1CC77AC9C65,
  0x2DE92C6F592B0275, 0x4A7484AA6EA6E483, 0x5CB0A9DCBD41FBD4, 0x76F988DA831153B5,
  0x983E5152EE66DFAB, 0xA831C66D2DB43210, 0xB00327C898FB213F, 0xBF597FC7BEEF0EE4,
  0xC6E00BF33DA88FC2, 0xD5A79147930AA725, 0x06CA6351E003826F, 0x142929670A0E6E70,
  0x27B70A8546D22FFC, 0x2E1B21385C26C926, 0x4D2C6DFC5AC42AED, 0x53380D139D95B3DF,
  0x650A73548BAF63DE, 0x766A0ABB3C77B2A8, 0x81C2C92E47EDAEE6, 0x92722C851482353B]

/-- Round constants of SHA-512, second half. -/
def shaK1 : List Nat := [
  0xA2BFE8A14CF10364, 0xA81A664BBC423001, 0xC24B8B70D0F89791, 0xC76C51A30654BE30,
  0xD192E819D6EF5218, 0xD69906245565A910, 0xF40E35855771202A, 0x106AA07032BBD1B8,
  0x19A4C116B8D2D0C8, 0x1E376C085141AB53, 0x2748774CDF8EEB99, 0x34B0BCB5E19B48A8,
  0x391C0CB3C5C95A63, 0x4ED8AA4AE3418ACB, 0x5B9CCA4F7763E373, 0x682E6FF3D6B2B8A3,
  0x748F82EE5DEFB2FC, 0x78A5636F43172F60, 0x84C87814A1F0AB72, 0x8CC702081A6439EC,
  0x90BEFFFA23631E28, 0xA4506CEBDE82BDE9, 0xBEF9A3F7B2C67915, 0xC67178F2E372532B,
  0xCA273ECEEA26619C, 0xD186B8C721C0C207, 0xEADA7DD6CDE0EB1E, 0xF57D4F7FEE6ED178,
  0x06F067AA72176FBA, 0x0A637DC5A2C898A6, 0x113F9804BEF90DAE, 0x1B710B35131C471B,
  0x28DB77F523047D84, 0x32CAAB7B40C72493, 0x3C9EBE0A15C9BEBC, 0x431D67C49C100D4C,
  0x4CC5D4BECB3E42B6, 0x597F299CFC657E2A, 0x5FCB6FAB3AD6FAEC, 0x6C44198C4A475817]

/-- Rotate a 64-bit word right. -/
def ror64 (x n : Nat) : Nat := x / 2 ^ n + x % 2 ^ n * 2 ^ (64 - n)

/-- One round: the eight working variables, a round constant and a schedule word. -/
def shaRound (v : List Nat) (kw : Nat × Nat) : List Nat :=
  match v with
  | [a, b, c, d, e, f, g, h] =>
    let s1 := ror64 e 14 ^^^ ror64 e 18 ^^^ ror64 e 41
    let ch := (e &&& f) ^^^ ((2 ^ 64 - 1 - e) &&& g)
    let t1 := h + s1 + ch + kw.1 + kw.2
    let s0 := ror64 a 28 ^^^ ror64 a 34 ^^^ ror64 a 39
    let mj := (a &&& b) ^^^ (a &&& c) ^^^ (b &&& c)
    [(t1 + s0 + mj) % 2 ^ 64, a, b, c, (d + t1) % 2 ^ 64, e, f, g]
  | _ => v

/-- Big-endian 64-bit words of bytes. -/
def be64s : Nat → List Byte → List Nat
  | 0, _ => []
  | n + 1, b => leNat ((b.take 8).reverse) :: be64s n (b.drop 8)

/-- The message schedule, from its last sixteen words, newest first. -/
def shaSched : Nat → List Nat → List Nat
  | 0, _ => []
  | n + 1, w =>
    let x1 := nth 0 w 1
    let x14 := nth 0 w 14
    let g1 := ror64 x1 19 ^^^ ror64 x1 61 ^^^ (x1 / 2 ^ 6)
    let g0 := ror64 x14 1 ^^^ ror64 x14 8 ^^^ (x14 / 2 ^ 7)
    let y := (g1 + nth 0 w 6 + g0 + nth 0 w 15) % 2 ^ 64
    y :: shaSched n ((y :: w).take 16)

/-- One 128-byte block into the hash value. -/
def shaBlock (hv : List Nat) (b : List Byte) : List Nat :=
  let w := be64s 16 b
  let v := ((shaK0 ++ shaK1).zip (w ++ shaSched 64 w.reverse)).foldl shaRound hv
  (hv.zip v).map (fun x => (x.1 + x.2) % 2 ^ 64)

/-- All the blocks of a padded message. -/
def shaBlocks : Nat → List Byte → List Nat → List Nat
  | 0, _, hv => hv
  | n + 1, b, hv => shaBlocks n (b.drop 128) (shaBlock hv (b.take 128))

/-- SHA-512 of a message: 64 bytes. -/
def sha512 (m : List Byte) : List Byte :=
  let pad := m ++ [0x80] ++ List.replicate ((239 - m.length % 128) % 128) 0 ++ (natLe 16 (8 * m.length)).reverse
  (shaBlocks (pad.length / 128) pad shaInit).flatMap (fun w => (natLe 8 w).reverse)

/-! ## Ed25519 -/

/-- The field's prime and the group's order. -/
def edP : Nat := 2 ^ 255 - 19
def edL : Nat := 2 ^ 252 + 27742317777372353535851937790883648493

/-- Power modulo m, by squaring over `n` bits. -/
def powMod (m : Nat) : Nat → Nat → Nat → Nat
  | 0, _, _ => 1
  | n + 1, a, e => let h := powMod m n (a * a % m) (e / 2); if e % 2 = 1 then a * h % m else h

/-- Inverse in the field. -/
def edInv (a : Nat) : Nat := powMod edP 255 a (edP - 2)

/-- The curve's constant d and the square root of -1. -/
def edD : Nat := (edP - 121665) * edInv 121666 % edP
def edI : Nat := powMod edP 255 2 ((edP - 1) / 4)

/-- A point in extended coordinates: X, Y, Z, T. -/
structure EdPt where
  x : Nat
  y : Nat
  z : Nat
  t : Nat
  deriving DecidableEq, Repr

/-- Addition of points (RFC 8032 section 5.1.4). -/
def edAdd (p q : EdPt) : EdPt :=
  let a := (p.y + edP - p.x) * (q.y + edP - q.x) % edP
  let b := (p.y + p.x) * (q.y + q.x) % edP
  let c := p.t * 2 % edP * edD % edP * q.t % edP
  let d := p.z * 2 * q.z % edP
  let e := b + edP - a
  let f := d + edP - c
  let g := d + c
  let h := b + a
  ⟨e * f % edP, g * h % edP, f * g % edP, e * h % edP⟩

/-- Multiple of a point, over `n` bits of the factor. -/
def edMul : Nat → Nat → EdPt → EdPt
  | 0, _, _ => ⟨0, 1, 1, 0⟩
  | n + 1, k, p =>
    let h := edMul n (k / 2) (edAdd p p)
    if k % 2 = 1 then edAdd p h else h

/-- The x of a point of the curve from its y and the sign of x; none where there is no such point. -/
def edRecover (y sign : Nat) : Option Nat :=
  if edP ≤ y then none
  else
    let u := (y * y + edP - 1) % edP
    let v := (edD * (y * y % edP) + 1) % edP
    let x2 := u * edInv v % edP
    if x2 = 0 then (if sign = 1 then none else some 0)
    else
      let r := powMod edP 255 x2 ((edP + 3) / 8)
      let x := if r * r % edP = x2 then r else r * edI % edP
      if x * x % edP != x2 then none else some (if x % 2 = sign then x else edP - x)

/-- The base point. -/
def edBase : EdPt :=
  let y := 4 * edInv 5 % edP
  let x := (edRecover y 0).getD 0
  ⟨x, y, 1, x * y % edP⟩

/-- The 32 bytes of a point. -/
def edEnc (p : EdPt) : List Byte :=
  let z := edInv p.z
  natLe 32 (p.y * z % edP + p.x * z % edP % 2 * 2 ^ 255)

/-- The point of 32 bytes. -/
def edDec (b : List Byte) : Option EdPt :=
  let n := leNat b
  let y := n % 2 ^ 255
  (edRecover y (n / 2 ^ 255)).map (fun x => ⟨x, y, 1, x * y % edP⟩)

/-- Are two points the same. -/
def edEq (p q : EdPt) : Bool := p.x * q.z % edP == q.x * p.z % edP && p.y * q.z % edP == q.y * p.z % edP

/-- The secret scalar and the hash's second half, of a seed (RFC 8032 section 5.1.5). -/
def edKey (seed : List Byte) : Nat × List Byte :=
  let h := sha512 seed
  let a := leNat (h.take 32)
  (a % 2 ^ 254 / 8 * 8 + 2 ^ 254, h.drop 32)

/-- The public key of a seed. -/
def edPub (seed : List Byte) : List Byte := edEnc (edMul 255 (edKey seed).1 edBase)

/-- The signature of a message under a seed (RFC 8032 section 5.1.6). -/
def edSign (seed msg : List Byte) : List Byte :=
  let (a, pre) := edKey seed
  let pub := edPub seed
  let r := leNat (sha512 (pre ++ msg)) % edL
  let rb := edEnc (edMul 255 r edBase)
  let k := leNat (sha512 (rb ++ pub ++ msg)) % edL
  rb ++ natLe 32 ((r + k * a) % edL)

/-- Does a signature of a message verify under a public key (RFC 8032 section 5.1.7). -/
def edVerify (pub msg sig : List Byte) : Bool :=
  match edDec pub, edDec (sig.take 32) with
  | some a, some r =>
    let s := leNat ((sig.drop 32).take 32)
    let k := leNat (sha512 (sig.take 32 ++ pub ++ msg)) % edL
    decide (sig.length = 64) && decide (s < edL) && edEq (edMul 255 s edBase) (edAdd r (edMul 255 k a))
  | _, _ => false

end Sys2Proof.Machine
end

