-- ==== Sys2Proof/Config.lean ====
section
/-! DEFINITION. What the spec leaves open: free values, each an opaque constant nothing can evaluate. -/

namespace Sys2Proof.Config

/-- A free number, drawn fresh: the argument is the state's counter of free values drawn (log entry 5). -/
opaque freeNat : Nat → Nat

/-- Contents of the scratchpads after a warm start, which R385 leaves undefined (log entry 6). -/
opaque warmRows : Nat → List (Nat × BitVec 8)

/-- Contents of HBM before anything is written after a cold start; R459 keeps them over a warm start only. -/
opaque coldHbm : Nat → List (Nat × BitVec 8)

/-- vl that a vset instruction gives for an AVL above VLMAX and below twice VLMAX, by AVL and VLMAX; RVV 1.0 leaves it open within bounds
that the step keeps (log entry 16). -/
opaque vlPick : Nat → Nat → Nat

/-- Which instances of a type a part with fewer of them lacks: those of the highest ranks. R6 leaves the numbers to the unit, except for CAMP
and HBM; arguments are the block type code and the instance (log entry 26). -/
opaque partRank : Nat → Nat → Nat

/-- Which agnostic elements an instruction of the vector unit fills with ones, and the tail bits of a mask it writes: one bit for each. Arguments are
the instruction, vl, vtype, the register file, and a counter that stands at 0 for replay-exact work, whose values depend on nothing else
(R35, R36; log entry 134). -/
opaque agnostic : Nat → Nat → Nat → List (Nat × Nat) → Nat → Nat

/-- Temperature of the hottest die of a stack in °C, by instance and TIMECNT: the stack reports it, and no command of the table brings it
(R458, R477; log entry 139). -/
opaque hbmTemp : Nat → Nat → Nat

/-- Bits in a scan chain, which no chapter gives (R598). -/
opaque chainLen : Nat → Nat

/-- Is a chain number one of SEC or OTP (R598); no chapter numbers the chains. -/
opaque keyChain : Nat → Bool

end Sys2Proof.Config
end

