-- ==== Sys2Proof/Machine/RegTable.lean ====
section
/-! DEFINITION. The register tables of every block page, as the chapters list them: offset, count, spacing, access, width, reset and level. -/

namespace Sys2Proof.Machine

/-- The access codes of R13. -/
inductive Access
  | ro | rw | rws | w1c | wo | rc
  deriving DecidableEq, Repr

/-- Who may read or write a register (R16, R25, R26): any accessor the page admits, the partition numbered as the
register of its array, one fixed partition, the owner of the DMA channel or of the barrier group shown, host, firmware. -/
inductive Lvl
  | part | own | fix (p : Nat) | chan | grp | host | fw
  deriving DecidableEq, Repr

/-- The block types of R69. -/
inductive Blk
  | sys | cmdw | camp | cams | rpl | sctl | isp | pyr | warp | str | flw | ftr | fms | vtm | nc | ncm | ncv | ncd | spc | ncse | vse | dma | ladle | fgs | hbm | noc | fabp | rolv | safe | pwr | dbg | otp | boot | sec
  deriving DecidableEq, Repr

/-- One line of a register table: `cnt` registers from `off`, `str` bytes apart. -/
structure RegRow where
  off : Nat
  cnt : Nat
  str : Nat
  acc : Access
  mask : Nat
  rst : Nat
  w : Lvl
  r : Lvl
  deriving DecidableEq, Repr

/-- Registers of a SYS page. -/
def rowsSys : List RegRow := [
  ⟨0x180, 1, 0x0, .rws, 0x10F, 0x10F, .host, .host⟩,
  ⟨0x184, 1, 0x0, .ro, 0xFF03, 0x101, .host, .host⟩,
  ⟨0x188, 1, 0x0, .w1c, 0x3F, 0x0, .host, .host⟩,
  ⟨0x1A0, 4, 0x20, .rw, 0xFFFFF000, 0x0, .host, .host⟩,
  ⟨0x1A4, 4, 0x20, .rw, 0xFFFF, 0x0, .host, .host⟩,
  ⟨0x1A8, 4, 0x20, .rw, 0x1F, 0x0, .host, .host⟩,
  ⟨0x1AC, 4, 0x20, .ro, 0xFFFFFFFF, 0x0, .host, .host⟩,
  ⟨0x1B0, 4, 0x20, .rw, 0xFFFFFFFF, 0x0, .host, .host⟩]

/-- Registers of a CMDW page. -/
def rowsCmdw : List RegRow := [
  ⟨0x100, 16, 0x4, .rw, 0xFFFFFFFF, 0x0, .part, .part⟩,
  ⟨0x140, 1, 0x0, .wo, 0xFF, 0x0, .part, .part⟩,
  ⟨0x144, 1, 0x0, .ro, 0xFFFFFFFF, 0x80000000, .part, .part⟩,
  ⟨0x148, 1, 0x0, .ro, 0x1FF, 0x0, .part, .part⟩,
  ⟨0x150, 1, 0x0, .rw, 0xFFFFF000, 0x0, .part, .part⟩,
  ⟨0x154, 1, 0x0, .rw, 0xFFFF, 0x0, .part, .part⟩,
  ⟨0x158, 1, 0x0, .rw, 0x1F, 0x0, .part, .part⟩,
  ⟨0x15C, 1, 0x0, .ro, 0xFFFFFFFF, 0x0, .part, .part⟩,
  ⟨0x160, 1, 0x0, .rw, 0xFFFFFFFF, 0x0, .part, .part⟩,
  ⟨0x164, 1, 0x0, .rw, 0xFFFFFFF9, 0x0, .part, .part⟩,
  ⟨0x168, 1, 0x0, .rw, 0xFFFF, 0x0, .part, .part⟩,
  ⟨0x16C, 1, 0x0, .rw, 0xFFFFFFFF, 0x1, .part, .part⟩,
  ⟨0x170, 1, 0x0, .rw, 0x3F, 0x0, .part, .part⟩,
  ⟨0x174, 1, 0x0, .ro, 0x3, 0x0, .part, .part⟩,
  ⟨0x178, 1, 0x0, .rw, 0xC0000000, 0x0, .part, .part⟩,
  ⟨0x17C, 1, 0x0, .rw, 0xFFFF, 0x0, .part, .part⟩,
  ⟨0x400, 256, 0x4, .rw, 0x13F, 0x100, .part, .part⟩]

/-- Registers of a CAMP page. -/
def rowsCamp : List RegRow := [
  ⟨0x100, 1, 0x0, .rws, 0x1FFF003F, 0x0, .host, .part⟩,
  ⟨0x104, 1, 0x0, .rws, 0xFFFFF, 0x3210, .host, .part⟩,
  ⟨0x800, 1, 0x0, .ro, 0xFFFFFFFF, 0x0, .host, .host⟩,
  ⟨0x804, 1, 0x0, .ro, 0xFFFFFFFF, 0x0, .host, .host⟩,
  ⟨0x808, 1, 0x0, .ro, 0xFFFFFFFF, 0x0, .host, .host⟩,
  ⟨0x80C, 1, 0x0, .ro, 0xFFFFFFFF, 0x0, .host, .host⟩,
  ⟨0x810, 1, 0x0, .ro, 0xFFFFFFFF, 0x0, .host, .host⟩]

/-- Registers of a CAMS page. -/
def rowsCams : List RegRow := [
  ⟨0x100, 1, 0x0, .rws, 0x13F0F1F, 0x0, .part, .part⟩,
  ⟨0x104, 1, 0x0, .rws, 0xFFFFFFFF, 0x0, .part, .part⟩,
  ⟨0x108, 1, 0x0, .rws, 0xF1, 0x0, .part, .part⟩,
  ⟨0x10C, 1, 0x0, .rws, 0xFFFF0007, 0x0, .part, .part⟩,
  ⟨0x110, 1, 0x0, .rws, 0xFFFF, 0x0, .part, .part⟩,
  ⟨0x114, 1, 0x0, .rws, 0xFFFFFFFF, 0x0, .part, .part⟩,
  ⟨0x118, 1, 0x0, .rws, 0xFFFFF000, 0x0, .part, .part⟩,
  ⟨0x11C, 1, 0x0, .rws, 0xFFFF, 0x0, .part, .part⟩,
  ⟨0x120, 1, 0x0, .rws, 0xFFFFFFFF, 0x0, .part, .part⟩,
  ⟨0x124, 1, 0x0, .rws, 0x7F, 0x1, .part, .part⟩,
  ⟨0x128, 1, 0x0, .rws, 0xFFFFFFFF, 0x0, .part, .part⟩,
  ⟨0x12C, 1, 0x0, .rws, 0xFFFFFFFF, 0x0, .part, .part⟩,
  ⟨0x130, 1, 0x0, .rws, 0xFFFFFFFF, 0x0, .part, .part⟩,
  ⟨0x134, 1, 0x0, .ro, 0xFFFFFFFF, 0x0, .part, .part⟩,
  ⟨0x138, 1, 0x0, .ro, 0xFFFF, 0x0, .part, .part⟩,
  ⟨0x800, 1, 0x0, .ro, 0xFFFFFFFF, 0x0, .part, .part⟩,
  ⟨0x804, 1, 0x0, .ro, 0xFFFFFFFF, 0x0, .part, .part⟩,
  ⟨0x808, 1, 0x0, .ro, 0xFFFFFFFF, 0x0, .part, .part⟩,
  ⟨0x80C, 1, 0x0, .ro, 0xFFFFFFFF, 0x0, .part, .part⟩,
  ⟨0x810, 1, 0x0, .ro, 0xFFFFFFFF, 0x0, .part, .part⟩,
  ⟨0x814, 1, 0x0, .ro, 0xFFFFFFFF, 0x0, .part, .part⟩,
  ⟨0x818, 1, 0x0, .ro, 0xFFFFFFFF, 0x0, .part, .part⟩,
  ⟨0x81C, 1, 0x0, .ro, 0xFFFFFFFF, 0x0, .part, .part⟩]

/-- Registers of a RPL page. -/
def rowsRpl : List RegRow := [
  ⟨0x100, 1, 0x0, .rws, 0x1, 0x0, .part, .part⟩,
  ⟨0x104, 1, 0x0, .rws, 0xFFFFFFFF, 0x0, .part, .part⟩,
  ⟨0x108, 1, 0x0, .rws, 0xFFFFFFFF, 0x0, .part, .part⟩,
  ⟨0x110, 16, 0x10, .rws, 0xFFFFF000, 0x0, .part, .part⟩,
  ⟨0x114, 16, 0x10, .rws, 0xFFFF, 0x0, .part, .part⟩,
  ⟨0x118, 16, 0x10, .rws, 0x13F1F, 0x0, .part, .part⟩,
  ⟨0x11C, 16, 0x10, .rw, 0xFFFFFFFF, 0x0, .part, .part⟩,
  ⟨0x210, 16, 0x4, .ro, 0xFFFFFFFF, 0x0, .part, .part⟩,
  ⟨0x250, 1, 0x0, .ro, 0x70F, 0x0, .part, .part⟩,
  ⟨0x800, 1, 0x0, .ro, 0xFFFFFFFF, 0x0, .part, .part⟩,
  ⟨0x804, 1, 0x0, .ro, 0xFFFFFFFF, 0x0, .part, .part⟩,
  ⟨0x808, 1, 0x0, .ro, 0xFFFFFFFF, 0x0, .part, .part⟩]

/-- Registers of a SCTL page. -/
def rowsSctl : List RegRow := [
  ⟨0x100, 1, 0x0, .rws, 0xFF01, 0x0, .part, .part⟩,
  ⟨0x110, 4, 0x10, .rws, 0x7F07FD, 0x0, .part, .part⟩,
  ⟨0x114, 4, 0x10, .rws, 0xFFFFF, 0x0, .part, .part⟩,
  ⟨0x150, 1, 0x0, .rw, 0xFFFFFFF8, 0x0, .part, .part⟩,
  ⟨0x154, 1, 0x0, .rw, 0xFFFF, 0x0, .part, .part⟩,
  ⟨0x158, 1, 0x0, .wo, 0x1, 0x0, .part, .part⟩,
  ⟨0x15C, 1, 0x0, .ro, 0x11F, 0x0, .part, .part⟩,
  ⟨0x160, 1, 0x0, .ro, 0x3FFFFF, 0x0, .part, .part⟩,
  ⟨0x180, 2, 0x20, .rw, 0xFFFFFFFF, 0x0, .part, .part⟩,
  ⟨0x184, 2, 0x20, .rw, 0xFFFFFFFF, 0x0, .part, .part⟩,
  ⟨0x188, 2, 0x20, .rw, 0xFFFFFFFF, 0x0, .part, .part⟩,
  ⟨0x18C, 2, 0x20, .rw, 0xFFFFFFFF, 0x0, .part, .part⟩,
  ⟨0x190, 2, 0x20, .rw, 0x3, 0x0, .part, .part⟩,
  ⟨0x194, 2, 0x20, .ro, 0xFFFFFFFF, 0x0, .part, .part⟩,
  ⟨0x800, 1, 0x0, .ro, 0xFFFFFFFF, 0x0, .part, .part⟩,
  ⟨0x804, 1, 0x0, .ro, 0xFFFFFFFF, 0x0, .part, .part⟩,
  ⟨0x808, 1, 0x0, .ro, 0xFFFFFFFF, 0x0, .part, .part⟩,
  ⟨0x80C, 1, 0x0, .ro, 0xFFFFFFFF, 0x0, .part, .part⟩]

/-- Registers of a ISP page. -/
def rowsIsp : List RegRow := [
  ⟨0x100, 16, 0x8, .rws, 0xFFFFE001, 0x0, .part, .part⟩,
  ⟨0x104, 16, 0x8, .rws, 0xFFFF, 0x0, .part, .part⟩,
  ⟨0x180, 1, 0x0, .ro, 0xFFFFFFFF, 0x0, .part, .part⟩,
  ⟨0x184, 1, 0x0, .ro, 0xFFFF003F, 0x0, .part, .part⟩,
  ⟨0x800, 1, 0x0, .ro, 0xFFFFFFFF, 0x0, .part, .part⟩,
  ⟨0x804, 1, 0x0, .ro, 0xFFFFFFFF, 0x0, .part, .part⟩,
  ⟨0x808, 1, 0x0, .ro, 0xFFFFFFFF, 0x0, .part, .part⟩,
  ⟨0x80C, 1, 0x0, .ro, 0xFFFFFFFF, 0x0, .part, .part⟩,
  ⟨0x810, 1, 0x0, .ro, 0xFFFFFFFF, 0x0, .part, .part⟩,
  ⟨0x814, 1, 0x0, .ro, 0xFFFFFFFF, 0x0, .part, .part⟩,
  ⟨0xC00, 1, 0x0, .ro, 0xFFFFFFFF, 0x0, .part, .host⟩,
  ⟨0xC04, 1, 0x0, .ro, 0xFFFFFFFF, 0x0, .part, .host⟩,
  ⟨0xC08, 1, 0x0, .ro, 0xFFFFFFFF, 0x0, .part, .host⟩,
  ⟨0xC0C, 1, 0x0, .ro, 0xFFFF0003, 0x0, .part, .host⟩]

/-- Registers of a PYR page. -/
def rowsPyr : List RegRow := [
  ⟨0x180, 1, 0x0, .ro, 0xFFFFFFFF, 0x0, .part, .part⟩,
  ⟨0x184, 1, 0x0, .ro, 0xFFFFFFFF, 0x0, .part, .part⟩,
  ⟨0x800, 1, 0x0, .ro, 0xFFFFFFFF, 0x0, .part, .part⟩,
  ⟨0x804, 1, 0x0, .ro, 0xFFFFFFFF, 0x0, .part, .part⟩,
  ⟨0x808, 1, 0x0, .ro, 0xFFFFFFFF, 0x0, .part, .part⟩,
  ⟨0x80C, 1, 0x0, .ro, 0xFFFFFFFF, 0x0, .part, .part⟩,
  ⟨0x810, 1, 0x0, .ro, 0xFFFFFFFF, 0x0, .part, .part⟩,
  ⟨0xC00, 1, 0x0, .ro, 0xFFFFFFFF, 0x0, .part, .host⟩,
  ⟨0xC04, 1, 0x0, .ro, 0xFFFFFFFF, 0x0, .part, .host⟩,
  ⟨0xC08, 1, 0x0, .ro, 0xFFFFFFFF, 0x0, .part, .host⟩,
  ⟨0xC0C, 1, 0x0, .ro, 0xFFFF0003, 0x0, .part, .host⟩]

/-- Registers of a WARP page. -/
def rowsWarp : List RegRow := [
  ⟨0x180, 1, 0x0, .ro, 0xFFFFFFFF, 0x0, .part, .part⟩,
  ⟨0x184, 1, 0x0, .ro, 0xFFFFFFFF, 0x0, .part, .part⟩,
  ⟨0x800, 1, 0x0, .ro, 0xFFFFFFFF, 0x0, .part, .part⟩,
  ⟨0x804, 1, 0x0, .ro, 0xFFFFFFFF, 0x0, .part, .part⟩,
  ⟨0x808, 1, 0x0, .ro, 0xFFFFFFFF, 0x0, .part, .part⟩,
  ⟨0x80C, 1, 0x0, .ro, 0xFFFFFFFF, 0x0, .part, .part⟩,
  ⟨0x810, 1, 0x0, .ro, 0xFFFFFFFF, 0x0, .part, .part⟩,
  ⟨0x814, 1, 0x0, .ro, 0xFFFFFFFF, 0x0, .part, .part⟩,
  ⟨0x818, 1, 0x0, .ro, 0xFFFFFFFF, 0x0, .part, .part⟩,
  ⟨0xC00, 1, 0x0, .ro, 0xFFFFFFFF, 0x0, .part, .host⟩,
  ⟨0xC04, 1, 0x0, .ro, 0xFFFFFFFF, 0x0, .part, .host⟩,
  ⟨0xC08, 1, 0x0, .ro, 0xFFFFFFFF, 0x0, .part, .host⟩,
  ⟨0xC0C, 1, 0x0, .ro, 0xFFFF0003, 0x0, .part, .host⟩]

/-- Registers of a STR page. -/
def rowsStr : List RegRow := [
  ⟨0x180, 1, 0x0, .ro, 0xFFFFFFFF, 0x0, .part, .part⟩,
  ⟨0x184, 1, 0x0, .ro, 0xFFFFFFFF, 0x0, .part, .part⟩,
  ⟨0x800, 1, 0x0, .ro, 0xFFFFFFFF, 0x0, .part, .part⟩,
  ⟨0x804, 1, 0x0, .ro, 0xFFFFFFFF, 0x0, .part, .part⟩,
  ⟨0x808, 1, 0x0, .ro, 0xFFFFFFFF, 0x0, .part, .part⟩,
  ⟨0x80C, 1, 0x0, .ro, 0xFFFFFFFF, 0x0, .part, .part⟩,
  ⟨0x810, 1, 0x0, .ro, 0xFFFFFFFF, 0x0, .part, .part⟩,
  ⟨0x814, 1, 0x0, .ro, 0xFFFFFFFF, 0x0, .part, .part⟩,
  ⟨0x818, 1, 0x0, .ro, 0xFFFFFFFF, 0x0, .part, .part⟩,
  ⟨0x81C, 1, 0x0, .ro, 0xFFFFFFFF, 0x0, .part, .part⟩,
  ⟨0x820, 1, 0x0, .ro, 0xFFFFFFFF, 0x0, .part, .part⟩,
  ⟨0x824, 1, 0x0, .ro, 0xFFFFFFFF, 0x0, .part, .part⟩,
  ⟨0x828, 1, 0x0, .ro, 0xFFFFFFFF, 0x0, .part, .part⟩,
  ⟨0xC00, 1, 0x0, .ro, 0xFFFFFFFF, 0x0, .part, .host⟩,
  ⟨0xC04, 1, 0x0, .ro, 0xFFFFFFFF, 0x0, .part, .host⟩,
  ⟨0xC08, 1, 0x0, .ro, 0xFFFFFFFF, 0x0, .part, .host⟩,
  ⟨0xC0C, 1, 0x0, .ro, 0xFFFF0003, 0x0, .part, .host⟩]

/-- Registers of a FLW page. -/
def rowsFlw : List RegRow := [
  ⟨0x180, 1, 0x0, .ro, 0xFFFFFFFF, 0x0, .part, .part⟩,
  ⟨0x184, 1, 0x0, .ro, 0xFFFFFFFF, 0x0, .part, .part⟩,
  ⟨0x800, 1, 0x0, .ro, 0xFFFFFFFF, 0x0, .part, .part⟩,
  ⟨0x804, 1, 0x0, .ro, 0xFFFFFFFF, 0x0, .part, .part⟩,
  ⟨0x808, 1, 0x0, .ro, 0xFFFFFFFF, 0x0, .part, .part⟩,
  ⟨0x80C, 1, 0x0, .ro, 0xFFFFFFFF, 0x0, .part, .part⟩,
  ⟨0x810, 1, 0x0, .ro, 0xFFFFFFFF, 0x0, .part, .part⟩,
  ⟨0x814, 1, 0x0, .ro, 0xFFFFFFFF, 0x0, .part, .part⟩,
  ⟨0x818, 1, 0x0, .ro, 0xFFFFFFFF, 0x0, .part, .part⟩,
  ⟨0x81C, 1, 0x0, .ro, 0xFFFFFFFF, 0x0, .part, .part⟩,
  ⟨0x820, 1, 0x0, .ro, 0xFFFFFFFF, 0x0, .part, .part⟩,
  ⟨0x824, 1, 0x0, .ro, 0xFFFFFFFF, 0x0, .part, .part⟩,
  ⟨0x828, 1, 0x0, .ro, 0xFFFFFFFF, 0x0, .part, .part⟩,
  ⟨0xC00, 1, 0x0, .ro, 0xFFFFFFFF, 0x0, .part, .host⟩,
  ⟨0xC04, 1, 0x0, .ro, 0xFFFFFFFF, 0x0, .part, .host⟩,
  ⟨0xC08, 1, 0x0, .ro, 0xFFFFFFFF, 0x0, .part, .host⟩,
  ⟨0xC0C, 1, 0x0, .ro, 0xFFFF0003, 0x0, .part, .host⟩]

/-- Registers of a FTR page. -/
def rowsFtr : List RegRow := [
  ⟨0x180, 1, 0x0, .ro, 0xFFFFFFFF, 0x0, .part, .part⟩,
  ⟨0x184, 1, 0x0, .ro, 0xFFFFFFFF, 0x0, .part, .part⟩,
  ⟨0x800, 1, 0x0, .ro, 0xFFFFFFFF, 0x0, .part, .part⟩,
  ⟨0x804, 1, 0x0, .ro, 0xFFFFFFFF, 0x0, .part, .part⟩,
  ⟨0x808, 1, 0x0, .ro, 0xFFFFFFFF, 0x0, .part, .part⟩,
  ⟨0x80C, 1, 0x0, .ro, 0xFFFFFFFF, 0x0, .part, .part⟩,
  ⟨0x810, 1, 0x0, .ro, 0xFFFFFFFF, 0x0, .part, .part⟩,
  ⟨0x814, 1, 0x0, .ro, 0xFFFFFFFF, 0x0, .part, .part⟩,
  ⟨0x818, 1, 0x0, .ro, 0xFFFFFFFF, 0x0, .part, .part⟩,
  ⟨0x81C, 1, 0x0, .ro, 0xFFFFFFFF, 0x0, .part, .part⟩,
  ⟨0xC00, 1, 0x0, .ro, 0xFFFFFFFF, 0x0, .part, .host⟩,
  ⟨0xC04, 1, 0x0, .ro, 0xFFFFFFFF, 0x0, .part, .host⟩,
  ⟨0xC08, 1, 0x0, .ro, 0xFFFFFFFF, 0x0, .part, .host⟩,
  ⟨0xC0C, 1, 0x0, .ro, 0xFFFF0003, 0x0, .part, .host⟩]

/-- Registers of a FMS page. -/
def rowsFms : List RegRow := [
  ⟨0x100, 1, 0x0, .rw, 0xFF, 0x0, .part, .part⟩,
  ⟨0x104, 1, 0x0, .ro, 0x1FFFF, 0x0, .part, .part⟩,
  ⟨0x108, 1, 0x0, .ro, 0x3FFFF, 0x0, .part, .part⟩,
  ⟨0x10C, 1, 0x0, .ro, 0xFFFFFFFF, 0x0, .part, .part⟩,
  ⟨0x110, 1, 0x0, .ro, 0xFFFFFFFF, 0x0, .part, .part⟩,
  ⟨0x114, 1, 0x0, .ro, 0xFFFFFFFF, 0x0, .part, .part⟩,
  ⟨0x118, 1, 0x0, .rw, 0x103, 0x0, .host, .part⟩,
  ⟨0x11C, 1, 0x0, .ro, 0xFF03, 0x0, .part, .part⟩,
  ⟨0x140, 1, 0x0, .rw, 0xFFFFFFF8, 0x0, .part, .part⟩,
  ⟨0x144, 1, 0x0, .rw, 0xFFFF, 0x0, .part, .part⟩,
  ⟨0x148, 1, 0x0, .rw, 0x1FFFF, 0x0, .part, .part⟩,
  ⟨0x14C, 1, 0x0, .wo, 0x3FF, 0x0, .part, .part⟩,
  ⟨0x150, 1, 0x0, .ro, 0xF103, 0x0, .part, .part⟩,
  ⟨0x180, 4, 0x4, .rw, 0x3FFFF, 0x8000, .host, .part⟩,
  ⟨0x190, 4, 0x4, .ro, 0x3FFFF, 0x0, .part, .part⟩,
  ⟨0x800, 1, 0x0, .ro, 0xFFFFFFFF, 0x0, .part, .host⟩,
  ⟨0x804, 1, 0x0, .ro, 0xFFFFFFFF, 0x0, .part, .host⟩,
  ⟨0x808, 1, 0x0, .ro, 0xFFFFFFFF, 0x0, .part, .host⟩,
  ⟨0x80C, 1, 0x0, .ro, 0xFFFFFFFF, 0x0, .part, .host⟩]

/-- Registers of a VTM page. -/
def rowsVtm : List RegRow := [
  ⟨0x100, 4, 0x8, .rws, 0x3FF, 0x0, .host, .own⟩,
  ⟨0x104, 4, 0x8, .rws, 0x3FF, 0x0, .host, .own⟩,
  ⟨0x180, 1, 0x0, .rw, 0x3FFFFF8, 0x0, .host, .host⟩,
  ⟨0x184, 1, 0x0, .ro, 0x83FFFFF8, 0x0, .host, .host⟩,
  ⟨0x800, 1, 0x0, .ro, 0xFFFFFFFF, 0x0, .host, .host⟩,
  ⟨0x804, 1, 0x0, .ro, 0xFFFFFFFF, 0x0, .host, .host⟩,
  ⟨0x808, 1, 0x0, .ro, 0xFFFFFFFF, 0x0, .host, .host⟩]

/-- Registers of a NC page. -/
def rowsNc : List RegRow := [
  ⟨0x100, 1, 0x0, .rws, 0x8001FFFF, 0x0, .host, .part⟩,
  ⟨0x180, 1, 0x0, .ro, 0xFFFFFFFF, 0x0, .part, .part⟩,
  ⟨0x184, 1, 0x0, .ro, 0xFFFFFFFF, 0x0, .part, .part⟩,
  ⟨0x188, 1, 0x0, .ro, 0x3F, 0x0, .part, .part⟩,
  ⟨0x190, 1, 0x0, .ro, 0xFFFFFFFF, 0x0, .part, .part⟩,
  ⟨0x194, 1, 0x0, .ro, 0xFFFFFFFF, 0x0, .part, .part⟩,
  ⟨0x198, 1, 0x0, .ro, 0xFFFFFFFF, 0x0, .part, .part⟩,
  ⟨0x19C, 1, 0x0, .ro, 0xFFFFFFFF, 0x0, .part, .part⟩,
  ⟨0x800, 1, 0x0, .ro, 0xFFFFFFFF, 0x0, .part, .part⟩,
  ⟨0x804, 1, 0x0, .ro, 0xFFFFFFFF, 0x0, .part, .part⟩,
  ⟨0x808, 1, 0x0, .ro, 0xFFFFFFFF, 0x0, .part, .part⟩,
  ⟨0x80C, 1, 0x0, .ro, 0xFFFFFFFF, 0x0, .part, .part⟩,
  ⟨0x810, 1, 0x0, .ro, 0xFFFFFFFF, 0x0, .part, .part⟩,
  ⟨0x814, 1, 0x0, .ro, 0xFFFFFFFF, 0x0, .part, .part⟩,
  ⟨0x818, 1, 0x0, .ro, 0xFFFFFFFF, 0x0, .part, .part⟩,
  ⟨0x81C, 1, 0x0, .ro, 0xFFFFFFFF, 0x0, .part, .part⟩,
  ⟨0xC00, 1, 0x0, .ro, 0xFFFFFFFF, 0x0, .part, .host⟩,
  ⟨0xC04, 1, 0x0, .ro, 0xFFFFFFFF, 0x0, .part, .host⟩,
  ⟨0xC08, 1, 0x0, .ro, 0xFFFFFFFF, 0x0, .part, .host⟩,
  ⟨0xC0C, 1, 0x0, .ro, 0xFFFF0003, 0x0, .part, .host⟩]

/-- Registers of a NCM page. -/
def rowsNcm : List RegRow := [
  ⟨0x800, 1, 0x0, .ro, 0xFFFFFFFF, 0x0, .part, .part⟩,
  ⟨0x804, 1, 0x0, .ro, 0xFFFFFFFF, 0x0, .part, .part⟩,
  ⟨0x808, 1, 0x0, .ro, 0xFFFFFFFF, 0x0, .part, .part⟩,
  ⟨0x80C, 1, 0x0, .ro, 0xFFFFFFFF, 0x0, .part, .part⟩,
  ⟨0x810, 1, 0x0, .ro, 0xFFFFFFFF, 0x0, .part, .part⟩,
  ⟨0x814, 1, 0x0, .ro, 0xFFFFFFFF, 0x0, .part, .part⟩,
  ⟨0x900, 11, 0x8, .ro, 0xFFFFFFFF, 0x0, .part, .part⟩,
  ⟨0x904, 11, 0x8, .ro, 0xFFFFFFFF, 0x0, .part, .part⟩,
  ⟨0x960, 8, 0x4, .ro, 0xFFFFFFFF, 0x0, .part, .part⟩,
  ⟨0x980, 1, 0x0, .ro, 0xFFFFFFFF, 0x0, .part, .part⟩,
  ⟨0x984, 1, 0x0, .ro, 0xFFFFFFFF, 0x0, .part, .part⟩,
  ⟨0x988, 1, 0x0, .ro, 0xFFFFFFFF, 0x0, .part, .part⟩,
  ⟨0x98C, 1, 0x0, .ro, 0xFFFFFFFF, 0x0, .part, .part⟩,
  ⟨0x990, 1, 0x0, .ro, 0xFFFFFFFF, 0x0, .part, .part⟩,
  ⟨0x994, 1, 0x0, .ro, 0xFFFFFFFF, 0x0, .part, .part⟩]

/-- Registers of a NCV page. -/
def rowsNcv : List RegRow := [
  ⟨0x800, 1, 0x0, .ro, 0xFFFFFFFF, 0x0, .part, .part⟩,
  ⟨0x804, 1, 0x0, .ro, 0xFFFFFFFF, 0x0, .part, .part⟩,
  ⟨0x808, 1, 0x0, .ro, 0xFFFFFFFF, 0x0, .part, .part⟩]

/-- Registers of a NCD page. -/
def rowsNcd : List RegRow := [
  ⟨0x100, 1, 0x0, .ro, 0xFFFFFFFF, 0x0, .host, .host⟩,
  ⟨0x104, 1, 0x0, .ro, 0xFFFFFFFF, 0x0, .host, .host⟩,
  ⟨0x208, 31, 0x8, .ro, 0xFFFFFFFF, 0x0, .host, .host⟩,
  ⟨0x20C, 31, 0x8, .ro, 0xFFFFFFFF, 0x0, .host, .host⟩]

/-- Registers of a SPC page. -/
def rowsSpc : List RegRow := [
  ⟨0x100, 8, 0x10, .rws, 0x8001FFFF, 0x0, .part, .part⟩,
  ⟨0x104, 8, 0x10, .rws, 0x3FFFF, 0x0, .part, .part⟩,
  ⟨0x108, 8, 0x10, .rws, 0x3FFF, 0x0, .part, .part⟩,
  ⟨0x10C, 8, 0x10, .rws, 0xFFFFFFFF, 0x0, .part, .part⟩,
  ⟨0x180, 1, 0x0, .rw, 0x1FFFF, 0x0, .host, .part⟩,
  ⟨0x184, 1, 0x0, .ro, 0x8001FFFF, 0x0, .part, .part⟩,
  ⟨0x188, 1, 0x0, .ro, 0x8001FFFF, 0x0, .part, .part⟩,
  ⟨0x200, 1, 0x0, .rw, 0x3F, 0x0, .part, .part⟩,
  ⟨0x204, 1, 0x0, .ro, 0x1F, 0x0, .part, .part⟩,
  ⟨0x240, 16, 0x4, .ro, 0x87FF, 0x0, .part, .part⟩,
  ⟨0x800, 1, 0x0, .ro, 0xFFFFFFFF, 0x0, .part, .part⟩,
  ⟨0x804, 1, 0x0, .ro, 0xFFFFFFFF, 0x0, .part, .part⟩,
  ⟨0x808, 1, 0x0, .ro, 0xFFFFFFFF, 0x0, .part, .part⟩,
  ⟨0x80C, 1, 0x0, .ro, 0xFFFFFFFF, 0x0, .part, .part⟩,
  ⟨0x810, 1, 0x0, .ro, 0xFFFFFFFF, 0x0, .part, .part⟩,
  ⟨0x814, 1, 0x0, .ro, 0xFFFFFFFF, 0x0, .part, .part⟩,
  ⟨0x818, 1, 0x0, .ro, 0xFFFFFFFF, 0x0, .part, .part⟩,
  ⟨0x81C, 1, 0x0, .ro, 0xFFFFFFFF, 0x0, .part, .part⟩]

/-- Registers of a NCSE page. -/
def rowsNcse : List RegRow := [
  ⟨0x100, 1, 0x0, .rws, 0x1F1F1F, 0x20509, .part, .part⟩,
  ⟨0x104, 1, 0x0, .rw, 0xFFFFF, 0x2710, .host, .part⟩,
  ⟨0x108, 1, 0x0, .wo, 0x1F, 0x0, .part, .part⟩,
  ⟨0x10C, 1, 0x0, .rw, 0x1F, 0x0, .part, .part⟩,
  ⟨0x110, 1, 0x0, .ro, 0xFFFFFF0F, 0x0, .part, .part⟩,
  ⟨0x114, 1, 0x0, .ro, 0xFFFF, 0x0, .part, .part⟩,
  ⟨0x118, 1, 0x0, .ro, 0xFFFFFFFF, 0x0, .part, .part⟩,
  ⟨0x11C, 1, 0x0, .ro, 0xFFFFFFFF, 0x0, .part, .part⟩,
  ⟨0x120, 1, 0x0, .ro, 0xFFFFFFFF, 0x0, .part, .part⟩,
  ⟨0x124, 1, 0x0, .ro, 0xFFFFFF0F, 0x0, .part, .part⟩,
  ⟨0x800, 1, 0x0, .ro, 0xFFFFFFFF, 0x0, .part, .part⟩,
  ⟨0x804, 1, 0x0, .ro, 0xFFFFFFFF, 0x0, .part, .part⟩,
  ⟨0x808, 1, 0x0, .ro, 0xFFFFFFFF, 0x0, .part, .part⟩,
  ⟨0x80C, 1, 0x0, .ro, 0xFFFFFFFF, 0x0, .part, .part⟩,
  ⟨0x810, 1, 0x0, .ro, 0xFFFFFFFF, 0x0, .part, .part⟩,
  ⟨0x814, 1, 0x0, .ro, 0xFFFFFFFF, 0x0, .part, .part⟩,
  ⟨0x818, 1, 0x0, .ro, 0xFFFFFFFF, 0x0, .part, .part⟩,
  ⟨0x81C, 1, 0x0, .ro, 0xFFFFFFFF, 0x0, .part, .part⟩,
  ⟨0x820, 1, 0x0, .ro, 0xFFFFFFFF, 0x0, .part, .part⟩,
  ⟨0x824, 1, 0x0, .ro, 0xFFFFFFFF, 0x0, .part, .part⟩,
  ⟨0x828, 1, 0x0, .ro, 0xFFFFFFFF, 0x0, .part, .part⟩,
  ⟨0x82C, 1, 0x0, .ro, 0xFFFFFFFF, 0x0, .part, .part⟩,
  ⟨0x830, 1, 0x0, .ro, 0xFFFFFFFF, 0x0, .part, .part⟩,
  ⟨0x834, 1, 0x0, .ro, 0xFFFFFFFF, 0x0, .part, .part⟩]

/-- Registers of a VSE page. -/
def rowsVse : List RegRow := [
  ⟨0x100, 1, 0x0, .rws, 0x1F1F1F, 0x20509, .part, .part⟩,
  ⟨0x104, 1, 0x0, .rw, 0xFFFFF, 0x2710, .host, .part⟩,
  ⟨0x108, 1, 0x0, .wo, 0x1F, 0x0, .part, .part⟩,
  ⟨0x10C, 1, 0x0, .rw, 0x1F, 0x0, .part, .part⟩,
  ⟨0x110, 1, 0x0, .ro, 0xFFFFFF0F, 0x0, .part, .part⟩,
  ⟨0x114, 1, 0x0, .ro, 0xFFFF, 0x0, .part, .part⟩,
  ⟨0x118, 1, 0x0, .ro, 0xFFFFFFFF, 0x0, .part, .part⟩,
  ⟨0x11C, 1, 0x0, .ro, 0xFFFFFFFF, 0x0, .part, .part⟩,
  ⟨0x120, 1, 0x0, .ro, 0xFFFFFFFF, 0x0, .part, .part⟩,
  ⟨0x124, 1, 0x0, .ro, 0xFFFFFF0F, 0x0, .part, .part⟩,
  ⟨0x800, 1, 0x0, .ro, 0xFFFFFFFF, 0x0, .part, .part⟩,
  ⟨0x804, 1, 0x0, .ro, 0xFFFFFFFF, 0x0, .part, .part⟩,
  ⟨0x808, 1, 0x0, .ro, 0xFFFFFFFF, 0x0, .part, .part⟩,
  ⟨0x80C, 1, 0x0, .ro, 0xFFFFFFFF, 0x0, .part, .part⟩,
  ⟨0x810, 1, 0x0, .ro, 0xFFFFFFFF, 0x0, .part, .part⟩,
  ⟨0x814, 1, 0x0, .ro, 0xFFFFFFFF, 0x0, .part, .part⟩,
  ⟨0x818, 1, 0x0, .ro, 0xFFFFFFFF, 0x0, .part, .part⟩,
  ⟨0x81C, 1, 0x0, .ro, 0xFFFFFFFF, 0x0, .part, .part⟩,
  ⟨0x820, 1, 0x0, .ro, 0xFFFFFFFF, 0x0, .part, .part⟩,
  ⟨0x824, 1, 0x0, .ro, 0xFFFFFFFF, 0x0, .part, .part⟩,
  ⟨0x828, 1, 0x0, .ro, 0xFFFFFFFF, 0x0, .part, .part⟩,
  ⟨0x82C, 1, 0x0, .ro, 0xFFFFFFFF, 0x0, .part, .part⟩,
  ⟨0x830, 1, 0x0, .ro, 0xFFFFFFFF, 0x0, .part, .part⟩,
  ⟨0x834, 1, 0x0, .ro, 0xFFFFFFFF, 0x0, .part, .part⟩]

/-- Registers of a DMA page. -/
def rowsDma : List RegRow := [
  ⟨0x100, 1, 0x0, .rw, 0xFFFFF, 0x2710, .host, .part⟩,
  ⟨0x110, 4, 0x4, .rw, 0xFFFF, 0x0, .own, .own⟩,
  ⟨0x180, 1, 0x0, .ro, 0x1F, 0x0, .part, .part⟩,
  ⟨0x200, 32, 0x20, .rw, 0x103, 0x0, .host, .chan⟩,
  ⟨0x204, 32, 0x20, .rws, 0xFFFF3F17, 0x400003, .chan, .chan⟩,
  ⟨0x208, 32, 0x20, .ro, 0x7FF3F, 0x0, .chan, .chan⟩,
  ⟨0x20C, 32, 0x20, .ro, 0xFFFF, 0x0, .chan, .chan⟩,
  ⟨0x210, 32, 0x20, .ro, 0xFFFFFFFF, 0x0, .chan, .chan⟩,
  ⟨0x214, 32, 0x20, .ro, 0xFFFFFFFF, 0x0, .chan, .chan⟩,
  ⟨0x218, 32, 0x20, .ro, 0xFFFFFFFF, 0x0, .chan, .chan⟩,
  ⟨0x21C, 32, 0x20, .wo, 0x3, 0x0, .chan, .chan⟩,
  ⟨0x800, 1, 0x0, .ro, 0xFFFFFFFF, 0x0, .host, .host⟩,
  ⟨0x804, 1, 0x0, .ro, 0xFFFFFFFF, 0x0, .host, .host⟩,
  ⟨0x808, 1, 0x0, .ro, 0xFFFFFFFF, 0x0, .host, .host⟩,
  ⟨0x80C, 1, 0x0, .ro, 0xFFFFFFFF, 0x0, .host, .host⟩,
  ⟨0x810, 1, 0x0, .ro, 0xFFFFFFFF, 0x0, .host, .host⟩,
  ⟨0x814, 1, 0x0, .ro, 0xFFFFFFFF, 0x0, .host, .host⟩,
  ⟨0x818, 1, 0x0, .ro, 0xFFFFFFFF, 0x0, .host, .host⟩,
  ⟨0x81C, 1, 0x0, .ro, 0xFFFFFFFF, 0x0, .host, .host⟩,
  ⟨0x820, 1, 0x0, .ro, 0xFFFFFFFF, 0x0, .host, .host⟩,
  ⟨0x824, 1, 0x0, .ro, 0xFFFFFFFF, 0x0, .host, .host⟩]

/-- Registers of a LADLE page. -/
def rowsLadle : List RegRow := [
  ⟨0x100, 1, 0x0, .ro, 0xFF03007F, 0x0, .part, .part⟩,
  ⟨0x104, 1, 0x0, .ro, 0x7FFFFFFF, 0x0, .part, .part⟩,
  ⟨0x800, 1, 0x0, .ro, 0xFFFFFFFF, 0x0, .part, .part⟩,
  ⟨0x804, 1, 0x0, .ro, 0xFFFFFFFF, 0x0, .part, .part⟩,
  ⟨0x808, 1, 0x0, .ro, 0xFFFFFFFF, 0x0, .part, .part⟩,
  ⟨0x80C, 1, 0x0, .ro, 0xFFFFFFFF, 0x0, .part, .part⟩,
  ⟨0x810, 1, 0x0, .ro, 0xFFFFFFFF, 0x0, .part, .part⟩,
  ⟨0x814, 1, 0x0, .rc, 0x7F, 0x0, .part, .part⟩,
  ⟨0x818, 1, 0x0, .ro, 0xFFFFFFFF, 0x0, .part, .part⟩]

/-- Registers of a FGS page. -/
def rowsFgs : List RegRow := [
  ⟨0x100, 1, 0x0, .rws, 0x1FF, 0x114, .host, .part⟩,
  ⟨0x120, 4, 0x4, .rw, 0x80000FFF, 0x80000000, .fw, .part⟩,
  ⟨0x140, 4, 0x8, .rw, 0x1FFF07FF, 0x10000400, .host, .part⟩,
  ⟨0x144, 4, 0x8, .rw, 0x1FF7FFF, 0x1004000, .host, .part⟩,
  ⟨0x160, 4, 0x8, .ro, 0x1FFF07FF, 0x0, .host, .own⟩,
  ⟨0x164, 4, 0x8, .ro, 0x1FF7FFF, 0x0, .host, .own⟩,
  ⟨0x800, 4, 0x20, .ro, 0xFFFFFFFF, 0x0, .host, .own⟩,
  ⟨0x804, 4, 0x20, .ro, 0xFFFFFFFF, 0x0, .host, .own⟩,
  ⟨0x808, 4, 0x20, .ro, 0xFFFFFFFF, 0x0, .host, .own⟩,
  ⟨0x80C, 4, 0x20, .ro, 0xFFFFFFFF, 0x0, .host, .own⟩,
  ⟨0x810, 4, 0x20, .ro, 0xFFFFFFFF, 0x0, .host, .own⟩,
  ⟨0x814, 4, 0x20, .ro, 0xFFFFFFFF, 0x0, .host, .own⟩,
  ⟨0x818, 4, 0x20, .ro, 0xFFFFFFFF, 0x0, .host, .own⟩,
  ⟨0x81C, 4, 0x20, .ro, 0xFFFFFFFF, 0x0, .host, .own⟩]

/-- Registers of a HBM page. -/
def rowsHbm : List RegRow := [
  ⟨0x100, 1, 0x0, .rws, 0xFF03, 0x1803, .host, .part⟩,
  ⟨0x110, 4, 0x4, .rws, 0x3F, 0x0, .host, .part⟩,
  ⟨0x140, 1, 0x0, .ro, 0x1FF, 0x0, .host, .part⟩,
  ⟨0x144, 1, 0x0, .ro, 0xFF03, 0x0, .host, .part⟩,
  ⟨0x180, 1, 0x0, .ro, 0x1F, 0x0, .host, .host⟩,
  ⟨0x184, 1, 0x0, .wo, 0x1, 0x0, .host, .host⟩,
  ⟨0x1A0, 8, 0x4, .ro, 0xFFFFFFFF, 0x0, .host, .host⟩,
  ⟨0x800, 1, 0x0, .ro, 0xFFFFFFFF, 0x0, .host, .host⟩,
  ⟨0x804, 1, 0x0, .ro, 0xFFFFFFFF, 0x0, .host, .host⟩,
  ⟨0x808, 1, 0x0, .ro, 0xFFFFFFFF, 0x0, .host, .host⟩,
  ⟨0x80C, 1, 0x0, .ro, 0xFFFFFFFF, 0x0, .host, .host⟩,
  ⟨0x840, 4, 0x8, .ro, 0xFFFFFFFF, 0x0, .host, .own⟩,
  ⟨0x844, 4, 0x8, .ro, 0xFFFFFFFF, 0x0, .host, .own⟩,
  ⟨0x860, 4, 0x4, .ro, 0xFFFFFFFF, 0x0, .host, .own⟩]

/-- Registers of a NOC page. -/
def rowsNoc : List RegRow := [
  ⟨0x100, 4, 0x8, .rws, 0xFFFFF001, 0x0, .host, .host⟩,
  ⟨0x104, 4, 0x8, .rws, 0xFFFFF, 0x0, .host, .host⟩,
  ⟨0x140, 1, 0x0, .rw, 0xFFFF0000, 0x0, .host, .host⟩,
  ⟨0x144, 1, 0x0, .rw, 0xFFFF, 0x0, .host, .host⟩,
  ⟨0x148, 1, 0x0, .wo, 0x7, 0x0, .host, .host⟩,
  ⟨0x14C, 1, 0x0, .ro, 0x1, 0x1, .host, .host⟩,
  ⟨0x800, 1, 0x0, .ro, 0xFFFFFFFF, 0x0, .host, .host⟩,
  ⟨0x804, 1, 0x0, .ro, 0xFFFFFFFF, 0x0, .host, .host⟩,
  ⟨0x808, 1, 0x0, .ro, 0xFFFFFFFF, 0x0, .host, .host⟩]

/-- Registers of a FABP page. -/
def rowsFabp : List RegRow := [
  ⟨0x100, 1, 0x0, .rws, 0x37, 0x0, .host, .part⟩,
  ⟨0x104, 1, 0x0, .rws, 0xFFFFFFFF, 0x0, .host, .part⟩,
  ⟨0x108, 1, 0x0, .rws, 0xFFFF, 0x0, .host, .part⟩,
  ⟨0x110, 1, 0x0, .ro, 0xF, 0x0, .host, .part⟩,
  ⟨0x800, 1, 0x0, .ro, 0xFFFFFFFF, 0x0, .host, .part⟩,
  ⟨0x804, 1, 0x0, .ro, 0xFFFFFFFF, 0x0, .host, .part⟩,
  ⟨0x808, 1, 0x0, .ro, 0xFFFFFFFF, 0x0, .host, .part⟩,
  ⟨0x80C, 1, 0x0, .ro, 0xFFFFFFFF, 0x0, .host, .part⟩,
  ⟨0x810, 1, 0x0, .ro, 0xFFFFFFFF, 0x0, .host, .part⟩,
  ⟨0x814, 1, 0x0, .ro, 0xFFFFFFFF, 0x0, .host, .part⟩]

/-- Registers of a ROLV page. -/
def rowsRolv0 : List RegRow := [
  ⟨0x100, 1, 0x0, .rws, 0xFFFFFFFF, 0x0, .host, .host⟩,
  ⟨0x104, 1, 0x0, .rws, 0xFFF07FF, 0x20, .host, .host⟩,
  ⟨0x108, 4, 0x4, .rws, 0xFFFFFFFF, 0x0, .host, .host⟩,
  ⟨0x118, 1, 0x0, .rws, 0xFFFFF, 0x70008, .host, .host⟩,
  ⟨0x11C, 1, 0x0, .rws, 0xFFFFFFFF, 0x640064, .host, .host⟩,
  ⟨0x120, 1, 0x0, .rws, 0xFFFFFF0F, 0xA0A02, .host, .host⟩,
  ⟨0x124, 1, 0x0, .ro, 0xFF3FFF, 0x0, .host, .host⟩,
  ⟨0x140, 1, 0x0, .rw, 0xFFFFF000, 0x0, .host, .host⟩,
  ⟨0x144, 1, 0x0, .rw, 0xFFFF, 0x0, .host, .host⟩,
  ⟨0x148, 1, 0x0, .rw, 0x1F, 0x0, .host, .host⟩,
  ⟨0x14C, 1, 0x0, .ro, 0xFFFFFFFF, 0x0, .host, .host⟩,
  ⟨0x150, 1, 0x0, .rw, 0xFFFFFFFF, 0x0, .host, .host⟩,
  ⟨0x180, 1, 0x0, .rw, 0x3FFF, 0x0, .host, .host⟩,
  ⟨0x184, 1, 0x0, .wo, 0x3, 0x0, .host, .host⟩,
  ⟨0x1C0, 16, 0x4, .rw, 0xFFFFFFFF, 0x0, .host, .host⟩,
  ⟨0x800, 1, 0x0, .ro, 0xFFFFFFFF, 0x0, .host, .host⟩,
  ⟨0x804, 1, 0x0, .ro, 0xFFFFFFFF, 0x0, .host, .host⟩,
  ⟨0x808, 1, 0x0, .ro, 0xFFFFFFFF, 0x0, .host, .host⟩,
  ⟨0x80C, 1, 0x0, .ro, 0xFFFFFFFF, 0x0, .host, .host⟩,
  ⟨0x810, 1, 0x0, .ro, 0xFFFFFFFF, 0x0, .host, .host⟩,
  ⟨0x1100, 1, 0x0, .rws, 0xFFFF00F7, 0x0, .host, .host⟩,
  ⟨0x1104, 1, 0x0, .ro, 0xFF03, 0x0, .host, .host⟩,
  ⟨0x1108, 1, 0x0, .ro, 0xFFFFFFFF, 0x0, .host, .host⟩,
  ⟨0x110C, 1, 0x0, .rws, 0xFFFFFFFF, 0x0, .host, .host⟩,
  ⟨0x2100, 1, 0x0, .rw, 0xFF, 0x0, .part, .part⟩,
  ⟨0x2104, 1, 0x0, .rws, 0xB3FFBFFF, 0x0, .grp, .grp⟩,
  ⟨0x2108, 1, 0x0, .rws, 0xFFFFFFF8, 0x0, .grp, .grp⟩,
  ⟨0x210C, 1, 0x0, .rws, 0xFFFF, 0x0, .grp, .grp⟩,
  ⟨0x2110, 1, 0x0, .ro, 0xFFFFFFFF, 0x0, .grp, .grp⟩,
  ⟨0x2114, 1, 0x0, .ro, 0xFFFFFFFF, 0x0, .grp, .grp⟩,
  ⟨0x2200, 4, 0x8, .ro, 0xFFFFFFFF, 0x0, .part, .own⟩,
  ⟨0x2204, 4, 0x8, .ro, 0xFFFFFFFF, 0x0, .part, .own⟩,
  ⟨0x3000, 4, 0x100, .rw, 0x3FFF, 0x0, .own, .own⟩,
  ⟨0x3004, 4, 0x100, .wo, 0xFF, 0x0, .own, .own⟩,
  ⟨0x3008, 4, 0x100, .ro, 0xFF03, 0x0, .own, .own⟩,
  ⟨0x300C, 4, 0x100, .ro, 0xFFFFFFFF, 0x80000000, .own, .own⟩,
  ⟨0x3010, 4, 0x100, .rw, 0x1, 0x0, .host, .own⟩,
  ⟨0x3014, 4, 0x100, .rw, 0xFFFFFFFF, 0x0, .host, .own⟩,
  ⟨0x3040, 16, 0x4, .rw, 0xFFFFFFFF, 0x0, .fix 0, .fix 0⟩,
  ⟨0x3140, 16, 0x4, .rw, 0xFFFFFFFF, 0x0, .fix 1, .fix 1⟩]

/-- Registers of a ROLV page. -/
def rowsRolv1 : List RegRow := [
  ⟨0x3240, 16, 0x4, .rw, 0xFFFFFFFF, 0x0, .fix 2, .fix 2⟩,
  ⟨0x3340, 16, 0x4, .rw, 0xFFFFFFFF, 0x0, .fix 3, .fix 3⟩]

/-- Registers of a ROLV page. -/
def rowsRolv : List RegRow := rowsRolv0 ++ rowsRolv1

/-- Registers of a SAFE page. -/
def rowsSafe : List RegRow := [
  ⟨0x100, 1, 0x0, .wo, 0x1, 0x0, .host, .host⟩,
  ⟨0x104, 1, 0x0, .ro, 0x3FF0F, 0x1, .host, .host⟩,
  ⟨0x108, 1, 0x0, .ro, 0x3FF, 0x0, .host, .host⟩,
  ⟨0x10C, 1, 0x0, .rw, 0x1FFF, 0x1388, .fw, .host⟩,
  ⟨0x110, 1, 0x0, .rw, 0x1F, 0x0, .host, .host⟩,
  ⟨0x114, 1, 0x0, .rw, 0xFF, 0x0, .host, .host⟩,
  ⟨0x120, 1, 0x0, .rw, 0xFFFFF000, 0x0, .host, .host⟩,
  ⟨0x124, 1, 0x0, .rw, 0xFFFF, 0x0, .host, .host⟩,
  ⟨0x128, 1, 0x0, .rw, 0x1F, 0x0, .host, .host⟩,
  ⟨0x12C, 1, 0x0, .ro, 0xFFFFFFFF, 0x0, .host, .host⟩,
  ⟨0x130, 1, 0x0, .rw, 0xFFFFFFFF, 0x0, .host, .host⟩,
  ⟨0x140, 1, 0x0, .ro, 0x3F, 0x0, .host, .host⟩,
  ⟨0x144, 1, 0x0, .wo, 0x1, 0x0, .host, .host⟩,
  ⟨0x160, 8, 0x4, .ro, 0xFFFFFFFF, 0x0, .host, .host⟩,
  ⟨0x200, 26, 0x4, .rw, 0x1FFF, 0x0, .fw, .host⟩,
  ⟨0x280, 26, 0x4, .ro, 0xFFFF0007, 0x0, .host, .host⟩,
  ⟨0x300, 1, 0x0, .rw, 0xFF, 0x0, .host, .host⟩,
  ⟨0x304, 1, 0x0, .ro, 0x8003FFFF, 0x0, .host, .host⟩,
  ⟨0x308, 1, 0x0, .ro, 0xFFFFFFFF, 0x0, .host, .host⟩,
  ⟨0x30C, 1, 0x0, .rc, 0xFFFFFFFF, 0x0, .host, .host⟩,
  ⟨0x310, 1, 0x0, .ro, 0xFFFFFFFF, 0x0, .host, .host⟩,
  ⟨0x340, 1, 0x0, .rw, 0x3F, 0x0, .host, .host⟩,
  ⟨0x344, 1, 0x0, .ro, 0x8000FFFF, 0x0, .host, .host⟩,
  ⟨0x348, 1, 0x0, .ro, 0xFFFFFFFF, 0x0, .host, .host⟩,
  ⟨0x34C, 1, 0x0, .ro, 0x3, 0x0, .host, .host⟩,
  ⟨0x800, 1, 0x0, .ro, 0xFFFFFFFF, 0x0, .host, .host⟩,
  ⟨0x804, 1, 0x0, .ro, 0xFFFFFFFF, 0x0, .host, .host⟩,
  ⟨0x808, 1, 0x0, .ro, 0xFFFFFFFF, 0x0, .host, .host⟩,
  ⟨0x80C, 1, 0x0, .ro, 0xFFFFFFFF, 0x0, .host, .host⟩,
  ⟨0x810, 1, 0x0, .ro, 0xFFFFFFFF, 0x0, .host, .host⟩,
  ⟨0x814, 1, 0x0, .ro, 0xFFFFFFFF, 0x0, .host, .host⟩,
  ⟨0x818, 1, 0x0, .ro, 0xFFFFFFFF, 0x0, .host, .host⟩,
  ⟨0x81C, 1, 0x0, .ro, 0xFFFFFFFF, 0x0, .host, .host⟩]

/-- Registers of a PWR page. -/
def rowsPwr : List RegRow := [
  ⟨0x100, 1, 0x0, .rws, 0x10F, 0xA, .host, .host⟩,
  ⟨0x104, 1, 0x0, .ro, 0xFFFFF, 0xFAAA, .host, .host⟩,
  ⟨0x140, 16, 0x4, .ro, 0xFFFFFFF, 0x0, .host, .host⟩,
  ⟨0x180, 1, 0x0, .rw, 0xFFFF, 0x26C, .host, .host⟩,
  ⟨0x184, 1, 0x0, .rw, 0x3FF, 0x1A4, .fw, .host⟩,
  ⟨0x188, 1, 0x0, .rw, 0x3FF, 0x17C, .host, .host⟩,
  ⟨0x18C, 1, 0x0, .rw, 0xFFFF, 0x41A, .fw, .host⟩,
  ⟨0x190, 1, 0x0, .rws, 0x1F1F1FFF, 0x10100828, .fw, .host⟩,
  ⟨0x194, 1, 0x0, .rw, 0xFF00FF, 0x14000A, .fw, .host⟩,
  ⟨0x1A0, 1, 0x0, .rws, 0x3, 0x3, .fw, .host⟩,
  ⟨0x1A4, 4, 0x4, .rws, 0x1FF7F, 0x0, .fw, .host⟩,
  ⟨0x1C0, 1, 0x0, .ro, 0xFFFFFFFF, 0x0, .host, .host⟩,
  ⟨0x1C4, 1, 0x0, .ro, 0xFFFFFFFF, 0x0, .host, .host⟩,
  ⟨0x1C8, 1, 0x0, .ro, 0xFFFFFFFF, 0x0, .host, .host⟩,
  ⟨0x1CC, 1, 0x0, .ro, 0xFFFFFFFF, 0x0, .host, .host⟩,
  ⟨0x1D0, 1, 0x0, .ro, 0xFFFFFFFF, 0x0, .host, .host⟩,
  ⟨0x1E0, 1, 0x0, .ro, 0x3F03FF, 0x0, .host, .host⟩,
  ⟨0x1E4, 1, 0x0, .ro, 0xFFFFFFFF, 0xFFFFFFFF, .host, .host⟩,
  ⟨0x1E8, 1, 0x0, .ro, 0xFFFF, 0xFFFF, .host, .host⟩,
  ⟨0x200, 5, 0x4, .ro, 0xFFFFFFFF, 0x0, .host, .host⟩,
  ⟨0x214, 1, 0x0, .ro, 0xFFFFFFFF, 0x0, .host, .host⟩,
  ⟨0x300, 1, 0x0, .rw, 0x3F, 0x0, .host, .host⟩,
  ⟨0x304, 1, 0x0, .ro, 0xFFFFFFFF, 0x0, .host, .host⟩,
  ⟨0x308, 1, 0x0, .ro, 0xFFFFFFFF, 0x0, .host, .host⟩,
  ⟨0x30C, 1, 0x0, .ro, 0xFFFFFFFF, 0x0, .host, .host⟩,
  ⟨0x310, 1, 0x0, .ro, 0xFFFFFFFF, 0x0, .host, .host⟩,
  ⟨0x314, 1, 0x0, .rw, 0x10F, 0x0, .host, .host⟩,
  ⟨0x318, 1, 0x0, .wo, 0x3, 0x0, .host, .host⟩,
  ⟨0x800, 1, 0x0, .ro, 0xFFFFFFFF, 0x0, .host, .host⟩,
  ⟨0x804, 1, 0x0, .ro, 0xFFFFFFFF, 0x0, .host, .host⟩,
  ⟨0x808, 1, 0x0, .ro, 0xFFFFFFFF, 0x0, .host, .host⟩,
  ⟨0x80C, 1, 0x0, .ro, 0xFFFFFFFF, 0x0, .host, .host⟩,
  ⟨0x810, 1, 0x0, .ro, 0xFFFFFFFF, 0x0, .host, .host⟩,
  ⟨0x814, 1, 0x0, .ro, 0xFFFFFFFF, 0x0, .host, .host⟩,
  ⟨0x818, 1, 0x0, .ro, 0xFFFFFFFF, 0x0, .host, .host⟩,
  ⟨0x81C, 1, 0x0, .ro, 0xFFFFFFFF, 0x0, .host, .host⟩,
  ⟨0x820, 1, 0x0, .ro, 0xFFFFFFFF, 0x0, .host, .host⟩,
  ⟨0x824, 1, 0x0, .ro, 0xFFFFFFFF, 0x0, .host, .host⟩,
  ⟨0x828, 1, 0x0, .ro, 0xFFFFFFFF, 0x0, .host, .host⟩]

/-- Registers of a DBG page. -/
def rowsDbg : List RegRow := [
  ⟨0x100, 1, 0x0, .wo, 0x3, 0x0, .host, .host⟩,
  ⟨0x104, 1, 0x0, .ro, 0x3, 0x0, .host, .host⟩,
  ⟨0x108, 1, 0x0, .ro, 0xFFFFFFFF, 0x0, .host, .host⟩,
  ⟨0x10C, 1, 0x0, .ro, 0xFFFFFFFF, 0x0, .host, .host⟩,
  ⟨0x110, 1, 0x0, .wo, 0x1, 0x0, .host, .host⟩,
  ⟨0x114, 1, 0x0, .ro, 0x31, 0x0, .host, .host⟩,
  ⟨0x118, 1, 0x0, .ro, 0xFFFFFFFF, 0x0, .host, .host⟩,
  ⟨0x11C, 1, 0x0, .ro, 0xFFFFFFFF, 0x0, .host, .host⟩,
  ⟨0x120, 1, 0x0, .rw, 0x8000337F, 0x0, .host, .host⟩,
  ⟨0x124, 1, 0x0, .rw, 0xFFFFFF, 0x0, .host, .host⟩,
  ⟨0x128, 1, 0x0, .ro, 0x1, 0x0, .host, .host⟩,
  ⟨0x130, 1, 0x0, .rw, 0xFF, 0x0, .host, .host⟩,
  ⟨0x140, 4, 0x20, .rw, 0xFFFFF000, 0x0, .host, .host⟩,
  ⟨0x144, 4, 0x20, .rw, 0xFFFF, 0x0, .host, .host⟩,
  ⟨0x148, 4, 0x20, .rw, 0x1F, 0x0, .host, .host⟩,
  ⟨0x14C, 4, 0x20, .rw, 0x77F, 0x0, .host, .host⟩,
  ⟨0x150, 4, 0x20, .rw, 0xFFFFFFFF, 0xFFFF0000, .host, .host⟩,
  ⟨0x154, 4, 0x20, .ro, 0xFFFFFFFF, 0x0, .host, .host⟩,
  ⟨0x158, 4, 0x20, .rw, 0xFFFFFFFF, 0x0, .host, .host⟩,
  ⟨0x15C, 4, 0x20, .ro, 0xFFFFFFFF, 0x0, .host, .host⟩,
  ⟨0x200, 64, 0x4, .rw, 0xF7FFFFFF, 0x0, .host, .host⟩,
  ⟨0x300, 1, 0x0, .rw, 0xFFFFFF, 0x0, .host, .host⟩,
  ⟨0x304, 1, 0x0, .ro, 0x17F, 0x0, .host, .host⟩,
  ⟨0x310, 1, 0x0, .wo, 0x1, 0x0, .host, .host⟩,
  ⟨0x320, 1, 0x0, .rw, 0xF, 0x0, .host, .host⟩,
  ⟨0x324, 1, 0x0, .rw, 0x3FFFFFF, 0x0, .host, .host⟩,
  ⟨0x328, 1, 0x0, .wo, 0x1, 0x0, .host, .host⟩,
  ⟨0x400, 64, 0x10, .ro, 0xFFFFFFFF, 0x0, .host, .host⟩,
  ⟨0x404, 64, 0x10, .ro, 0xFFFFFFFF, 0x0, .host, .host⟩,
  ⟨0x408, 64, 0x10, .ro, 0xFFFFFFFF, 0x0, .host, .host⟩,
  ⟨0x40C, 64, 0x10, .ro, 0xFFFFFFFF, 0x0, .host, .host⟩,
  ⟨0x800, 64, 0x8, .ro, 0xFFFFFFFF, 0x0, .host, .host⟩,
  ⟨0x804, 64, 0x8, .ro, 0xFFFFFFFF, 0x0, .host, .host⟩,
  ⟨0xA00, 1, 0x0, .ro, 0xFFFFFFFF, 0x0, .host, .host⟩,
  ⟨0xA04, 1, 0x0, .ro, 0xFFFFFFFF, 0x0, .host, .host⟩,
  ⟨0xA08, 1, 0x0, .ro, 0xFFFFFFFF, 0x0, .host, .host⟩,
  ⟨0xC00, 1, 0x0, .rw, 0x1FF, 0x0, .host, .host⟩,
  ⟨0xC04, 1, 0x0, .ro, 0xFFFFFFFF, 0x0, .host, .host⟩,
  ⟨0xC08, 1, 0x0, .ro, 0xFFFFFFFF, 0x0, .host, .host⟩,
  ⟨0xC40, 136, 0x4, .ro, 0xFFFFFFFF, 0x0, .host, .host⟩]

/-- Registers of a OTP page. -/
def rowsOtp : List RegRow := [
  ⟨0x100, 1, 0x0, .rw, 0xFFC, 0x0, .fw, .host⟩,
  ⟨0x104, 1, 0x0, .ro, 0xFFFFFFFF, 0x0, .host, .host⟩,
  ⟨0x108, 1, 0x0, .rw, 0xFFFFFFFF, 0x0, .fw, .host⟩,
  ⟨0x10C, 1, 0x0, .wo, 0x1, 0x0, .fw, .host⟩,
  ⟨0x110, 1, 0x0, .ro, 0x3F07, 0x0, .host, .host⟩]

/-- Registers of a BOOT page. -/
def rowsBoot : List RegRow := [
  ⟨0x100, 1, 0x0, .ro, 0xFFF73, 0x0, .host, .host⟩,
  ⟨0x104, 1, 0x0, .wo, 0x7, 0x0, .host, .host⟩,
  ⟨0x108, 1, 0x0, .rw, 0xFFFFF000, 0x0, .host, .host⟩,
  ⟨0x10C, 1, 0x0, .rw, 0xFFFFFFFF, 0x0, .host, .host⟩,
  ⟨0x110, 1, 0x0, .rw, 0xFFFFFFFF, 0x0, .host, .host⟩,
  ⟨0x114, 1, 0x0, .ro, 0xFF, 0x0, .host, .host⟩,
  ⟨0x118, 1, 0x0, .ro, 0xFFFFFFFF, 0x0, .host, .host⟩,
  ⟨0x11C, 1, 0x0, .ro, 0xFFFFFFFF, 0x0, .host, .host⟩,
  ⟨0x120, 1, 0x0, .ro, 0xFFFFFFFF, 0x0, .host, .host⟩,
  ⟨0x124, 1, 0x0, .ro, 0xFFFFFFFF, 0x0, .host, .host⟩,
  ⟨0x128, 1, 0x0, .wo, 0x1, 0x0, .fw, .host⟩,
  ⟨0x200, 64, 0x4, .ro, 0xFFFFFFFF, 0x0, .host, .host⟩,
  ⟨0x800, 1, 0x0, .ro, 0xFFFFFFFF, 0x0, .host, .host⟩,
  ⟨0x804, 1, 0x0, .ro, 0xFFFFFFFF, 0x0, .host, .host⟩,
  ⟨0x808, 1, 0x0, .ro, 0xFFFFFFFF, 0x0, .host, .host⟩,
  ⟨0x80C, 1, 0x0, .ro, 0xFFFFFFFF, 0x0, .host, .host⟩,
  ⟨0x810, 1, 0x0, .ro, 0xFFFFFFFF, 0x0, .host, .host⟩]

/-- Registers of a SEC page. -/
def rowsSec : List RegRow := [
  ⟨0x100, 8, 0x4, .rw, 0xFFFFFFFF, 0x0, .host, .host⟩,
  ⟨0x120, 1, 0x0, .wo, 0x1, 0x0, .host, .host⟩,
  ⟨0x124, 1, 0x0, .ro, 0x7, 0x0, .host, .host⟩,
  ⟨0x140, 8, 0x4, .ro, 0xFFFFFFFF, 0x0, .host, .host⟩,
  ⟨0x180, 16, 0x4, .ro, 0xFFFFFFFF, 0x0, .host, .host⟩,
  ⟨0x200, 64, 0x4, .ro, 0xFFFFFFFF, 0x0, .host, .host⟩]

/-- The register table of a block type. -/
def blkRows : Blk → List RegRow
  | .sys => rowsSys
  | .cmdw => rowsCmdw
  | .camp => rowsCamp
  | .cams => rowsCams
  | .rpl => rowsRpl
  | .sctl => rowsSctl
  | .isp => rowsIsp
  | .pyr => rowsPyr
  | .warp => rowsWarp
  | .str => rowsStr
  | .flw => rowsFlw
  | .ftr => rowsFtr
  | .fms => rowsFms
  | .vtm => rowsVtm
  | .nc => rowsNc
  | .ncm => rowsNcm
  | .ncv => rowsNcv
  | .ncd => rowsNcd
  | .spc => rowsSpc
  | .ncse => rowsNcse
  | .vse => rowsVse
  | .dma => rowsDma
  | .ladle => rowsLadle
  | .fgs => rowsFgs
  | .hbm => rowsHbm
  | .noc => rowsNoc
  | .fabp => rowsFabp
  | .rolv => rowsRolv
  | .safe => rowsSafe
  | .pwr => rowsPwr
  | .dbg => rowsDbg
  | .otp => rowsOtp
  | .boot => rowsBoot
  | .sec => rowsSec

end Sys2Proof.Machine
end

