-- ==== Sys2Proof/Machine/Blocks.lean ====
section
/-! DEFINITION. Blocks, instances, pages and ownership: the tables of R24, R26, R66, R69 and R70. -/

namespace Sys2Proof.Machine

/-- Block type code of R69. -/
def blkCode : Blk → Nat
  | .sys => 0x0001 | .cmdw => 0x0002 | .camp => 0x0010 | .cams => 0x0011 | .rpl => 0x0012 | .sctl => 0x0013
  | .isp => 0x0020 | .pyr => 0x0030 | .warp => 0x0031 | .str => 0x0032 | .flw => 0x0033 | .ftr => 0x0034
  | .fms => 0x0035 | .vtm => 0x0036 | .nc => 0x0040 | .ncm => 0x0041 | .ncv => 0x0042 | .ncd => 0x0043
  | .spc => 0x0044 | .ncse => 0x0050 | .vse => 0x0051 | .dma => 0x0052 | .ladle => 0x0053 | .fgs => 0x0060
  | .hbm => 0x0070 | .noc => 0x0071 | .fabp => 0x0080 | .rolv => 0x0081 | .safe => 0x0090 | .pwr => 0x00A0
  | .dbg => 0x00B0 | .otp => 0x00C0 | .boot => 0x00C1 | .sec => 0x00C2

/-- All block types, in the order of R69. -/
def allBlks : List Blk := [.sys, .cmdw, .camp, .cams, .rpl, .sctl, .isp, .pyr, .warp, .str, .flw, .ftr, .fms, .vtm,
  .nc, .ncm, .ncv, .ncd, .spc, .ncse, .vse, .dma, .ladle, .fgs, .hbm, .noc, .fabp, .rolv, .safe, .pwr, .dbg,
  .otp, .boot, .sec]

/-- BAR0 base of instance 0, spacing, window length and number of instances on a THX-4896 (R24, R70). -/
def blkPlace : Blk → Nat × Nat × Nat × Nat
  | .sys => (0x000_0000, 0x1_0000, 0x1_0000, 1) | .cmdw => (0x001_0000, 0x1000, 0x1000, 4)
  | .camp => (0x010_0000, 0x1000, 0x1000, 12) | .cams => (0x011_0000, 0x1000, 0x1000, 48)
  | .rpl => (0x014_0000, 0x1000, 0x1000, 8) | .sctl => (0x015_0000, 0x1000, 0x1000, 12)
  | .isp => (0x020_0000, 0x1_0000, 0x1000, 4) | .pyr => (0x030_0000, 0x1000, 0x1000, 2)
  | .warp => (0x032_0000, 0x1000, 0x1000, 4) | .str => (0x034_0000, 0x1000, 0x1000, 4)
  | .flw => (0x036_0000, 0x1000, 0x1000, 2) | .ftr => (0x037_0000, 0x1000, 0x1000, 2)
  | .fms => (0x038_0000, 0x1000, 0x1000, 1) | .vtm => (0x039_0000, 0x1000, 0x1000, 1)
  | .nc => (0x040_0000, 0x2_0000, 0x1000, 8) | .ncm => (0x040_4000, 0x2_0000, 0x1000, 8)
  | .ncv => (0x040_8000, 0x2_0000, 0x1000, 8) | .ncd => (0x040_C000, 0x2_0000, 0x1000, 8)
  | .spc => (0x041_0000, 0x2_0000, 0x1000, 8) | .ncse => (0x050_0000, 0x1000, 0x1000, 8)
  | .vse => (0x051_0000, 0x1000, 0x1000, 4) | .dma => (0x052_0000, 0x1000, 0x1000, 1)
  | .ladle => (0x053_0000, 0x1000, 0x1000, 16) | .fgs => (0x060_0000, 0x1000, 0x1000, 1)
  | .hbm => (0x070_0000, 0x1000, 0x1000, 4) | .noc => (0x074_0000, 0x1000, 0x1000, 1)
  | .fabp => (0x080_0000, 0x1000, 0x1000, 4) | .rolv => (0x084_0000, 0x1_0000, 0x1_0000, 1)
  | .safe => (0x090_0000, 0x1000, 0x1000, 1) | .pwr => (0x0A0_0000, 0x1000, 0x1000, 1)
  | .dbg => (0x0B0_0000, 0x1000, 0x1000, 1) | .otp => (0x0C0_0000, 0x1000, 0x1000, 1)
  | .boot => (0x0C0_1000, 0x1000, 0x1000, 1) | .sec => (0x0C0_2000, 0x1000, 0x1000, 1)

/-- BAR0 offset of the first page of instance n. -/
def pg (b : Blk) (n : Nat) : Nat := (blkPlace b).1 + (blkPlace b).2.1 * n

/-- Number of instances of a type on a THX-4896 (R24). -/
def blkCount (b : Blk) : Nat := (blkPlace b).2.2.2

/-- A page location: block type, instance, offset in the instance's window. -/
structure Loc where
  blk : Blk
  inst : Nat
  off : Nat
  deriving DecidableEq, Repr

/-- The location an address falls in for one block type. -/
def locIn (a : Nat) (b : Blk) : Option Loc :=
  let (base, str, len, cnt) := blkPlace b
  if base ≤ a ∧ (a - base) / str < cnt ∧ (a - base) % str < len then
    some ⟨b, (a - base) / str, (a - base) % str⟩
  else none

/-- The BAR0 directory of R70: which page an offset falls in. -/
def locate (a : Nat) : Option Loc := allBlks.findSome? (locIn a)

/-- Ownership classes of R26. -/
inductive OwnClass
  | assignable | shared | firmware | window
  deriving DecidableEq, Repr

/-- The ownership class of a block type (R26); the command windows have rules of their own (R75). -/
def blkClass : Blk → OwnClass
  | .cams | .rpl | .sctl | .isp | .pyr | .warp | .str | .flw | .ftr => .assignable
  | .nc | .ncm | .ncv | .ncd | .spc | .ncse | .vse | .ladle => .assignable
  | .camp | .fms | .vtm | .dma | .fgs | .hbm | .noc | .fabp | .rolv | .dbg => .shared
  | .sys | .safe | .pwr | .otp | .boot | .sec => .firmware
  | .cmdw => .window

/-- Where BLK_CTL, BLK_COMMIT and BLK_PART of a page live: the instance's first page (R66).
NCSEn belongs with NCn (R26) but has its own page and its own registers. -/
def headBlk : Blk → Blk
  | .ncm | .ncv | .ncd | .spc => .nc
  | b => b

/-- Is o the offset of one of the registers of a row, and which. -/
def rowHit (o : Nat) (r : RegRow) : Option Nat :=
  if o < r.off then none
  else if r.cnt = 1 then (if o = r.off then some 0 else none)
  else if (o - r.off) % r.str = 0 ∧ (o - r.off) / r.str < r.cnt then some ((o - r.off) / r.str) else none

/-- The table line of an offset in a page, with the register's number in its array. -/
def rowIn : List RegRow → Nat → Option (RegRow × Nat)
  | [], _ => none
  | r :: rs, o => match rowHit o r with
    | some k => some (r, k)
    | none => rowIn rs o

/-- The table line of a location. -/
def rowAt (l : Loc) : Option (RegRow × Nat) := rowIn (blkRows l.blk) l.off

/-- Is an offset that of the vector-control word of an MSI-X table entry (R70). -/
def isVecCtl (o : Nat) : Bool := decide (0x00E_0000 ≤ o) && decide (o < 0x00E_0400) && o % 16 == 12

/-- Reset value of the register at a BAR0 offset, as the register tables give it; the header resets to 0 (R66), and every MSI-X vector is
masked (log entry 8). -/
def regRst (a : Nat) : BitVec 32 :=
  match locate (a % 0x400_0000) with
  | none => if isVecCtl (a % 0x400_0000) then 1 else 0
  | some l => match rowAt l with
    | some (r, _) => BitVec.ofNat 32 r.rst
    | none => if l.off = 0x024 ∧ blkClass l.blk = .assignable then 1 else 0

/-- Offsets of the RW or RWS registers of a page table that SOFT_RESET resets (R74). -/
def rwOffsets (rs : List RegRow) : List Nat :=
  rs.flatMap (fun r => if r.acc = .rw ∨ r.acc = .rws then (List.range r.cnt).map (fun k => r.off + k * r.str) else [])

/-- Offsets of the RWS registers of a page table. -/
def rwsOffsets (rs : List RegRow) : List Nat :=
  rs.flatMap (fun r => if r.acc = .rws then (List.range r.cnt).map (fun k => r.off + k * r.str) else [])

/-- The pages one commit, soft reset or owner change covers (R66). -/
def pageGroup : Blk → List Blk
  | .nc => [.nc, .ncm, .ncv, .ncd, .spc]
  | b => [b]

/-- The block type of a code (R69). -/
def blkOfCode (c : Nat) : Option Blk := allBlks.find? (fun b => blkCode b == c)

/-- Defined bits of BLK_IRQ_STAT and BLK_IRQ_EN: the common causes of R67 and those of the block's chapter (R14). -/
def irqBits (b : Blk) : Nat :=
  7 + 256 * (match b with
    | .sys | .camp | .pyr | .warp | .str | .flw | .ftr | .nc | .vtm | .ladle | .fabp => 1
    | .sctl | .rpl | .isp | .fms | .spc | .ncse | .vse | .dma | .hbm | .boot => 3
    | .cams => 7
    | .pwr | .dbg => 15
    | .fgs | .rolv | .safe => 31
    | .cmdw | .ncm | .ncv | .ncd | .noc | .otp | .sec => 0)

/-- Block types that run tasks of the sequencer: the UNIT_TYPE values of R94. -/
def unitTypes : List Blk := [.isp, .pyr, .warp, .str, .flw, .ftr, .nc, .dma, .rolv]

/-- Key of an instance in the per-unit tables. -/
def ukey (b : Blk) (n : Nat) : Nat := blkCode b * 256 + n

end Sys2Proof.Machine
end

