-- ==== Sys2Proof/Machine/Sparse.lean ====
section
/-! DEFINITION. Sparse tables in one canonical form: keys strictly rising, no entry equal to what an unlisted key reads as. -/

namespace Sys2Proof.Machine

/-- A table keyed by numbers; an unlisted key reads as the table's default. -/
abbrev Tbl (α : Type) := List (Nat × α)

/-- The entry at key k, or the default there. -/
def tget {α : Type} (d : Nat → α) : Tbl α → Nat → α
  | [], k => d k
  | (a, v) :: r, k => if k = a then v else if k < a then d k else tget d r k

/-- The table with key k holding v; a value equal to the default leaves no entry. -/
def tset {α : Type} [DecidableEq α] (d : Nat → α) : Tbl α → Nat → α → Tbl α
  | [], k, v => if v = d k then [] else [(k, v)]
  | (a, w) :: r, k, v =>
    if k < a then (if v = d k then (a, w) :: r else (k, v) :: (a, w) :: r)
    else if k = a then (if v = d k then r else (k, v) :: r)
    else (a, w) :: tset d r k v

/-- A table built from any list of entries, in canonical form; the first of two entries of one key stands. -/
def tblOf {α : Type} [DecidableEq α] (d : Nat → α) : List (Nat × α) → Tbl α
  | [] => []
  | (a, v) :: r => tset d (tblOf d r) a v

/-- Every key is at or above a bound, keys rise strictly and no entry equals its default. -/
def twfFrom {α : Type} [DecidableEq α] (d : Nat → α) : Nat → Tbl α → Bool
  | _, [] => true
  | lo, (a, v) :: r => decide (lo ≤ a) && decide (v ≠ d a) && twfFrom d (a + 1) r

/-- The canonical form of a table. -/
def twf {α : Type} [DecidableEq α] (d : Nat → α) (m : Tbl α) : Bool := twfFrom d 0 m

/-- A sorted set of numbers: membership. -/
def smem (l : List Nat) (k : Nat) : Bool := l.contains k

/-- A sorted set of numbers: insertion. -/
def sins : List Nat → Nat → List Nat
  | [], k => [k]
  | a :: r, k => if k < a then k :: a :: r else if k = a then a :: r else a :: sins r k

/-- A sorted set of numbers: removal. -/
def sdel (l : List Nat) (k : Nat) : List Nat := l.filter (fun a => a != k)

/-- Byte memory: addresses strictly rising, no entry equal to 0, which an unlisted address reads as. -/
abbrev Mem := Tbl (BitVec 8)

/-- What an unlisted address reads as (log entry 4). -/
def memDflt : Nat → BitVec 8 := fun _ => 0

/-- The byte at an address. -/
def memGet (m : Mem) (a : Nat) : BitVec 8 := tget memDflt m a

/-- Store one byte. -/
def memSet (m : Mem) (a : Nat) (b : BitVec 8) : Mem := tset memDflt m a b

/-- n bytes from an address. -/
def memRead (m : Mem) (a n : Nat) : List (BitVec 8) := (List.range n).map (fun i => memGet m (a + i))

/-- Store bytes from an address upward. -/
def memWrite (m : Mem) (a : Nat) : List (BitVec 8) → Mem
  | [] => m
  | b :: r => memWrite (memSet m a b) (a + 1) r

/-- The canonical form of a byte memory. -/
def memWf (m : Mem) : Bool := twf memDflt m

/-- The canonical form of a byte memory, as statements name it. -/
abbrev Memory.wf (m : Mem) : Bool := memWf m

/-- A memory built from any list of cells, in canonical form. -/
def memOf (l : List (Nat × BitVec 8)) : Mem := tblOf memDflt l

/-- The memory without the bytes at addresses in [lo, hi), which then read as unlisted. -/
def memClear (m : Mem) (lo hi : Nat) : Mem := m.filter (fun c => decide (c.1 < lo) || decide (hi ≤ c.1))

end Sys2Proof.Machine
end

