-- ==== Sys2Proof/Machine/OtpImage.lean ====
section
/-! DEFINITION. Cells of the OTP of a tested THX-4896 as it leaves the factory, of which the spec gives the layout (R548, R620 to R625) and not
the contents: log entry 18. -/

namespace Sys2Proof.Machine

/-- Cells, part 0. -/
def factoryOtp0 : Mem := [
  (0x000, 0x01), (0x008, 0x96), (0x009, 0x48), (0x018, 0xFF), (0x019, 0x07), (0x01A, 0xFF), (0x01B, 0x02), (0x020, 0x58), (0x021, 0x02), (0x022, 0xBC), (0x023, 0x02), (0x024, 0x20),
  (0x025, 0x03), (0x026, 0xBC), (0x027, 0x02), (0x028, 0xE8), (0x029, 0x03), (0x02A, 0xBC), (0x02B, 0x02), (0x02C, 0xB0), (0x02D, 0x04), (0x02E, 0xC6), (0x02F, 0x02), (0x030, 0x14),
  (0x031, 0x05), (0x032, 0xD0), (0x033, 0x02), (0x034, 0x78), (0x035, 0x05), (0x036, 0xDA), (0x037, 0x02), (0x038, 0xDC), (0x039, 0x05), (0x03A, 0xE4), (0x03B, 0x02), (0x03C, 0x40),
  (0x03D, 0x06), (0x03E, 0xEE), (0x03F, 0x02), (0x040, 0xA4), (0x041, 0x06), (0x042, 0xF8), (0x043, 0x02), (0x044, 0xD6), (0x045, 0x06), (0x046, 0xFD), (0x047, 0x02), (0x048, 0x08),
  (0x049, 0x07), (0x04A, 0x02), (0x04B, 0x03), (0x04C, 0x3A), (0x04D, 0x07), (0x04E, 0x0C), (0x04F, 0x03), (0x050, 0x6C), (0x051, 0x07), (0x052, 0x16), (0x053, 0x03), (0x054, 0x9E),
  (0x055, 0x07), (0x056, 0x25), (0x057, 0x03), (0x058, 0xD0), (0x059, 0x07), (0x05A, 0x34), (0x05B, 0x03), (0x05C, 0x34), (0x05D, 0x08), (0x05E, 0x52), (0x05F, 0x03), (0x07C, 0x9B)]

/-- Cells, part 1. -/
def factoryOtp1 : Mem := [
  (0x07D, 0xD9), (0x07E, 0x45), (0x07F, 0xAB), (0x0FC, 0x01), (0x100, 0x47), (0x101, 0x45), (0x102, 0x4E), (0x103, 0x31), (0x104, 0x01), (0x110, 0x0E), (0x111, 0x02), (0x112, 0xA5),
  (0x113, 0x02), (0x114, 0x25), (0x115, 0xB4), (0x116, 0xBA), (0x117, 0xAA), (0x118, 0x18), (0x119, 0xA0), (0x11A, 0x47), (0x11B, 0x0E), (0x11C, 0xD9), (0x11D, 0xBF), (0x11E, 0xC7),
  (0x11F, 0xDC), (0x120, 0x03), (0x121, 0x2F), (0x122, 0x17), (0x123, 0x24), (0x124, 0xE8), (0x125, 0x19), (0x126, 0xE4), (0x127, 0x7A), (0x128, 0x23), (0x129, 0xC4), (0x12A, 0xF2),
  (0x12B, 0xC3), (0x12C, 0x2F), (0x12D, 0x75), (0x12E, 0x06), (0x12F, 0x09), (0x130, 0x47), (0x131, 0x09), (0x132, 0x68), (0x133, 0x82), (0x134, 0x93), (0x135, 0xC4), (0x136, 0x79),
  (0x137, 0xC0), (0x138, 0x53), (0x139, 0x4D), (0x13A, 0xEF), (0x13B, 0xD3), (0x13C, 0xA9), (0x13D, 0x8B), (0x13E, 0x43), (0x13F, 0x02), (0x140, 0x18), (0x141, 0x78), (0x142, 0x06),
  (0x143, 0x51), (0x144, 0x1B), (0x145, 0x83), (0x146, 0xF1), (0x147, 0x2A), (0x148, 0xB5), (0x149, 0x75), (0x14A, 0xD4), (0x14B, 0x14), (0x14C, 0x47), (0x14D, 0x70), (0x14E, 0xA9)]

/-- Cells, part 2. -/
def factoryOtp2 : Mem := [
  (0x14F, 0xC3), (0x1D4, 0xFA), (0x1D5, 0x82), (0x1D6, 0x42), (0x1D8, 0x86), (0x1D9, 0x1A), (0x1DA, 0x01), (0x1DC, 0x01), (0x1DE, 0x01), (0x1E0, 0x01), (0x1E2, 0x01), (0x1E4, 0x01),
  (0x1E6, 0x01), (0x1E8, 0x01), (0x1EA, 0x01), (0x1EC, 0x01), (0x1EE, 0x01), (0x1F0, 0x01), (0x1F2, 0x01), (0x1F4, 0x01), (0x1F6, 0x01), (0x1F8, 0x01), (0x1FA, 0x01), (0x4BC, 0xA8),
  (0x4BD, 0x5B), (0x4BE, 0x7B), (0x4BF, 0xE1)]

/-- The cells of the OTP at power-on. -/
def factoryOtp : Mem := factoryOtp0 ++ factoryOtp1 ++ factoryOtp2

end Sys2Proof.Machine
end

