-- ==== Sys2Proof/Machine/UnitsCam.lean ====
section
/-! DEFINITION. State of camera ingress and sensor control (chapter 05). -/

namespace Sys2Proof.Machine
open Sys2Proof

/-- The frame open on a stream context (R142 to R150): sequence, stamps, frame number, lines received and discarded, header flags,
lines marked, the byte of the line-status map being filled, bytes of embedded data, the instant of its FSYNC pulse, whether it was
dropped, and whether it is a frame of no sequence. -/
structure OpenFrame where
  seq : Word
  fs : DWord
  last : DWord
  num : Nat
  lines : Nat := 0
  excess : Nat := 0
  flags : Nat := 0
  bad : Nat := 0
  lsm : Nat := 0
  emb : Nat := 0
  pulse : DWord := 0
  drop : Bool := false
  extra : Bool := false
  deriving DecidableEq, Repr

/-- A settings bundle in effect, late or waiting to take effect for a stream (R162). -/
structure Effect where
  frame : Word
  id : Nat
  deriving DecidableEq, Repr

/-- A late bundle of a stream (R162, R163): its target, the frame from which it marks none, its settings ID, and whether the sensor refused it. -/
structure Late where
  target : Word
  until_ : Option Word
  id : Nat
  nack : Bool
  deriving DecidableEq, Repr

/-- A stream context beside its registers (R143 to R163): the last sequence assigned, the open frame, whether packets are discarded
until a frame start (R150), the halt of R154, bundles in effect in order of completion, late bundles with the frame at which each stops
marking frames, the last sequence logged as dropped, and the last frame delivered. -/
structure Cams where
  prev : Option Word := none
  frame : Option OpenFrame := none
  swallow : Bool := false
  halted : Bool := false
  effects : List Effect := []
  late : List Late := []
  logged : Option Word := none
  ended : Option Word := none
  deriving DecidableEq, Repr

/-- A settings bundle held by an SCTL (R157 to R161). -/
structure Bundle where
  target : Word
  id : Nat
  ctx : Nat
  discard : Bool
  entries : List (List Byte)
  late : Bool := false
  effect : Word := 0
  deriving DecidableEq, Repr

/-- An open settings window of a profile: its target and the instant it closes (R159). -/
structure Window where
  target : Word
  close : DWord
  deriving DecidableEq, Repr

/-- A sensor-control unit beside its registers (R156 to R163): queued bundles in push order, the one on the bus, the open windows of each
profile, the target of the window each opened last, and what was sent on the bus: of a register write address byte, register, data. -/
structure Sctl where
  queue : List Bundle := []
  bus : Option Bundle := none
  wins : Tbl (List Window) := []
  opened : Tbl (Option Word) := []
  sent : List (List Byte) := []
  deriving DecidableEq, Repr

/-- A frame-sync output (R144, R145, R165): whether its schedule runs, START, PERIOD and WIDTH as taken at arming, and the number of pulses
begun since, with the level of the pin. -/
structure Fsync where
  armed : Bool := false
  start : DWord := 0
  period : Nat := 0
  width : Nat := 0
  count : Nat := 0
  lastAt : DWord := 0
  valid : Bool := false
  deriving DecidableEq, Repr

/-- A replay channel beside its registers (R167 to R170): the last item's sequence of each list, the list served last, and its halt. -/
structure Rpl where
  prev : Tbl (Option Word) := []
  turn : Nat := 0
  halted : Bool := false
  deriving DecidableEq, Repr

end Sys2Proof.Machine
end

