-- ==== Sys2Proof/Machine/UnitsFgs.lean ====
section
/-! DEFINITION. State of the command windows, the logs and the frame-graph sequencer (chapters 02, 03 and 04). -/

namespace Sys2Proof.Machine
open Sys2Proof

/-- One of the 256 command slots of a partition (R78): generation last given, and the accepted command it holds. -/
structure CmdSlot where
  gen : Nat := 0
  busy : Bool := false
  op : Nat := 0
  ref : Nat := 0
  deriving DecidableEq, Repr

/-- A completion record before it is written (R81). -/
structure Cpl where
  handle : Nat
  status : Nat
  src : Nat
  flow : Nat
  flags : Nat
  seq : Word
  time : DWord
  age : Nat
  deriving DecidableEq, Repr

/-- What a command window holds beside its registers (R76, R83, R86, R651): the submission not yet decided, the
slots, the records waiting in the device, ring and write-back faults, and the records not yet signalled. -/
structure Cmdw where
  latched : Option (Nat × List Word) := none
  slots : Tbl CmdSlot := []
  held : List Cpl := []
  fault : Bool := false
  wbFault : Bool := false
  unsig : Nat := 0
  unsigAt : DWord := 0
  deriving DecidableEq, Repr

/-- An entry of a frame-drop log before it is written (R44). -/
structure DEnt where
  time : DWord
  kind : Nat
  subj : Nat
  seq : Nat
  arg0 : Nat
  arg1 : Nat
  deriving DecidableEq, Repr

/-- What a frame-drop log holds beside its registers: entries lost and not yet reported, the ring fault, and the entries
written at the latest instant, whose order R46 fixes (R46, R47, R651). -/
structure Dlog where
  lost : Nat := 0
  fault : Bool := false
  same : List DEnt := []
  deriving DecidableEq, Repr

/-- An MSI-X message sent: function and vector (R86, R87). -/
structure Msi where
  fn : Nat
  vec : Nat
  deriving DecidableEq, Repr

/-- A node record of a graph image (R94). -/
structure GNode where
  utype : Nat
  bind : Nat
  bindIdx : Nat
  layer : Nat
  opId : Nat
  phase : Nat
  flow : Nat
  firstTask : Nat
  nTask : Nat
  firstEdge : Nat
  nEdge : Nat
  dual : Bool
  latest : Bool
  deriving DecidableEq, Repr

/-- An edge record (R95). -/
structure GEdge where
  prod : Nat
  kind : Nat
  ladle : Nat
  deriving DecidableEq, Repr

/-- A flow record (R96). -/
structure GFlow where
  id : Nat
  maxOut : Nat
  dual : Bool
  bound : Nat
  deriving DecidableEq, Repr

/-- A trigger record (R97): for CAMERA the stream indices, for TIMER the period and phase, for the others the number or tag. -/
structure GTrig where
  flow : Nat
  kind : Nat
  streams : List Nat
  period : Nat
  phase : Nat
  num : Nat
  deriving DecidableEq, Repr

/-- A task entry (R98). -/
structure GTask where
  cmdAddr : Nat
  cmdLen : Nat
  rotate : Nat
  stride : Nat
  tile : Nat
  deriving DecidableEq, Repr

/-- A graph image as resident in the sequencer tables (R93 to R98). -/
structure Image where
  flags : Nat
  seed : Nat
  nodes : List GNode
  edges : List GEdge
  flows : List GFlow
  trigs : List GTrig
  tasks : List GTask
  deriving DecidableEq, Repr

/-- A reserved sequence that has formed no hamper yet (R101, R105): per stream of a CAMERA trigger the last-pixel stamp and
header flags once its frame end has come. -/
structure Resv where
  seq : Word
  stamp : DWord
  handle : Nat := 0
  table : Nat := 0
  ends : List (Nat × DWord × Nat) := []
  deriving DecidableEq, Repr

/-- A flow of a started graph: reserved sequences in order of reservation, camera sequences decided and not yet started on every stream, highest reserved and formed, the last one settled with
the nodes that faulted in it, and whether the safety island stopped it (R101 to R131). -/
structure FlowSt where
  resv : List Resv := []
  decided : List (Word × Bool) := []
  ticks : Nat := 0
  highResv : Option Word := none
  highForm : Option Word := none
  lastRel : Option (Word × List Nat) := none
  stopped : Bool := false
  ageSlot : Option Nat := none
  dualSlot : Option Nat := none
  deriving DecidableEq, Repr

/-- A graph index (R80, R88, R130): free, loading, loaded, started, stopping with or without DRAIN, or stopping after a function-level reset. -/
inductive GStat
  | free | loading | loaded | started | drain | cancel | flushed
  deriving DecidableEq, Repr

/-- A graph slot of the sequencer with its bindings and its run (R100, R130): for each task entry the instance that last ran it (R113), for
each node one more than the sequence it completed last (R122), 0 for none. -/
structure Graph where
  stat : GStat := .free
  part : Nat := 0
  img : Image := ⟨0, 0, [], [], [], [], []⟩
  loadHandle : Nat := 0
  handle : Nat := 0
  stopHandle : Nat := 0
  seed : Nat := 0
  startAt : DWord := 0
  binds : List (Nat × Nat × Nat) := []
  flows : List FlowSt := []
  runs : Nat := 0
  lastInst : Tbl Nat := []
  nodeDone : Tbl Nat := []
  lastSeq : Option Word := none
  deriving DecidableEq, Repr

/-- Where a task of a live hamper is (R110 to R117). -/
inductive TaskAt
  | waiting
  | prefetched (unit : Nat)
  | running (unit : Nat)
  | parked (unit : Nat)
  | ended (status : Nat)
  | removed
  deriving DecidableEq, Repr

/-- A task of a live hamper: node, task entry, copy (1 for the checker copy of R115), where it is, and the key of the unit it was
placed on plus one. -/
structure Task where
  node : Nat
  idx : Nat
  copy : Nat
  at_ : TaskAt
  unit : Nat := 0
  deriving DecidableEq, Repr

/-- A formed hamper not yet released or reported (R105). `cross` holds g of each cross-flow edge by its index, and whether a producer hamper
up to g ended with a fault (R123). -/
structure Hamper where
  graph : Nat
  flow : Nat
  seq : Word
  stamp : DWord
  flags : Nat
  handle : Nat
  table : Nat
  cancelled : Bool
  stopped : Bool
  inputFault : Bool
  tasks : List Task
  cross : List (Nat × Option Word × Bool)
  deriving DecidableEq, Repr

/-- A reference to a task of a live hamper. -/
structure TRef where
  graph : Nat
  flow : Nat
  seq : Word
  node : Nat
  idx : Nat
  copy : Nat
  deriving DecidableEq, Repr

/-- A completion entry waiting for the collector (R124). -/
structure Fin where
  ref : TRef
  status : Nat
  deriving DecidableEq, Repr

/-- A task-running unit (R110, R118, R122, R188, R208, R260, R522, R530): the slots, the status found by the running task once its work is
done, the sequence whose buffers it reads, whether the hamper before that one ran since START_GRAPH, the stream of the slot header it
read, parked tasks oldest first with eligibility, and the taster windows. -/
structure UnitSt where
  run : Option TRef := none
  done : Option Nat := none
  pre : Option TRef := none
  parks : List (TRef × Nat × Bool) := []
  src : Option Word := none
  prev : Bool := false
  hdr : Option Nat := none
  tasterDue : Option DWord := none
  tasterOn : Option DWord := none
  tasterIvl : Nat := 0
  quarantined : Bool := false
  deriving DecidableEq, Repr

/-- A ladle beside its counters (R120, R451 to R454): handles oldest first, the graph it is bound to, sequences marked aborted. -/
structure Ladle where
  q : List Nat := []
  bound : Option Nat := none
  aborted : List Nat := []
  deriving DecidableEq, Repr

/-- An age-monitor slot (R527, R528). -/
structure AgeSlot where
  valid : Bool := false
  graph : Nat := 0
  flow : Nat := 0
  flowId : Nat := 0
  part : Nat := 0
  bound : Nat := 0
  worst : Nat := 0
  stale : Nat := 0
  overdueSeq : Option Word := none
  handle : Nat := 0
  deriving DecidableEq, Repr

end Sys2Proof.Machine
end

