-- ==== Sys2Proof/Machine/UnitsMov.lean ====
section
/-! DEFINITION. State of the stream engines, the DMA channels and the Rolven transport (chapters 14, 15 and 17). -/

namespace Sys2Proof.Machine
open Sys2Proof

/-- One dimension of a descriptor (R404). -/
structure Dim where
  stride : Int
  count : Nat
  lo : Nat
  hi : Nat
  deriving DecidableEq, Repr

/-- An armed descriptor (R404). -/
structure Desc where
  base : Nat
  fmt : Nat
  space : Nat
  wrap : Bool
  padWrite : Bool
  swz : Nat
  fill : Nat
  dims : List Dim
  deriving DecidableEq, Repr

/-- A stream command, DMA task or DMA_COPY in a slot (R426, R432, R444): the partition and offsets it moves under, the list, the task that
armed it, its operator and flow, the command handle of a DMA_COPY with its range, and the ticket it completes; for a stream command
also the core, the stream NC.SE named, whether the task is one of SAFETY_DUAL, and its other identifiers; and the instant it was armed. -/
structure MovCmd where
  part : Nat
  conv : Bool := false
  listSp : Bool := false
  rotR : Bool := false
  rotW : Bool := false
  mode : Nat := 0
  planes : Nat := 0
  pairs : Nat := 1
  list : Nat := 0
  bufR : Nat := 0
  bufW : Nat := 0
  task : Option TRef := none
  opId : Nat := 0
  flow : Nat := 0xFFFF
  handle : Nat := 0
  copy : Option (Nat × Nat × Nat) := none
  ticket : Nat := 0
  core : Nat := 0
  dual : Bool := false
  stream : Nat := 0
  layer : Nat := 0
  phase : Nat := 0
  spBase : Nat := 0
  spRows : Nat := 0
  armedAt : Nat := 0
  deriving DecidableEq, Repr

/-- A stream or channel (R432 to R447): its slots, the armed pairs of the active command and the list entries fetched for it, the pair that
failed its checks with its cause and offset, the next element to move, the failure it has met and not yet acted on (cause, write side,
element), the halt, retries of the current transfer, a channel's slot of the buffer and the output of a reshuffle held in it, the
bytes read and written, the remote work outstanding (packets by peer and PSN, reads asked for by address and units, the 64-byte
units that have come), and a prefetched task whose command was cancelled with the status it ends with. -/
structure Mov where
  active : Option MovCmd := none
  shadow : Option MovCmd := none
  descs : List (Desc × Desc) := []
  bad : Option (Nat × Nat × Nat) := none
  pair : Nat := 0
  elem : Nat := 0
  halted : Bool := false
  final : Bool := false
  cause : Nat := 0
  haltAt : DWord := 0
  fltAddr : Nat := 0
  fltInfo : Nat := 0
  retries : Nat := 0
  err : Option (Nat × Bool × Nat) := none
  slot : Bool := false
  buf : Option (List Nat) := none
  got : Nat := 0
  cut : Option (TRef × Nat) := none
  reqWait : Bool := false
  readBytes : Nat := 0
  wroteBytes : Nat := 0
  remW : List (Nat × Nat) := []
  asks : List (Nat × Nat) := []
  remR : Tbl (List Byte) := []
  deriving DecidableEq, Repr

/-- Elements [lo, hi) of a write descriptor that a mover has written, for a partition and, on a core's own engine, that core. -/
structure Seg where
  part : Nat
  core : Option Nat
  d : Desc
  lo : Nat
  hi : Nat
  deriving DecidableEq, Repr

/-- A transfer (R415): the mover it runs on, whether it still does, the transfers that ran at some time together with it and so are not ordered
with it, and what it has written. -/
structure Flight where
  id : Nat
  key : Nat
  live : Bool
  rivals : List Nat
  segs : List Seg
  deriving DecidableEq, Repr

/-- A packet sent and not yet acknowledged, or waiting to be sent (R484, R485): PSN, type, partitions, bytes 32 to 39, payload, the
instant last sent, times sent, and whether SACK reported it; `mov` is the mover it belongs to plus one and `addr` its address. -/
structure Pkt where
  psn : Nat
  ty : Nat
  parts : Nat
  spec : Nat
  pay : List Byte
  sent : DWord := 0
  tries : Nat := 0
  sacked : Bool := false
  mov : Nat := 0
  addr : Nat := 0
  deriving DecidableEq, Repr

/-- A connection (R484 to R488): for the sender the next PSN, packets in flight, packets beyond the window; for the receiver the next PSN
to apply and packets held out of order; instants of the last packet each way, the rate in Mb/s, ECN marks seen and owed, credits by tag. -/
structure Conn where
  state : Nat := 0
  throttled : Bool := false
  next : Nat := 0
  flight : List Pkt := []
  queue : List Pkt := []
  rcv : Nat := 0
  held : List Pkt := []
  rxAt : DWord := 0
  txAt : DWord := 0
  unackedAt : Option DWord := none
  rate : Nat := 400000
  periodAt : DWord := 0
  ecnSeen : Bool := false
  echo : Bool := false
  credits : Tbl Nat := []
  taken : List Nat := []
  deriving DecidableEq, Repr

/-- A remote-operation task's progress (R500 to R504): whether it has acted, since when, and the tags it found bound. -/
structure RemOp where
  acted : Bool := false
  since : DWord := 0
  deriving DecidableEq, Repr

/-- Arrivals of one sequence counted at the root of a barrier group (R503). -/
structure Arrival where
  group : Nat
  seq : Nat
  count : Nat
  own : Bool
  deriving DecidableEq, Repr

/-- A frame sent on a link: its bytes from the destination MAC address to before the FCS, and the peer entry whose packet it carries, if any. -/
structure Wire where
  link : Nat
  peer : Option Nat
  bytes : List Byte
  deriving DecidableEq, Repr

/-- The Rolven transport beside its registers (chapter 17): peer entries, connections, remote operations, barrier arrivals, tags bound to a
connection, links up, frames sent, remote submissions pending by tag, and the servo of PTP with the best master and its link. -/
structure Rolv where
  peers : Tbl (List Byte) := []
  conns : Tbl Conn := []
  ops : Tbl RemOp := []
  arrivals : List Arrival := []
  bound : List (Nat × Nat × Nat) := []
  links : List Nat := []
  lldpAt : Tbl Nat := []
  helloAt : Tbl Nat := []
  out : List Wire := []
  submits : Tbl (Option Nat) := []
  ptpT : List Nat := []
  ptpGood : Nat := 0
  ptpAt : DWord := 0
  ptpSeq : Nat := 0
  ptpBest : Option (List Nat × Nat) := none
  deriving DecidableEq, Repr

end Sys2Proof.Machine
end

