-- ==== Sys2Proof/Machine/UnitsNc.lean ====
section
/-! DEFINITION. State of the neural cores and of the Feature Match Store (chapters 10, 11 and 12). -/

namespace Sys2Proof.Machine
open Sys2Proof

/-- What a task waits for (R323): a stream ticket, a handle of a ladle, a ring counter and its value. -/
inductive Wait
  | stream (t : Nat)
  | ladle (l : Nat)
  | ring (c v : Nat)
  deriving DecidableEq, Repr

/-- A register context of a core with the task it runs (R313, R314, R339): integer and vector registers, vector and floating CSRs, NCX_IDS,
tickets issued and completed per queue, the load reservation, counts of instructions, the wait it stands in and since when, and the
status that will end it. The task's parameters are those of R311 and R314, its window and ring among them; `sig` is the signature of a copy
of a SAFETY_DUAL task (R536). -/
structure Ctx where
  task : TRef := ⟨0, 0, 0, 0, 0, 0⟩
  part : Nat := 0
  pc : DWord := 0
  x : Tbl DWord := []
  v : Tbl Nat := []
  vl : Nat := 0
  vtype : Nat := 0
  vill : Bool := true
  vstart : Nat := 0
  fcsr : Nat := 0
  vxrm : Nat := 0
  vxsat : Nat := 0
  ids : Nat := 0
  mIssued : Nat := 0
  sIssued : Nat := 0
  mDone : List Nat := []
  sDone : List Nat := []
  resv : Option (Nat × Nat) := none
  instret : Nat := 0
  startAt : DWord := 0
  wait : Option (Wait × DWord) := none
  kill : Option Nat := none
  bufR : Nat := 0
  bufW : Nat := 0
  tile : Nat := 0
  flow : Nat := 0
  seed : Nat := 0
  rex : Bool := false
  spBase : Nat := 0
  spRows : Nat := 0
  ring : Option (Nat × Nat × Nat) := none
  sig : Nat := 0
  dual : Bool := false
  deriving DecidableEq, Repr

/-- A matrix command in the matrix queue (R309, R325 to R330): 0 MMA, 1 drain, 2 raw store, 3 raw add; its block, ticket and task, and
whether it has started. -/
structure MCmd where
  kind : Nat
  blk : List Byte
  ticket : Nat
  task : TRef
  ids : Nat
  started : Bool := false
  deriving DecidableEq, Repr

/-- A stream command in the stream queue (R309, R426). -/
structure SCmd where
  cmd : List Byte
  stream : Nat
  ticket : Nat
  ids : Nat
  task : TRef
  deriving DecidableEq, Repr

/-- A ring slot (R343): the sequence it is tagged with and its two counters. -/
structure RingSlot where
  tag : Word
  c0 : Nat
  c1 : Nat
  deriving DecidableEq, Repr

/-- A ring signal on its way (R343, R344): sending core and target core, RING_ID, sequence, counter, and how many stream commands of its
task must have completed. -/
structure RingSig where
  src : Nat
  dst : Nat
  ring : Nat
  seq : Word
  ctr : Nat
  after : Nat
  task : TRef
  deriving DecidableEq, Repr

/-- A parked context (R339 to R341): its park slot and whether its file was saved, with the file's mode. -/
structure Parked where
  ctx : Ctx
  slot : Nat
  saved : Bool
  tree : Bool
  cover : Tbl (List (Nat × Nat))
  deriving DecidableEq, Repr

/-- A neural core beside its registers (R309 to R344): the running context, parked ones, the accumulator file with its mode, whether it
is live and, by accumulator, the ranges of K positions its value covers, the RING_ID of a running task whose command was refused, both queues,
ring slots by RING_ID with the sequence last ended and the rings overrun. -/
structure Core where
  ctx : Option Ctx := none
  parked : List Parked := []
  acc : Tbl Nat := []
  tree : Bool := false
  live : Bool := false
  cover : Tbl (List (Nat × Nat)) := []
  badRing : Option Nat := none
  mq : List MCmd := []
  sq : List SCmd := []
  rings : Tbl (List RingSlot) := []
  ringEnd : Tbl (Option Word) := []
  overrun : List Nat := []
  deriving DecidableEq, Repr

/-- A version of a match set (R297, R301): where its entries stand in the store, how many, their digest, and the tasks that hold it. -/
structure MsVer where
  base : Nat
  count : Nat
  digest : Nat
  holders : List TRef
  deriving DecidableEq, Repr

/-- A load of a match set requested and not finished (R299, R302): set, partition, address, space and count of the file, the destination,
whether it is a clear, whether the host asked and no later host request of the partition followed, the task that asked, whether it is deferred,
once started the digest of the entries written, whether the graphs that deferred it have stopped, and the instant of the request. -/
structure MsLoad where
  set : Nat
  part : Nat
  space : Nat
  addr : Nat
  count : Nat
  base : Nat
  clear : Bool
  latest : Bool
  task : Option (TRef × Nat)
  deferred : Bool
  started : Bool
  digest : Nat
  due : Bool := false
  at_ : DWord := 0
  deriving DecidableEq, Repr

/-- The Feature Match Store beside its registers: owners, versions installed since reset and versions of each set, newest last, and loads in
order of request. -/
structure Fms where
  own : Tbl Nat := []
  gen : Tbl Nat := []
  sets : Tbl (List MsVer) := []
  loads : List MsLoad := []
  deriving DecidableEq, Repr

end Sys2Proof.Machine
end

