-- ==== Sys2Proof/Machine/UnitsSafe.lean ====
section
/-! DEFINITION. State of the safety island and of counters, trace and crumb rings (chapters 18 and 20). -/

namespace Sys2Proof.Machine
open Sys2Proof

/-- A crumb entry (R591). -/
structure Crumb where
  time : DWord
  event : Nat
  part : Nat
  arg : Nat
  op : Nat
  seq : Nat
  deriving DecidableEq, Repr

/-- A trace record (R580), with the partition whose work it records; `raw` is bytes 12 to 31 of an ITRACE record (R585). -/
structure Trace where
  time : DWord
  kind : Nat
  isPartial : Bool
  inst : Nat
  code : Nat
  flow : Nat
  layer : Nat
  op : Nat
  phase : Nat
  seq : Nat
  arg0 : Nat
  arg1 : Nat
  part : Nat
  raw : List Byte
  deriving DecidableEq, Repr

/-- The command counters of a task-running unit (R575, R576): the values now live, those of the task before, and
whether a task was counted since. -/
structure CmdCnt where
  opid : Nat := 0
  phase : Nat := 0
  flow : Nat := 0
  running : Bool := false
  isPartial : Bool := false
  busy : Nat := 0
  stall : Nat := 0
  enteredAt : Option DWord := none
  prevOpid : Nat := 0
  prevPhase : Nat := 0
  prevFlow : Nat := 0
  prevBusy : Nat := 0
  prevStall : Nat := 0
  prevPartial : Bool := false
  deriving DecidableEq, Repr

/-- A verdict record before it is written (R523). -/
structure Verdict where
  time : DWord
  flow : Nat
  verdict : Nat
  flags : Nat
  seq : Word
  age : Nat
  crc : Nat
  deriving DecidableEq, Repr

/-- A fault record (R547). -/
structure FaultRec where
  time : DWord
  cause : Nat
  cls : Nat
  code : Nat
  inst : Nat
  part : Nat
  flow : Nat
  seq : Nat
  detail : Nat
  deriving DecidableEq, Repr

/-- A dual-execution flow entry (R535, R540, R546): the flow, its mismatches, and the instants of the latest two. -/
structure DualFlow where
  valid : Bool := false
  graph : Nat := 0
  flow : Nat := 0
  flowId : Nat := 0
  count : Nat := 0
  times : List DWord := []
  deriving DecidableEq, Repr

/-- A pair of copies of a SAFETY_DUAL task as the island knows it (R536 to R538): statuses and signatures of the
copies that have ended, and whether they were compared. -/
structure DualPair where
  graph : Nat
  flow : Nat
  seq : Word
  node : Nat
  idx : Nat
  prim : Option (Nat × Nat)
  chk : Option (Nat × Nat)
  cores : Nat × Nat
  compared : Bool
  agreed : Bool
  deriving DecidableEq, Repr

/-- The safety island beside its registers: verdicts waiting, the verdict ring's fault, VERDICT_COUNT, the fault FIFO, faults whose
reaction is not yet taken, dual flows and pairs, deviating clock windows by clock, the pins and the heartbeat. -/
structure Safe where
  vheld : List Verdict := []
  vfault : Bool := false
  vcount : Nat := 0
  faults : List FaultRec := []
  react : List FaultRec := []
  dual : Tbl DualFlow := []
  pairs : List DualPair := []
  badClk : List Nat := []
  safeN : Bool := true
  hbPin : Bool := false
  hbOn : Bool := false
  hbAt : DWord := 0
  ueBurst : Tbl (Nat × Nat) := []
  deriving DecidableEq, Repr

/-- The instruction-trace encoder of a core (R584): whether the next packet is a synchronisation, the address last sent, the branch map
with its length, packets since the last synchronisation, and whether an uninferable jump awaits its target. -/
structure Itrace where
  sync : Bool := true
  addr : Nat := 0
  map : Nat := 0
  n : Nat := 0
  pkts : Nat := 0
  jump : Bool := false
  deriving DecidableEq, Repr

/-- The DBG block beside its registers: crumb rings by unit, records a sink owes a LOSS for, sinks that a faulting
write disabled, the pending freeze (true) or unfreeze
instant, command counters by unit, JTAG chain selection and shift position, boundary cells, the bits last shifted out on TDO, and the instruction-trace encoders. -/
structure Dbg where
  crumbs : Tbl (List Crumb) := []
  owed : Tbl Nat := []
  badSinks : List Nat := []
  freezeAt : Option (DWord × Bool) := none
  cnt : Tbl CmdCnt := []
  chain : Nat := 0
  shift : Nat := 0
  boundary : List Bool := []
  tdo : List Bool := []
  pins : List Bool := []
  extest : Bool := false
  itrace : Tbl Itrace := []
  deriving DecidableEq, Repr

end Sys2Proof.Machine
end

