-- ==== Sys2Proof/Machine/UnitsSys.lean ====
section
/-! DEFINITION. State of power and thermal control and of boot, OTP and attestation (chapters 19 and 21). -/

namespace Sys2Proof.Machine
open Sys2Proof

/-- An entry of the phase table with the occurrence under way (R565): learnt mean and peak in mW, duration in µs, occurrences, the sum and
the length of the present occurrence, and the preference of PHASE_PREF. -/
structure Phase where
  mean : Int := 0
  peak : Int := 0
  dur : Nat := 0
  count : Nat := 0
  sum : Int := 0
  len : Nat := 0
  pref : Nat := 0
  deriving DecidableEq, Repr

/-- The PWR block beside its registers (R548 to R571): the operating point with its target, FIXED_OPP and MAX_OPP, the step of a transition
under way and since when, targets that wait for its end, a SET_OPP not complete; tripped droop detectors, the instants of the last
quiet and the last trip and the end of an injected one, the droop level, its timer and whether pulses were skipped in the present µs; when each regulator was last polled; temperatures, the emergency
throttle with its level and timer; the polls of the present ms; the estimator's averages; and the outputs of a thermal shutdown. -/
structure Pwr where
  cur : Nat := 10
  target : Nat := 10
  fixed : Nat := 10
  maxOpp : Nat := 15
  openMode : Bool := false
  step : Nat := 0
  stepAt : DWord := 0
  deferred : Bool := false
  next : List Nat := []
  setOpp : Option Nat := none
  setTick : Bool := false
  vouts : List Nat := []
  switchAt : Option DWord := none
  tripped : List Nat := []
  quietAt : Option DWord := none
  tripAt : Option DWord := none
  injTrip : Option DWord := none
  droop : Nat := 0
  droopAt : DWord := 0
  skipped : Bool := false
  polls : Tbl (Option DWord) := []
  tj : Int := 0
  tjPrev : Int := 0
  hot : Nat := 0
  invalid : List Nat := []
  injTemp : Option DWord := none
  emerg : Bool := false
  emergLevel : Nat := 0
  emergAt : DWord := 0
  curAt : Option DWord := none
  ocRun : Nat := 0
  tickAt : DWord := 0
  sampleAt : DWord := 0
  thermAt : DWord := 0
  weights : List Nat := []
  gain : Nat := 0
  offset : Int := 0
  rLo : Int := 0
  pLo : Int := 0
  rHi : Int := 0
  pHi : Int := 0
  rMean : Int := 0
  estSum : Int := 0
  rSum : Int := 0
  nUs : Nat := 0
  grpSum : Tbl Int := []
  iouts : List Int := []
  vout : Int := 0
  pout : Tbl Int := []
  vmode : Tbl Nat := []
  temps : Tbl Int := []
  badPolls : Nat := 0
  tickErr : Bool := false
  energy : Nat := 0
  phases : Tbl Phase := []
  active : List Nat := []
  shutdown : Bool := false
  thermtrip : Bool := false
  hbmSelf : Bool := false
  deriving DecidableEq, Repr

/-- A repair entry (R626): core, bank, spare, position. -/
structure Repair where
  core : Nat
  bank : Nat
  spare : Nat
  pos : Nat
  deriving DecidableEq, Repr

/-- The boot ROM, OTP and SEC beside their registers (R602 to R631): cells of the OTP and the SPI flash, the variant fuses as applied, the
generation in use and those blank at the last start, the repair map in the banks' logic, the start under way with its step and the
instants at which they began, a start that waits for an OTP word, the word being programmed, the nonce of a report being formed, the
image in use with the host address and length latched for it, and the contents of island memory. -/
structure Boot where
  otp : Mem := []
  spi : Mem := []
  fuses : Nat := 0x02FF07FF
  gen : Nat := 0
  genBlank : List Nat := []
  repair : List Repair := []
  cold : Bool := true
  starting : Bool := false
  step : Nat := 0
  stepAt : DWord := 0
  startAt : DWord := 0
  waiting : Option Nat := none
  prog : Option (Nat × Nat × DWord) := none
  att : Option (List Byte) := none
  keyUsed : Nat := 0
  minVersion : Nat := 0
  digest : List Byte := []
  warmSince : Nat := 0
  island : Mem := []
  imgAddr : Nat := 0
  imgLen : Nat := 0
  inReset : Bool := false
  deriving DecidableEq, Repr

end Sys2Proof.Machine
end

