-- ==== Sys2Proof/Machine/State.lean ====
section
/-! DEFINITION. The state of the block: every register, memory, queue, counter, mode and pin the spec names, and the queue of commands. -/

namespace Sys2Proof.Machine
open Sys2Proof

/-- Why a step stops with a fault. -/
inductive Fault
  /-- Raised by DROOP_TRIP when a core falls below its setpoint less 60 mV, where R633 leaves the behaviour undefined (safe). -/
  | coreUndervoltage
  deriving DecidableEq, Repr

/-- Why a step is refused. -/
inductive Refusal
  /-- The command has no meaning yet; raised by exec alone (safe). -/
  | notModelled (mnemonic : String)
  deriving DecidableEq, Repr

/-- The state of the block. Register contents are keyed by BAR0 offset; the context of function f adds f times 64 MiB. -/
structure State where
  time : DWord
  timeOn : Bool
  slew : Int
  pending : List Instr
  free : Nat
  rdata : List Byte
  regs : Tbl Word
  applied : Tbl Word
  hi : Tbl Word
  commits : List Nat
  tone : Tbl Nat
  irqCtx : Tbl Nat
  absent : List Nat
  stackGiB : Nat
  hbm : Mem
  host : Mem
  tile : Mem
  spad : Mem
  lane : Mem
  hbmUe : List Nat
  spadUe : List Nat
  tileUe : List Nat
  clearing : List Nat
  cmdw : Tbl Cmdw
  dlog : Tbl Dlog
  msix : List Msi
  graphs : Tbl Graph
  hampers : List Hamper
  units : Tbl UnitSt
  fifos : Tbl (List Fin)
  collector : Nat
  ages : Tbl AgeSlot
  ladles : Tbl Ladle
  cams : Tbl Cams
  sctl : Tbl Sctl
  fsync : Tbl Fsync
  rpl : Tbl Rpl
  safe : Safe
  dbg : Dbg
  movers : Tbl Mov
  flights : List Flight
  rolv : Rolv
  cores : Tbl Core
  fms : Fms
  ringSigs : List RingSig
  hbmRec : Tbl (List (List Byte))
  invs : List Nat
  nocBad : Bool
  actor : Nat × Nat × Nat
  pwr : Pwr
  boot : Boot
  bar2 : Tbl Nat
  deriving DecidableEq, Repr

/-- The machine right after power-on (R603, R604): registers at the reset values of their tables, nothing in any queue. -/
def State.reset : State where
  time := 0
  timeOn := true
  slew := 0
  pending := []
  free := 0
  rdata := []
  regs := []
  applied := []
  hi := []
  commits := []
  tone := []
  irqCtx := []
  absent := []
  stackGiB := 24
  hbm := []
  host := []
  tile := []
  spad := []
  lane := []
  hbmUe := []
  spadUe := []
  tileUe := []
  clearing := []
  cmdw := []
  dlog := []
  msix := []
  graphs := []
  hampers := []
  units := []
  fifos := []
  collector := 0
  ages := []
  ladles := []
  cams := []
  sctl := []
  fsync := []
  rpl := []
  safe := {}
  dbg := {}
  movers := []
  flights := []
  rolv := {}
  cores := []
  fms := {}
  ringSigs := []
  hbmRec := []
  invs := []
  nocBad := false
  actor := (0, 0, 0)
  pwr := {}
  boot := { otp := factoryOtp }
  bar2 := []

end Sys2Proof.Machine
end

