-- ==== Sys2Proof/Machine/Ops.lean ====
section
/-! DEFINITION. The named operations over registers, interrupts, time and free values that every unit shares. -/

namespace Sys2Proof.Machine
open Sys2Proof

/-! ## Registers -/

/-- The register at a BAR0 offset, as written (R13). -/
def reg (s : State) (a : Nat) : Word := tget regRst s.regs a

/-- The register at a BAR0 offset as a number. -/
def regN (s : State) (a : Nat) : Nat := (reg s a).toNat

/-- The applied value of an RWS register (R13, R71). -/
def app (s : State) (a : Nat) : Nat := (tget regRst s.applied a).toNat

/-- Set the register at a BAR0 offset. -/
def setReg (s : State) (a : Nat) (v : Word) : State := { s with regs := tset regRst s.regs a v }

/-- Set the register at a BAR0 offset to the low 32 bits of a number. -/
def setRegN (s : State) (a n : Nat) : State := setReg s a (BitVec.ofNat 32 n)

/-- Set the applied value of an RWS register. -/
def setApp (s : State) (a : Nat) (v : Word) : State := { s with applied := tset regRst s.applied a v }

/-- Set both the written and the applied value of a register. -/
def setBoth (s : State) (a : Nat) (v : Word) : State := setApp (setReg s a v) a v

/-- Set bits of a register. -/
def orReg (s : State) (a m : Nat) : State := setRegN s a (regN s a ||| m)

/-- Clear bits of a register. -/
def clrReg (s : State) (a m : Nat) : State := setReg s a (reg s a &&& ~~~ BitVec.ofNat 32 m)

/-- Two registers read as one number: low word first. -/
def reg64 (s : State) (lo hi : Nat) : Nat := regN s lo + 2 ^ 32 * regN s hi

/-- Set a pair of registers, low word first. -/
def setReg64 (s : State) (lo hi n : Nat) : State := setRegN (setRegN s lo n) hi (n / 2 ^ 32)

/-- Applied values of a pair of registers, low word first. -/
def app64 (s : State) (lo hi : Nat) : Nat := app s lo + 2 ^ 32 * app s hi

/-- Are the counters frozen now (R578): FREEZE_STAT.FROZEN of the DBG page, or a pending instant that has been reached. -/
def frozen (s : State) : Bool :=
  match s.dbg.freezeAt with
  | some (t, f) => if t.toNat ≤ s.time.toNat then f else bitOf (regN s (pg .dbg 0 + 0x104)) 0
  | none => bitOf (regN s (pg .dbg 0 + 0x104)) 0

/-- Is the device in a global stop (R593): STOP_STAT.STOPPED. -/
def isStopped (s : State) : Bool := bitOf (regN s (pg .dbg 0 + 0x114)) 0

/-- Does the data plane run: BOOT_STAT.STATE is RUNNING (R603), and no thermal shutdown stands (R571). -/
def isRunning (s : State) : Bool := fld (regN s (pg .boot 0 + 0x100)) 0 2 == 2 && !s.pwr.shutdown

/-- What a unit does only while the device runs and is not stopped (R595, R603). -/
def live (f : State → State) (s : State) : State := if isRunning s && !isStopped s then f s else s

/-- Advance a 32-bit counter, which wraps, unless counters are frozen (R573, R578). -/
def bump (s : State) (a n : Nat) : State := if frozen s then s else setReg s a (reg s a + BitVec.ofNat 32 n)

/-- Advance a 64-bit counter whose low word is the register and whose high word is latched by reading the low (R372). -/
def bump64 (s : State) (a n : Nat) : State :=
  if frozen s then s
  else
    let v := regN s a + 2 ^ 32 * (tget (fun _ => (0 : Word)) s.hi a).toNat + n
    { setRegN s a v with hi := tset (fun _ => (0 : Word)) s.hi a (BitVec.ofNat 32 (v / 2 ^ 32)) }

/-! ## Time and free values -/

/-- What slewing removes of an offset in dt ns: at most 100 ppm (R509). -/
def slewIn (dt : Nat) (left : Int) : Int := clampI (-((dt / 10000 : Nat) : Int)) ((dt / 10000 : Nat) : Int) left

/-- Pass dt ns of TIMECNT, unless TIMECNT stands; an offset being slewed is worked off (R23, R509, R641). -/
def elapse (dt : Nat) (s : State) : State :=
  if s.timeOn then
    { s with
      time := s.time + BitVec.ofInt 64 (dt + slewIn dt s.slew)
      slew := s.slew - slewIn dt s.slew }
  else s

/-- TIMECNT as a number. -/
def now (s : State) : Nat := s.time.toNat

/-- A free value: nothing constrains it (log entry 5). -/
def freeVal (s : State) : Nat := Config.freeNat s.free

/-- The state after a free value was drawn. -/
def drawn (s : State) : State := { s with free := s.free + 1 }

/-! ## Instances and owners -/

/-- Is instance n of a type present (R3, R6, R24). -/
def present (s : State) (b : Blk) (n : Nat) : Bool :=
  decide (n < blkCount b) && !(s.absent.contains (pg (headBlk b) n))

/-- Present instances of a type, ascending. -/
def presentList (s : State) (b : Blk) : List Nat := (List.range (blkCount b)).filter (present s b)

/-- The page that holds BLK_PART for an instance: the core's first page for its other pages and its stream engine (R26, R66). -/
def partAddr (b : Blk) (n : Nat) : Nat :=
  match b with
  | .ncse => pg .nc n + 0x024
  | _ => pg (headBlk b) n + 0x024

/-- The partition that owns an assignable instance (R26). -/
def owner (s : State) (b : Blk) (n : Nat) : Nat := regN s (partAddr b n) % 4

/-- Present instances of an assignable type that a partition owns, ascending (R100). -/
def ownedList (s : State) (b : Blk) (p : Nat) : List Nat :=
  (presentList s b).filter (fun n => owner s b n == p)


/-- The partition whose command window records an accessor's missing permission (R16, R68). -/
def whoPart : Who → Nat
  | .pf n => n
  | .fw => 0

/-- Is the accessor at host-privileged level or above (R25). -/
def isHost : Who → Bool
  | .pf n => n == 0
  | .fw => true

/-! ## Interrupts and errors -/

/-- BAR0 offset of the MSI-X table entry of a function's vector (R70). -/
def msixEntry (fn vec : Nat) : Nat := fn * 0x400_0000 + 0x00E_0000 + 16 * vec

/-- BAR0 offset of the pending-bit word of a function's vector (R70). -/
def msixPba (fn vec : Nat) : Nat := fn * 0x400_0000 + 0x00F_0000 + 4 * (vec / 32)

/-- Send an MSI-X message; a vector masked in the MSI-X table sets its pending bit instead (R62, R86, R87, log entry 8). -/
def sendMsi (s : State) (fn vec : Nat) : State :=
  if bitOf (regN s (msixEntry fn vec + 12)) 0 then orReg s (msixPba fn vec) (2 ^ (vec % 32))
  else { s with msix := s.msix ++ [⟨fn, vec⟩] }

/-- Deliver an interrupt of a block type to a partition's function, on the vector of its IRQ_ROUTE entry unless masked (R87). -/
def deliver (s : State) (p : Nat) (b : Blk) : State :=
  let r := regN s (pg .cmdw p + 0x400 + 4 * (blkCode b % 256))
  if bitOf r 8 then s else sendMsi s p (r % 64)

/-- The partition an interrupt bit goes to: the owner of an assignable block, otherwise the context that raised it (R87). -/
def irqDest (s : State) (b : Blk) (n bit : Nat) : Nat :=
  match blkClass b with
  | .assignable => match tget (fun _ => 0) s.irqCtx (pg b n * 32 + bit) with
    | 0 => owner s b n
    | p + 1 => p
  | .window => n
  | _ => match tget (fun _ => 0) s.irqCtx (pg b n * 32 + bit) with
    | 0 => 0
    | p + 1 => p

/-- Raise a bit of BLK_IRQ_STAT in a partition's context (`some p`) or the block's own (`none`) (R67, R87). -/
def raiseIrq (s : State) (b : Blk) (n bit : Nat) (ctx : Option Nat) : State :=
  let a := pg b n + 0x010
  if bitOf (regN s a) bit then s
  else
    let s1 := orReg s a (2 ^ bit)
    let s2 := { s1 with irqCtx := tset (fun _ => 0) s1.irqCtx (pg b n * 32 + bit) (match ctx with | some p => p + 1 | none => 0) }
    if bitOf (regN s2 (pg b n + 0x014)) bit then deliver s2 (irqDest s2 b n bit) b else s2

/-- Raise a bit of BLK_ERR_STAT; a bit that becomes 1 sets ERROR (R67, R68). -/
def raiseErr (s : State) (b : Blk) (n bit : Nat) (ctx : Option Nat) : State :=
  let a := pg b n + 0x018
  if bitOf (regN s a) bit then s else raiseIrq (orReg s a (2 ^ bit)) b n 1 ctx

/-- NO_PERMISSION in a partition's command window (R16, R68). -/
def noPerm (s : State) (p : Nat) : State := raiseErr s .cmdw p 8 none

/-- Set a bit of SYS_REX_VIOL; a bit that becomes 1 sets REX_VIOL of the SYS page (chapter 02). -/
def rexViol (s : State) (bit : Nat) : State :=
  if bitOf (regN s 0x188) bit then s else raiseIrq (orReg s 0x188 (2 ^ bit)) .sys 0 8 none

/-- Is an error injection of a page armed (R66): the armed bits are kept at BLK_ERR_INJ, which reads 0. -/
def injArmed (s : State) (b : Blk) (n bit : Nat) : Bool := bitOf (regN s (pg b n + 0x01C)) bit

/-- An armed injection is used up. -/
def injUsed (s : State) (b : Blk) (n bit : Nat) : State := clrReg s (pg b n + 0x01C) (2 ^ bit)

/-! ## Tables of units -/

/-- A unit's slots. -/
def unitAt (s : State) (b : Blk) (n : Nat) : UnitSt := tget (fun _ => {}) s.units (ukey b n)

/-- Set a unit's slots. -/
def setUnit (s : State) (b : Blk) (n : Nat) (u : UnitSt) : State :=
  { s with units := tset (fun _ => {}) s.units (ukey b n) u }

/-- A graph slot. -/
def graphAt (s : State) (g : Nat) : Graph := tget (fun _ => {}) s.graphs g

/-- Set a graph slot. -/
def setGraph (s : State) (g : Nat) (x : Graph) : State := { s with graphs := tset (fun _ => {}) s.graphs g x }

/-- A command window. -/
def cmdwAt (s : State) (p : Nat) : Cmdw := tget (fun _ => {}) s.cmdw p

/-- Set a command window. -/
def setCmdw (s : State) (p : Nat) (c : Cmdw) : State := { s with cmdw := tset (fun _ => {}) s.cmdw p c }

/-- A stream context. -/
def camsAt (s : State) (n : Nat) : Cams := tget (fun _ => {}) s.cams n

/-- Set a stream context. -/
def setCams (s : State) (n : Nat) (c : Cams) : State := { s with cams := tset (fun _ => {}) s.cams n c }

/-- A sensor-control unit. -/
def sctlAt (s : State) (n : Nat) : Sctl := tget (fun _ => {}) s.sctl n

/-- Set a sensor-control unit. -/
def setSctl (s : State) (n : Nat) (c : Sctl) : State := { s with sctl := tset (fun _ => {}) s.sctl n c }

/-- A frame-sync output. -/
def fsyncAt (s : State) (n : Nat) : Fsync := tget (fun _ => {}) s.fsync n

/-- Set a frame-sync output. -/
def setFsync (s : State) (n : Nat) (c : Fsync) : State := { s with fsync := tset (fun _ => {}) s.fsync n c }

/-- A replay channel. -/
def rplAt (s : State) (n : Nat) : Rpl := tget (fun _ => {}) s.rpl n

/-- Set a replay channel. -/
def setRpl (s : State) (n : Nat) (c : Rpl) : State := { s with rpl := tset (fun _ => {}) s.rpl n c }

/-- An age slot. -/
def ageAt (s : State) (n : Nat) : AgeSlot := tget (fun _ => {}) s.ages n

/-- Set an age slot. -/
def setAge (s : State) (n : Nat) (c : AgeSlot) : State := { s with ages := tset (fun _ => {}) s.ages n c }

/-- A ladle. -/
def ladleAt (s : State) (n : Nat) : Ladle := tget (fun _ => {}) s.ladles n

/-- Set a ladle. -/
def setLadle (s : State) (n : Nat) (c : Ladle) : State := { s with ladles := tset (fun _ => {}) s.ladles n c }

/-- Is a graph index running: started, or stopping (R130). -/
def isStarted (g : Graph) : Bool :=
  match g.stat with
  | .started | .drain | .cancel | .flushed => true
  | _ => false

/-- Graph indices whose graph is started or stopping. -/
def startedGraphs (s : State) : List Nat := (s.graphs.filter (fun e => isStarted e.2)).map Prod.fst

/-- Is some graph of a partition started or stopping. -/
def partStarted (s : State) (p : Nat) : Bool := s.graphs.any (fun e => isStarted e.2 && e.2.part == p)

/-- The context of a task on a core, running or parked, changed. -/
def modCtx (s : State) (u : Nat) (r : TRef) (f : Ctx → Ctx) : State :=
  let c : Core := tget (fun _ => {}) s.cores u
  { s with cores := tset (fun _ => {}) s.cores u { c with
    ctx := c.ctx.map (fun x => if x.task = r then f x else x)
    parked := c.parked.map (fun p => if p.ctx.task = r then { p with ctx := f p.ctx } else p) } }

/-- A core's task will end with a status: the first fault found, which an NC.END with code 0 does not hide (R128, R320, R345). -/
def endsWith (s : State) (u : Nat) (r : TRef) (st : Nat) : State :=
  modCtx s u r (fun x => { x with kill := match x.kill with | some (k + 1) => some (k + 1) | _ => some st })

/-- Lose the load reservations of a core that meet bytes [lo, hi) of its scratchpad (R318). -/
def loseResv (s : State) (u lo hi : Nat) : State :=
  let f := fun (x : Ctx) => match x.resv with
    | some (a, n) => if a < hi ∧ lo < a + n then { x with resv := none } else x
    | none => x
  let c : Core := tget (fun _ => {}) s.cores u
  if c.ctx.any (fun x => x.resv.isSome) || c.parked.any (fun p => p.ctx.resv.isSome) then
    { s with cores := tset (fun _ => {}) s.cores u { c with ctx := c.ctx.map f, parked := c.parked.map (fun p => { p with ctx := f p.ctx }) } }
  else s

/-! ## Running steps in sequence -/

/-- Apply a state change for each element of a list, in order. -/
def forAll {α : Type} (l : List α) (f : α → State → State) (s : State) : State := l.foldl (fun t x => f x t) s

end Sys2Proof.Machine
end

