-- ==== Sys2Proof/Machine/Xlate.lean ====
section
/-! DEFINITION. Translation of device-virtual addresses and access to HBM and host memory (R32, R461 to R471). -/

namespace Sys2Proof.Machine
open Sys2Proof

/-- Why an access fails: UNMAPPED or PERMISSION of R464, or an error response of R467. -/
inductive Fail
  | unmapped | perm | bus
  deriving DecidableEq, Repr

/-- What an access needs of a page (R463). -/
inductive Perm
  | r | w | x
  deriving DecidableEq, Repr

/-- A physical place: TARGET 0 HBM or TARGET 1 host memory, and the offset (R461). -/
structure Phys where
  target : Nat
  off : Nat
  deriving DecidableEq, Repr

/-- Bytes of HBM present (R461). -/
def hbmCap (s : State) : Nat := (presentList s .hbm).length * s.stackGiB * 2 ^ 30

/-- Bytes of HBM usable by partitions: all but the 64 MiB firmware region (R464, R608). -/
def hbmUsable (s : State) : Nat := hbmCap s - 0x400_0000

/-- Does a 64-byte access of HBM meet an uncorrectable word (R467); the set lists 8-byte word numbers. -/
def hbmBad (s : State) (off n : Nat) : Bool :=
  s.hbmUe.any (fun w => decide (off / 64 ≤ w / 8) && decide (w / 8 ≤ (off + n - 1) / 64))

/-- Eight bytes of HBM as a number. -/
def hbm64 (s : State) (off : Nat) : Nat := leNat (memRead s.hbm off 8)

/-- The permission bit of a table entry (R463). -/
def permBit : Perm → Nat
  | .r => 2
  | .w => 3
  | .x => 4

/-- Page address bits 51:12 of a table entry. -/
def entAddr (e : Nat) : Nat := fld e 12 40 * 4096

/-- Is a table entry's stated-zero field non-zero: bits 63:52 and 11:7, and TARGET 2 or 3 of a page (R463, R464). -/
def entBad (e : Nat) : Bool := fld e 52 12 != 0 || fld e 7 5 != 0

/-- Do n bytes at a HBM offset lie in usable HBM (R464). -/
def usable (s : State) (off n : Nat) : Bool := decide (off + n ≤ hbmUsable s)

/-- A leaf entry of a page of `size` bytes. -/
def walkLeaf (s : State) (e size va : Nat) (pm : Perm) : Except Fail Phys :=
  if fld e 5 2 ≥ 2 || entAddr e % size != 0 then .error .unmapped
  else if fld e 5 2 == 0 && !usable s (entAddr e) size then .error .unmapped
  else if !bitOf e (permBit pm) then .error .perm
  else .ok ⟨fld e 5 2, entAddr e + va % size⟩

/-- Offset of the entry a walk reads in a table, `lvl` levels above the last (R463). -/
def tableWord (lvl va tbl : Nat) : Nat :=
  tbl + 8 * (match lvl with
    | 3 => fld va 39 9
    | 2 => fld va 30 9
    | 1 => fld va 21 9
    | _ => fld va 16 5)

/-- One level of a walk: the table lies at `tbl`, `lvl` counts the levels left (4 at the root). -/
def walkLvl (s : State) (va : Nat) (pm : Perm) : Nat → Nat → Except Fail Phys
  | 0, _ => .error .unmapped
  | lvl + 1, tbl =>
    if !usable s tbl 4096 then .error .unmapped
    else
      let o := tableWord lvl va tbl
      if hbmBad s o 8 then .error .bus
      else
        let e := hbm64 s o
        if !bitOf e 0 || entBad e then .error .unmapped
        else match lvl, bitOf e 1 with
          | 0, true => walkLeaf s e 0x1_0000 va pm
          | 0, false => .error .unmapped
          | 1, true => walkLeaf s e 0x20_0000 va pm
          | _, true => .error .unmapped
          | _, false => if fld e 5 2 != 0 then .error .unmapped else walkLvl s va pm lvl (entAddr e)

/-- Offset of the root table of a partition, as applied. -/
def xlatRoot (s : State) (p : Nat) : Nat := fld (app s (pg .noc 0 + 0x100 + 8 * p)) 12 20 * 4096 + app s (pg .noc 0 + 0x104 + 8 * p) * 2 ^ 32

/-- Translate a device-virtual address of a partition (R463, R464). -/
def xlate (s : State) (p va : Nat) (pm : Perm) : Except Fail Phys :=
  if !bitOf (app s (pg .noc 0 + 0x100 + 8 * p)) 0 || decide (2 ^ 48 ≤ va) then .error .unmapped
  else walkLvl s va pm 4 (xlatRoot s p)

/-- The offset of the uncorrectable table word at which a walk that ended in an error response stopped (R464, R467). -/
def walkStop (s : State) (va : Nat) : Nat → Nat → Option Nat
  | 0, _ => none
  | lvl + 1, tbl =>
    let o := tableWord lvl va tbl
    if hbmBad s o 8 then some o else walkStop s va lvl (entAddr (hbm64 s o))

/-- Cut n bytes from va into pieces that stay within 64 KiB pages; fuel bounds their number. -/
def pieces : Nat → Nat → Nat → List (Nat × Nat)
  | 0, _, _ => []
  | _, _, 0 => []
  | f + 1, va, n =>
    let k := min n (0x1_0000 - va % 0x1_0000)
    (va, k) :: pieces f (va + k) (n - k)

/-- The pieces of an access. -/
def piecesOf (va n : Nat) : List (Nat × Nat) := pieces (n / 0x1_0000 + 2) va n

/-- Bytes at a physical place (R461, R467). -/
def physRead (s : State) (a : Phys) (n : Nat) : Except Fail (List Byte) :=
  if a.target = 0 then
    if hbmBad s a.off n then .error .bus else .ok (memRead s.hbm a.off n)
  else .ok (memRead s.host a.off n)

/-- Read pieces in order. -/
def readPieces (s : State) (p : Nat) (pm : Perm) : List (Nat × Nat) → Except Fail (List Byte)
  | [] => .ok []
  | (va, k) :: r => do
    let a ← xlate s p va pm
    let b ← physRead s a k
    let c ← readPieces s p pm r
    .ok (b ++ c)

/-- Read n bytes of a partition's device-virtual space (R32). -/
def vaRead (s : State) (p va n : Nat) : Except Fail (List Byte) := readPieces s p .r (piecesOf va n)

/-- Does every byte of a range have a permission (R79, R129). -/
def vaOk (s : State) (p va n : Nat) (pm : Perm) : Bool :=
  (piecesOf va n).all (fun x => match xlate s p x.1 pm with | .ok _ => true | .error _ => false)

/-- The word of a partial 64-bit write that is uncorrectable (R468): first and last words not covered whole. -/
def rmwBad (s : State) (off n : Nat) : Bool :=
  s.hbmUe.any (fun w => decide (off < 8 * w + 8) && decide (8 * w < off + n) &&
    !(decide (off ≤ 8 * w) && decide (8 * w + 8 ≤ off + n)))

/-- Write bytes of HBM; whole words replace uncorrectable ones (R467). -/
def hbmPut (s : State) (off : Nat) (bs : List Byte) : State :=
  { s with hbm := memWrite s.hbm off bs,
           hbmUe := s.hbmUe.filter (fun w => !(decide (off ≤ 8 * w) && decide (8 * w + 8 ≤ off + bs.length))) }

/-- Bytes of a write that stand before the 64-byte access of its first partial word that is uncorrectable (R467, R468). -/
def beforeBad (s : State) (off n : Nat) : Nat :=
  let first := off / 64 * 64 + 64 - off
  if rmwBad s off (min n first) then 0 else (off + n - 1) / 64 * 64 - off

/-- Write bytes at a physical place, access by access: the one that meets an uncorrectable partial word is not made and ends the write (R468). -/
def physWrite (s : State) (a : Phys) (bs : List Byte) : State × Option Fail :=
  if a.target = 0 then
    if rmwBad s a.off bs.length then (hbmPut s a.off (bs.take (beforeBad s a.off bs.length)), some .bus)
    else (hbmPut s a.off bs, none)
  else ({ s with host := memWrite s.host a.off bs }, none)

/-- Write pieces in order: the state so far, and the failure that stopped it. -/
def writePieces (p : Nat) : List (Nat × Nat) → List Byte → State → State × Option Fail
  | [], _, s => (s, none)
  | (va, k) :: r, bs, s =>
    match xlate s p va .w with
    | .error f => (s, some f)
    | .ok a => match physWrite s a (bs.take k) with
      | (s1, some f) => (s1, some f)
      | (s1, none) => writePieces p r (bs.drop k) s1

/-- Write bytes to a partition's device-virtual space; pieces before a failing one are written (R32). -/
def vaWrite (s : State) (p va : Nat) (bs : List Byte) : State × Option Fail :=
  writePieces p (piecesOf va bs.length) bs s

/-- Write bytes only if every piece can be written: the writes of one record are not made when one faults (R651). -/
def vaWriteAll (s : State) (p va : Nat) (bs : List Byte) : Except Fail State :=
  match vaWrite s p va bs with
  | (t, none) => .ok t
  | (_, some f) => .error f

/-- A little-endian number read from device-virtual space. -/
def vaNat (s : State) (p va n : Nat) : Except Fail Nat := do
  let b ← vaRead s p va n
  .ok (leNat b)

/-- HBM instance and pseudo-channel of a HBM offset (R462). -/
def hbmPlace (s : State) (pa : Nat) : Nat × Nat :=
  let st := presentList s .hbm
  let pcs := 32 * st.length
  let b := lg2 pcs
  let pc := (pa / 256 % pcs) ^^^ (pa / 2 ^ (8 + b) % pcs)
  (nth 0 st (pc / 32), pc % 32)

/-- Offset within its pseudo-channel of a HBM offset (R462). -/
def hbmLocal (s : State) (pa : Nat) : Nat :=
  pa / 2 ^ (8 + lg2 (32 * (presentList s .hbm).length)) * 256 + pa % 256

end Sys2Proof.Machine
end

