-- ==== Sys2Proof/Machine/Logs.lean ====
section
/-! DEFINITION. Completion log, command handles, frame-drop log and read indices (R43 to R48, R78, R81 to R87, R651, R652, R656). -/

namespace Sys2Proof.Machine
open Sys2Proof

/-! ## Command handles -/

/-- A handle: partition in [30:29], generation in [28:16], slot in [15:0] (R78). -/
def mkHandle (p gen slot : Nat) : Nat := p * 2 ^ 29 + gen * 2 ^ 16 + slot

/-- The lowest-numbered free command slot of a partition (R78). -/
def freeSlot (s : State) (p : Nat) : Option Nat :=
  (List.range 256).find? (fun i => !(tget (fun _ => ({} : CmdSlot)) (cmdwAt s p).slots i).busy)

/-- The next generation: 1 to 8,191, then 1 again (R78). -/
def nextGen (g : Nat) : Nat := if g ≥ 8191 then 1 else g + 1

/-- Give a command slot to an accepted command: its handle and the state (R78). -/
def takeSlot (s : State) (p i op ref : Nat) : Nat × State :=
  let c := cmdwAt s p
  let g := nextGen (tget (fun _ => ({} : CmdSlot)) c.slots i).gen
  (mkHandle p g i, setCmdw s p { c with slots := tset (fun _ => {}) c.slots i ⟨g, true, op, ref⟩ })

/-- Free the slot of a handle, if the handle still holds it (R78). -/
def freeHandle (s : State) (h : Nat) : State :=
  let p := fld h 29 2
  let c := cmdwAt s p
  let sl := tget (fun _ => ({} : CmdSlot)) c.slots (h % 65536)
  if sl.busy && sl.gen == fld h 16 13 then
    setCmdw s p { c with slots := tset (fun _ => {}) c.slots (h % 65536) { sl with busy := false } }
  else s

/-- Accepted commands of a partition not yet final: CMD_OUTSTANDING (R75). -/
def outstanding (s : State) (p : Nat) : Nat := ((cmdwAt s p).slots.filter (fun e => e.2.busy)).length

/-! ## Rings -/

/-- Entries in a ring: WR_IDX less RD_IDX modulo 2^32 (R652). -/
def ringUsed (s : State) (wr rd : Nat) : Nat := (reg s wr - reg s rd).toNat

/-- Is a ring of 2^log2 entries full (R47, R83, R525, R587). -/
def ringFull (s : State) (wr rd lg : Nat) : Bool := decide (2 ^ regN s lg ≤ ringUsed s wr rd)

/-- Would a value be taken by a read index: it leaves at most the ring's size, and the ring exists (R652). -/
def rdIdxOk (s : State) (wr lg : Nat) (v : Word) : Bool :=
  regN s lg != 0 && decide ((reg s wr - v).toNat ≤ 2 ^ regN s lg)

/-! ## Completion log -/

/-- Status OK, CANCELLED and FLOW_STOPPED (R81). -/
def stOk : Nat := 0
def stCancelled : Nat := 1
def stFlowStopped : Nat := 2

/-- Flag bits of a record (R81). -/
def flStale : Nat := 1
def flNotSafe : Nat := 2
def flPartial : Nat := 4
def flLate : Nat := 8
def flFinal : Nat := 16

/-- The 32 bytes of a completion record (R81 and the example of chapter 03). -/
def cplBytes (r : Cpl) : List Byte :=
  let b := natLe 4 r.handle ++ natLe 2 r.status ++ natLe 2 r.src ++ natLe 2 r.flow ++ natLe 2 r.flags ++
    natLe 4 r.seq.toNat ++ natLe 8 r.time.toNat ++ natLe 4 r.age
  b ++ natLe 4 (crc32 b)

/-- Page of a command window. -/
def cw (p : Nat) : Nat := pg .cmdw p

/-- Is the completion log full (R83). -/
def cplFull (s : State) (p : Nat) : Bool := ringFull s (cw p + 0x15C) (cw p + 0x160) (cw p + 0x158)

/-- Are records of a partition waiting in the device, or a write-back owed: HELD (R83, R651). -/
def cplHeld (s : State) (p : Nat) : Bool :=
  !(cmdwAt s p).held.isEmpty || (cmdwAt s p).fault || (cmdwAt s p).wbFault

/-- Is the log held, so that nothing is released and no command accepted (R83, R651). -/
def cplBlocked (s : State) (p : Nat) : Bool := cplFull s p || cplHeld s p

/-- Address of the slot the next record goes to (R83). -/
def cplSlot (s : State) (p : Nat) : Nat :=
  reg64 s (cw p + 0x150) (cw p + 0x154) + 32 * (regN s (cw p + 0x15C) % 2 ^ regN s (cw p + 0x158))

/-- COAL_COUNT, 0 taken as 1 (R86). -/
def coalCount (s : State) (p : Nat) : Nat :=
  if fld (regN s (cw p + 0x16C)) 0 16 = 0 then 1 else fld (regN s (cw p + 0x16C)) 0 16

/-- COAL_TIME in µs (R86). -/
def coalTime (s : State) (p : Nat) : Nat := fld (regN s (cw p + 0x16C)) 16 16

/-- Does a condition of R86 on count or time hold. -/
def coalDue (s : State) (p : Nat) : Bool :=
  let c := cmdwAt s p
  decide (0 < c.unsig) && (decide (coalCount s p ≤ c.unsig) ||
    (coalTime s p != 0 && decide (coalTime s p * 1000 ≤ (s.time - c.unsigAt).toNat)))

/-- Send the log's MSI-X message (R86). -/
def signalLog (s : State) (p : Nat) : State :=
  sendMsi (setCmdw s p { cmdwAt s p with unsig := 0 }) p (regN s (cw p + 0x170) % 64)

/-- Send the log's message if a condition of R86 holds, or a record just written asks for it. -/
def signalIf (s : State) (p : Nat) (ask : Bool) : State := if ask || coalDue s p then signalLog s p else s

/-- Write CPL_WR_IDX back to memory if WB_EN is 1; a fault holds the log (R83, R651). -/
def writeBack (s : State) (p : Nat) : State :=
  if bitOf (regN s (cw p + 0x164)) 0 then
    match vaWriteAll s p (alignDown (regN s (cw p + 0x164)) 8 + 2 ^ 32 * regN s (cw p + 0x168)) (natLe 4 (regN s (cw p + 0x15C))) with
    | .ok t => setCmdw t p { cmdwAt t p with wbFault := false }
    | .error _ => raiseErr (setCmdw s p { cmdwAt s p with wbFault := true }) .cmdw p 12 none
  else setCmdw s p { cmdwAt s p with wbFault := false }

/-- Age-monitor slots of a graph free when its FINAL record has been written (R528). -/
def freeAgesOf (s : State) (h : Nat) : State :=
  { s with ages := s.ages.filter (fun e => !(e.2.valid && e.2.handle == h)) }

/-- A record stands in its slot: the index advances, the write-back follows, the handle of a FINAL record frees, and the
message of R86 is considered. -/
def cplWritten (s : State) (p : Nat) (r : Cpl) : State :=
  let s1 := setReg s (cw p + 0x15C) (reg s (cw p + 0x15C) + 1)
  let c := cmdwAt s1 p
  let s2 := setCmdw s1 p { c with unsig := c.unsig + 1, unsigAt := if c.unsig = 0 then s1.time else c.unsigAt }
  let s3 := if bitOf r.flags 4 then freeAgesOf (freeHandle s2 r.handle) r.handle else s2
  let s4 := writeBack s3 p
  signalIf s4 p (bitOf r.flags 0 || bitOf r.flags 1 || !(r.status == stOk || r.status == stCancelled))

/-- Write waiting records in order until the ring is full or a write faults; the records still waiting (R83, R651). -/
def drainList (p : Nat) : List Cpl → State → List Cpl × State
  | [], s => ([], s)
  | r :: rs, s =>
    if regN s (cw p + 0x158) = 0 || cplFull s p || (cmdwAt s p).fault || (cmdwAt s p).wbFault then (r :: rs, s)
    else match vaWriteAll s p (cplSlot s p) (cplBytes r) with
      | .ok t => drainList p rs (cplWritten t p r)
      | .error _ => (r :: rs, raiseErr (setCmdw s p { cmdwAt s p with fault := true }) .cmdw p 12 none)

/-- Resume the writing of waiting records (R83). -/
def cplDrain (s : State) (p : Nat) : State :=
  let (h, t) := drainList p (cmdwAt s p).held s
  setCmdw t p { cmdwAt t p with held := h }

/-- A record enters the log's write queue (R82, R83, R127). -/
def pushCpl (s : State) (p : Nat) (r : Cpl) : State :=
  cplDrain (setCmdw s p { cmdwAt s p with held := (cmdwAt s p).held ++ [r] }) p

/-- Retry a faulted completion log, write-back first, then the records (R651). -/
def cplRetry (s : State) (p : Nat) : State :=
  let s1 := setCmdw s p { cmdwAt s p with fault := false }
  cplDrain (if (cmdwAt s1 p).wbFault then writeBack s1 p else s1) p

/-- The FINAL record of a command that is no result (R81). -/
def finalCpl (s : State) (h status src : Nat) : Cpl := ⟨h, status, src, 0xFFFF, flFinal, 0, s.time, 0⟩

/-- Write the FINAL record of a command; a handle that a function-level reset discarded (0) gets none (R88). -/
def pushFinal (s : State) (h status src : Nat) : State := if h = 0 then s else pushCpl s (fld h 29 2) (finalCpl s h status src)

/-! ## Frame-drop log -/

/-- Page offset of a partition's frame-drop log registers (R43). -/
def dl (p : Nat) : Nat := 0x1A0 + 0x20 * p

/-- A partition's frame-drop log beside its registers: entries lost, the ring fault, and the entries of the present instant. -/
def dlogAt (s : State) (p : Nat) : Dlog := tget (fun _ => {}) s.dlog p

/-- Set it. -/
def setDlog (s : State) (p : Nat) (d : Dlog) : State := { s with dlog := tset (fun _ => {}) s.dlog p d }

/-- An entry of the frame-drop log (R44). -/
def dlogBytes (e : DEnt) : List Byte :=
  let b := natLe 8 e.time.toNat ++ natLe 2 e.kind ++ natLe 2 e.subj ++ natLe 4 e.seq ++ natLe 8 e.arg0 ++ natLe 4 e.arg1
  b ++ natLe 4 (crc32 b)

/-- Order of two entries of equal TIMECNT: a LOSS first, then by kind, then by subject (R46). -/
def dlogBefore (a b : DEnt) : Bool :=
  let k := fun (e : DEnt) => if e.kind = 0x30 then 0 else e.kind
  decide (k a < k b) || (k a == k b && decide (a.subj < b.subj))

/-- Insert an entry among those of its instant, after its equals (R46). -/
def dlogIns (e : DEnt) : List DEnt → List DEnt
  | [] => [e]
  | x :: r => if dlogBefore e x then e :: x :: r else x :: dlogIns e r

/-- Does a partition's log exist and is it enabled in the applied configuration (R43, chapter 02). -/
def dlogOn (s : State) (p : Nat) : Bool := bitOf (app s 0x180) 8 && regN s (dl p + 8) != 0

/-- Address of the slot with index i (R43). -/
def dlogSlot (s : State) (p : Nat) (i : Word) : Nat :=
  reg64 s (dl p) (dl p + 4) + 32 * (i.toNat % 2 ^ regN s (dl p + 8))

/-- Write entries to consecutive slots from index i; none if one faults. -/
def dlogStore (p : Nat) : List DEnt → Word → State → Except Fail State
  | [], _, s => .ok s
  | e :: r, i, s => do
    let t ← vaWriteAll s p (dlogSlot s p i) (dlogBytes e)
    dlogStore p r (i + 1) t

/-- Write an entry: those of its instant are laid down again in the order of R46. -/
def dlogWrite (s : State) (p : Nat) (e : DEnt) : Except Fail State := do
  let d := dlogAt s p
  let same := d.same.filter (fun x => x.time == e.time)
  let l := dlogIns e same
  let t ← dlogStore p l (reg s (dl p + 0xC) - BitVec.ofNat 32 same.length) s
  .ok (setDlog (setReg t (dl p + 0xC) (reg t (dl p + 0xC) + 1)) p { dlogAt t p with same := l })

/-- Count an entry as lost; the first since the last LOSS entry sets DLOG_LOSS (R47). -/
def dlogLose (s : State) (p : Nat) : State :=
  let t := setDlog s p { dlogAt s p with lost := (dlogAt s p).lost + 1 }
  if (dlogAt s p).lost = 0 then rexViol t 3 else t

/-- An entry arrives at a partition's log: lost while the ring is full, which a ring whose writes fault is taken to be (R45 to R47, R651). -/
def dlogPut (s : State) (p kind subj seq arg0 arg1 : Nat) : State :=
  if !dlogOn s p then s
  else if (dlogAt s p).fault || ringFull s (dl p + 0xC) (dl p + 0x10) (dl p + 8) then dlogLose s p
  else match dlogWrite s p ⟨s.time, kind, subj, seq, arg0, arg1⟩ with
    | .ok t => t
    | .error _ => rexViol (dlogLose (setDlog s p { dlogAt s p with fault := true }) p) 5

/-- Write an owed LOSS entry once two slots are free (R47, R651). -/
def dlogOwed (s : State) (p : Nat) : State :=
  let d := dlogAt s p
  if d.lost = 0 || d.fault || regN s (dl p + 8) = 0 || decide (2 ^ regN s (dl p + 8) < ringUsed s (dl p + 0xC) (dl p + 0x10) + 2) then s
  else match dlogWrite s p ⟨s.time, 0x30, 0, 0, d.lost, 0⟩ with
    | .ok t => setDlog t p { dlogAt t p with lost := 0 }
    | .error _ => rexViol (setDlog s p { d with fault := true }) 5

/-- Retry a faulted frame-drop log: the LOSS entry is the write made (R651). -/
def dlogRetry (s : State) (p : Nat) : State := dlogOwed (setDlog s p { dlogAt s p with fault := false }) p

end Sys2Proof.Machine
end

