-- ==== Sys2Proof/Machine/Trace.lean ====
section
/-! DEFINITION. Crumb rings, trace records, sinks, the trace trigger, freezing and the global stop (R573 to R596). -/

namespace Sys2Proof.Machine
open Sys2Proof

/-- Page of DBG. -/
def dbgPg : Nat := pg .dbg 0

/-- Page of SAFE. -/
def safePg : Nat := pg .safe 0

/-- Append an event to a unit's crumb ring, which keeps the last 64 (R590, R591). -/
def crumb (s : State) (key event part arg op seq : Nat) : State :=
  let l := tget (fun _ => ([] : List Crumb)) s.dbg.crumbs key ++ [⟨s.time, event, part, arg % 65536, op % 2 ^ 24, seq % 256⟩]
  { s with dbg := { s.dbg with crumbs := tset (fun _ => []) s.dbg.crumbs key (l.drop (l.length - 64)) } }

/-- The 32 bytes of a trace record (R580). -/
def traceBytes (r : Trace) : List Byte :=
  natLe 8 r.time.toNat ++ natLe 1 (r.kind % 128 + 128 * b2n r.isPartial) ++ natLe 1 r.inst ++ natLe 2 r.code ++
    (if r.kind = 0x20 then (r.raw ++ List.replicate 20 0).take 20
     else natLe 2 r.flow ++ natLe 2 r.layer ++ natLe 3 r.op ++ natLe 1 r.phase ++ natLe 4 r.seq ++ natLe 4 r.arg0 ++ natLe 4 r.arg1)

/-- Base of sink k's registers (R601). -/
def sk (k : Nat) : Nat := dbgPg + 0x140 + 0x20 * k

/-- The KINDS bit of a record kind (R601): task, park, matrix, stream, FGS, ITRACE from bit 1. -/
def kindBit (k : Nat) : Option Nat :=
  if k = 1 ∨ k = 2 then some 1 else if k = 3 ∨ k = 4 then some 2 else if k = 5 then some 3
  else if k = 6 then some 4 else if k = 0x10 ∨ k = 0x11 then some 5 else if k = 0x20 then some 6 else none

/-- Is a record one for sink k, by its ring, kinds, owner and layers (R586). -/
def sinkWants (s : State) (k : Nat) (r : Trace) : Bool :=
  let cfg := regN s (sk k + 0xC)
  let lay := regN s (sk k + 0x10)
  regN s (sk k + 8) != 0 &&
  (match kindBit r.kind with
    | none => true
    | some b => bitOf cfg b && (bitOf cfg 10 || fld cfg 8 2 == r.part) &&
        decide (fld lay 0 16 ≤ r.layer) && decide (r.layer ≤ fld lay 16 16))

/-- Does sink k take a record: it is enabled, and the record is for it (R586). -/
def sinkTakes (s : State) (k : Nat) (r : Trace) : Bool := bitOf (regN s (sk k + 0xC)) 0 && sinkWants s k r

/-- Count a record as lost by a sink (R587, R588). -/
def sinkLose (s : State) (k : Nat) : State :=
  let s1 := bump s (sk k + 0x1C) 1
  raiseIrq { s1 with dbg := { s1.dbg with owed := tset (fun _ => 0) s1.dbg.owed k (tget (fun _ => 0) s1.dbg.owed k + 1) } } .dbg 0 8
    (some (fld (regN s (sk k + 0xC)) 8 2))

/-- A faulting sink write disables the sink (R588). -/
def sinkFault (s : State) (k : Nat) : State :=
  let s1 := sinkLose (clrReg s (sk k + 0xC) 1) k
  raiseErr { s1 with dbg := { s1.dbg with badSinks := k :: s1.dbg.badSinks.filter (fun x => x != k) } } .dbg 0 9
    (some (fld (regN s (sk k + 0xC)) 8 2))

/-- SINK_CFG is written: a sink that is enabled again no longer counts what arrives (R588). -/
def sinkCfg (s : State) (k : Nat) (v : Word) : State :=
  let s1 := setReg s (sk k + 0xC) v
  if bitOf v.toNat 0 then { s1 with dbg := { s1.dbg with badSinks := s1.dbg.badSinks.filter (fun x => x != k) } } else s1

/-- Write one record to a sink's ring (R587). -/
def sinkStore (s : State) (k : Nat) (r : Trace) : State :=
  let a := reg64 s (sk k) (sk k + 4) + 32 * (regN s (sk k + 0x14) % 2 ^ regN s (sk k + 8))
  match vaWriteAll s (fld (regN s (sk k + 0xC)) 8 2) a (traceBytes r) with
  | .ok t => setReg t (sk k + 0x14) (reg t (sk k + 0x14) + 1)
  | .error _ => sinkFault s k

/-- Free slots of a sink. -/
def sinkFree (s : State) (k : Nat) : Nat := 2 ^ regN s (sk k + 8) - ringUsed s (sk k + 0x14) (sk k + 0x18)

/-- Write an owed LOSS record once two slots are free (R587). -/
def sinkOwed (s : State) (k : Nat) : State :=
  let n := tget (fun _ => 0) s.dbg.owed k
  if n = 0 || !bitOf (regN s (sk k + 0xC)) 0 || regN s (sk k + 8) = 0 || decide (sinkFree s k < 2) then s
  else
    let t := sinkStore s k ⟨s.time, 0x30, false, 0, blkCode .dbg, 0xFFFF, 0, 0, 0, 0, n, 0, fld (regN s (sk k + 0xC)) 8 2, []⟩
    if bitOf (regN t (sk k + 0xC)) 0 then { t with dbg := { t.dbg with owed := tset (fun _ => 0) t.dbg.owed k 0 } } else t

/-- A record reaches a sink that takes it (R587). -/
def sinkPut (s : State) (k : Nat) (r : Trace) : State :=
  let s1 := sinkOwed s k
  if tget (fun _ => 0) s1.dbg.owed k != 0 || decide (sinkFree s1 k = 0) then sinkLose s1 k else sinkStore s1 k r

/-- Hand a record to every sink that takes it. -/
def toSinks (s : State) (r : Trace) : State :=
  forAll (List.range 4) (fun k t =>
    if sinkTakes t k r then sinkPut t k r
    else if t.dbg.badSinks.contains k && (kindBit r.kind).isSome && sinkWants t k r then
      -- a sink disabled by a fault counts what arrives for it until it is enabled again (R588)
      sinkLose t k
    else t) s

/-- Blocks that a global stop stops: all but those R595 names (R594, R595). -/
def stopsIn : Blk → Bool
  | .sys | .cmdw | .hbm | .noc | .safe | .pwr | .dbg | .otp | .boot | .sec => false
  | _ => true

/-- Every stopped block reads HALTED, and sets its bit of BLK_IRQ_STAT (R67, R594, log entry 29). -/
def haltAll (s : State) : State :=
  forAll (allBlks.filter stopsIn) (fun b t => forAll (presentList t b) (fun n u => raiseIrq u b n 2 none) t) s

/-- Take a global stop, or deny it (R593, R594): source 1 register, 2 JTAG, 3 trigger. The HBM stacks enter self-refresh (R595). -/
def takeStop (s : State) (src : Nat) : State :=
  if isStopped s then s
  else if !bitOf (regN s (safePg + 0x104)) 0 then raiseErr s .dbg 0 8 none
  else
    let s1 := setReg64 (setRegN s (dbgPg + 0x114) (1 + 16 * src)) (dbgPg + 0x118) (dbgPg + 0x11C) s.time.toNat
    let s2 := orReg { s1 with dbg := { s1.dbg with freezeAt := none } } (dbgPg + 0x104) 1
    let s3 := clrReg s2 (dbgPg + 0x104) 2
    let s4 := raiseIrq (raiseIrq (setReg64 s3 (dbgPg + 0x108) (dbgPg + 0x10C) s.time.toNat) .dbg 0 11 none) .dbg 0 10 none
    haltAll { s4 with pwr := { s4.pwr with hbmSelf := true } }

/-- Request a freeze (true) or an unfreeze (false) 32 ns from now (R578). -/
def reqFreeze (s : State) (f : Bool) : State :=
  if frozen s == f then s
  else
    let t := s.time + 32
    let s1 := orReg { s with dbg := { s.dbg with freezeAt := some (t, f) } } (dbgPg + 0x104) 2
    if f then setReg64 s1 (dbgPg + 0x108) (dbgPg + 0x10C) t.toNat else s1

/-- Does a record meet the armed trigger (R589). -/
def trigHit (s : State) (r : Trace) : Bool :=
  let c := regN s (dbgPg + 0x120)
  bitOf c 31 && fld c 0 7 == r.kind && (!bitOf c 8 || regN s (dbgPg + 0x124) == r.op) &&
    (!bitOf c 9 || (fld r.arg0 0 16 != 0 && (r.kind == 2 || r.kind == 0x11)))

/-- The trigger fires on a record (R589). -/
def trigFire (s : State) (r : Trace) : State :=
  let act := fld (regN s (dbgPg + 0x120)) 12 2
  let s1 := raiseIrq (setRegN (clrReg s (dbgPg + 0x120) (2 ^ 31)) (dbgPg + 0x128) 1) .dbg 0 9 none
  let s2 := toSinks s1 ⟨r.time, 0x31, false, 0, blkCode .dbg, 0xFFFF, 0, 0, 0, 0, act, 0, 0, []⟩
  match act with
  | 1 => reqFreeze s2 true
  | 2 => takeStop s2 3
  | 3 => forAll (List.range 4) (fun k t => clrReg t (sk k + 0xC) 1) s2
  | _ => s2

/-- Hand a record to DBG (R583, R586, R589). -/
def emit (s : State) (r : Trace) : State :=
  let s1 := toSinks (bump s (dbgPg + 0xA00) 1) r
  if trigHit s r then trigFire s1 r else s1

/-- Count an event on the global counters that select it (R577): event code, block type, instance, partition, amount. -/
def gcCount (s : State) (ev : Nat) (b : Blk) (n p k : Nat) : State :=
  forAll (List.range 64) (fun c t =>
    let sel := regN t (dbgPg + 0x200 + 4 * c)
    if bitOf sel 31 && fld sel 0 16 == blkCode b && (fld sel 16 8 == 0xFF || fld sel 16 8 == n) && fld sel 24 3 == ev &&
      (bitOf sel 30 || fld sel 28 2 == p) then bump64 t (dbgPg + 0x800 + 8 * c) k else t) s

end Sys2Proof.Machine
end

