-- ==== Sys2Proof/Machine/Graph.lean ====
section
/-! DEFINITION. The graph image: its tables and the checks of LOAD_GRAPH and START_GRAPH (R8, R31, R92 to R100, R535). -/

namespace Sys2Proof.Machine
open Sys2Proof

/-! ## Reading an image -/

/-- n records of `len` bytes from an offset, read by a function. -/
def readTab {α : Type} (bs : List Byte) (off len n : Nat) (f : List Byte → α) : List α :=
  (List.range n).map (fun i => f ((bs.drop (off + len * i)).take len))

/-- A node record (R94). -/
def readNode (r : List Byte) : GNode :=
  ⟨leAt r 0 2, leAt r 2 1, leAt r 3 1, leAt r 4 2, leAt r 6 3, leAt r 9 1, leAt r 10 2, leAt r 12 2, leAt r 14 2, leAt r 16 4,
   leAt r 20 2, bitOf (leAt r 22 2) 0, bitOf (leAt r 22 2) 1⟩

/-- An edge record (R95). -/
def readEdge (r : List Byte) : GEdge := ⟨leAt r 0 2, leAt r 2 1, leAt r 3 1⟩

/-- A flow record (R96). -/
def readFlow (r : List Byte) : GFlow := ⟨leAt r 0 2, leAt r 2 1, bitOf (leAt r 3 1) 0, leAt r 4 4⟩

/-- A trigger record (R97). -/
def readTrig (r : List Byte) : GTrig :=
  let k := leAt r 2 1
  ⟨leAt r 0 2, k, if k = 1 then ((List.range 8).map (fun i => leAt r (4 + i) 1)).filter (· != 0xFF) else [],
   if k = 2 then leAt r 4 8 else 0, if k = 2 then leAt r 12 8 else 0, if k = 3 ∨ k = 4 then leAt r 4 2 else 0⟩

/-- A task entry (R98). -/
def readTask (r : List Byte) : GTask := ⟨leAt r 0 8, leAt r 8 4, leAt r 12 1, leAt r 16 4, leAt r 20 4⟩

/-- Counts and offsets of the five tables: nodes, edges, flows, triggers, task entries (R93). -/
def tabs (bs : List Byte) : List (Nat × Nat × Nat) :=
  [(leAt bs 32 4, 32, leAt bs 12 2), (leAt bs 36 4, 8, leAt bs 20 4), (leAt bs 40 4, 16, leAt bs 14 2),
   (leAt bs 44 4, 32, leAt bs 16 2), (leAt bs 48 4, 32, leAt bs 18 2)]

/-- The image a byte list spells (R93 to R98). -/
def readImage (bs : List Byte) : Image :=
  { flags := leAt bs 6 2
    seed := leAt bs 24 8
    nodes := readTab bs (leAt bs 32 4) 32 (leAt bs 12 2) readNode
    edges := readTab bs (leAt bs 36 4) 8 (leAt bs 20 4) readEdge
    flows := readTab bs (leAt bs 40 4) 16 (leAt bs 14 2) readFlow
    trigs := readTab bs (leAt bs 44 4) 32 (leAt bs 16 2) readTrig
    tasks := readTab bs (leAt bs 48 4) 32 (leAt bs 18 2) readTask }

/-! ## The checks of R99 -/

/-- Are bytes [a, b) of a record all 0. -/
def zeros (r : List Byte) (a b : Nat) : Bool := ((r.drop a).take (b - a)).all (· == 0)

/-- The tables that hold an entry: one without entries lies nowhere (log entry 28). -/
def fullTabs (bs : List Byte) : List (Nat × Nat × Nat) := (tabs bs).filter (fun t => t.2.2 != 0)

/-- Header and table places (R93, R99, first two points). -/
def headOk (bs : List Byte) (len : Nat) : Bool :=
  let n := bs.length
  decide (64 ≤ n) && leAt bs 0 4 == 0x31534746 && leAt bs 4 2 == 1 && fld (leAt bs 6 2) 3 13 == 0 &&
  leAt bs 8 4 == len && n == len &&
  decide (1 ≤ leAt bs 12 2) && decide (leAt bs 12 2 ≤ 4096) && decide (1 ≤ leAt bs 14 2) && decide (leAt bs 14 2 ≤ 1024) &&
  decide (1 ≤ leAt bs 16 2) && decide (leAt bs 16 2 ≤ 1024) && decide (1 ≤ leAt bs 18 2) && decide (leAt bs 18 2 ≤ 16384) &&
  decide (leAt bs 20 4 ≤ 16384) && zeros bs 52 60 &&
  leAt bs 60 4 == crc32 (bs.take 60 ++ natLe 4 0 ++ bs.drop 64) &&
  (fullTabs bs).all (fun t => t.1 % 8 == 0 && decide (64 ≤ t.1) && decide (t.1 + t.2.1 * t.2.2 ≤ len)) &&
  ((fullTabs bs).zipIdx).all (fun x => ((fullTabs bs).zipIdx).all (fun y =>
    decide (y.2 ≤ x.2) || decide (x.1.1 + x.1.2.1 * x.1.2.2 ≤ y.1.1) || decide (y.1.1 + y.1.2.1 * y.1.2.2 ≤ x.1.1)))

/-- Fields of records stated as 0 (R94 to R98). -/
def fieldsOk (bs : List Byte) : Bool :=
  (readTab bs (leAt bs 32 4) 32 (leAt bs 12 2) (fun r => zeros r 24 32 && fld (leAt r 22 2) 2 14 == 0)).all id &&
  (readTab bs (leAt bs 36 4) 8 (leAt bs 20 4) (fun r => zeros r 4 8)).all id &&
  (readTab bs (leAt bs 40 4) 16 (leAt bs 14 2) (fun r => zeros r 8 16 && fld (leAt r 3 1) 1 7 == 0)).all id &&
  (readTab bs (leAt bs 44 4) 32 (leAt bs 16 2) (fun r => zeros r 3 4 &&
    (match leAt r 2 1 with | 1 => zeros r 12 32 | 2 => zeros r 20 32 | _ => zeros r 6 32))).all id &&
  (readTab bs (leAt bs 48 4) 32 (leAt bs 18 2) (fun r => zeros r 13 16 && zeros r 24 32)).all id

/-- Incoming edges of a node. -/
def edgesOf (im : Image) (n : GNode) : List GEdge := (im.edges.drop n.firstEdge).take n.nEdge

/-- The producers a node waits for over MEMORY and LADLE edges. -/
def depsOf (im : Image) (i : Nat) : List Nat :=
  match im.nodes[i]? with
  | none => []
  | some n => ((edgesOf im n).filter (fun e => e.kind != 2)).map (·.prod)

/-- Remove the nodes all of whose producers are removed, once. -/
def peel (im : Image) (left : List Nat) : List Nat := left.filter (fun i => (depsOf im i).any left.contains)

/-- Do the MEMORY and LADLE edges contain no cycle (R99). -/
def acyclic (im : Image) : Bool :=
  ((List.range im.nodes.length).foldl (fun l _ => peel im l) (List.range im.nodes.length)).isEmpty

/-- Is a flow ID one of the image's. -/
def hasFlow (im : Image) (f : Nat) : Bool := im.flows.any (fun x => x.id == f)

/-- The flow record of an ID. -/
def flowRec (im : Image) (f : Nat) : Option GFlow := im.flows.find? (fun x => x.id == f)

/-- No number twice. -/
def nodupN (l : List Nat) : Bool := (dedupN l).length == l.length

/-- A node's own fields and edges (R94, R99, R535). -/
def nodeOk (im : Image) (p : Nat) (n : GNode) : Bool :=
  (unitTypes.map blkCode).contains n.utype && decide (n.bind ≤ 2) && (n.bind == 2 || n.bindIdx == 0) && decide (1 ≤ n.nTask) &&
  decide (n.firstTask + n.nTask ≤ im.tasks.length) && decide (n.firstEdge + n.nEdge ≤ im.edges.length) && hasFlow im n.flow &&
  (!n.dual || (n.utype == 0x40 && p == 0 && n.bind != 2 && (match flowRec im n.flow with | some f => f.dual | none => false) &&
    (edgesOf im n).all (fun e => e.kind != 1))) &&
  (edgesOf im n).all (fun e => decide (e.prod < im.nodes.length) &&
    (match im.nodes[e.prod]? with
      | none => false
      | some q => (e.kind == 0 || q.flow == n.flow) &&
        (e.kind != 1 || (decide (0x30 ≤ q.utype) && decide (q.utype ≤ 0x34) && n.utype == 0x40))))

/-- An edge's own fields (R95). -/
def edgeOk (im : Image) (e : GEdge) : Bool :=
  decide (e.kind ≤ 2) && (e.kind == 1 || e.ladle == 0) && decide (e.prod < im.nodes.length)

/-- A flow's own fields (R31, R96, R99, R535). -/
def flowOk (im : Image) (p : Nat) (f : GFlow) : Bool :=
  decide (f.id ≤ 0xFFFE) && decide (1 ≤ f.maxOut) && decide (f.maxOut ≤ 64) &&
  (f.bound == 0 || (decide (100 ≤ f.bound) && decide (f.bound ≤ 1000000))) && (!f.dual || p == 0) &&
  (im.trigs.filter (fun t => t.flow == f.id)).length == 1 &&
  decide ((im.nodes.filter (fun n => n.dual && n.flow == f.id)).length ≤ 64)

/-- A trigger's own fields (R97, R99). -/
def trigOk (im : Image) (t : GTrig) : Bool :=
  decide (1 ≤ t.kind) && decide (t.kind ≤ 4) && hasFlow im t.flow &&
  (t.kind != 1 || (!t.streams.isEmpty && nodupN t.streams)) && (t.kind != 2 || decide (1000 ≤ t.period))

/-- A task entry's own fields (R98). -/
def taskOk (t : GTask) : Bool := decide (1 ≤ t.rotate) && decide (t.rotate ≤ 64)

/-- Does a graph hold its index: every loaded one, but not one a function-level reset flushed (R88). -/
def holdsIndex (g : Graph) : Bool := g.stat != .free && g.stat != .flushed

/-- Flow IDs held by the loaded graphs of a partition. -/
def heldFlows (s : State) (p : Nat) : List Nat :=
  s.graphs.flatMap (fun e => if holdsIndex e.2 && e.2.part == p then e.2.img.flows.map (·.id) else [])

/-- Logical indices an image uses of a unit type, and the least number of instances it needs (R8). -/
def needOf (im : Image) (b : Blk) : Nat :=
  (im.nodes.filter (fun n => n.utype == blkCode b)).foldl
    (fun k n => max k (if n.bind = 2 then n.bindIdx + 1 else if n.dual then 2 else 1)) 0

/-- Least number of stream contexts and of ladles the image's indices need. -/
def needStreams (im : Image) : Nat := (im.trigs.flatMap (·.streams)).foldl (fun k i => max k (i + 1)) 0
def needLadles (im : Image) : Nat := (im.edges.filter (fun e => e.kind == 1)).foldl (fun k e => max k (e.ladle + 1)) 0

/-- Instances of a unit type the part presents for binding: each DMA channel counts (R444); the transport is one, where a FABP is present. -/
def typeCount (s : State) (b : Blk) : Nat :=
  match b with
  | .dma => if present s .dma 0 then 32 else 0
  | .rolv => if present s .rolv 0 && !(presentList s .fabp).isEmpty then 1 else 0
  | b => (presentList s b).length

/-- Do the stereo engines of the part fuse more than two views: MULTI_BASELINE (R7, R247). -/
def multiBase (s : State) : Bool := bitOf s.boot.fuses 10

/-- Does an image require multi-baseline fusion: the command of one of its stereo tasks, as it stands in memory, names more than two views
(R8, R247, R250; log entry 120). -/
def needsFusion (s : State) (p : Nat) (im : Image) : Bool :=
  im.nodes.any (fun n => n.utype == blkCode .str && (rangeFrom n.firstTask n.nTask).any (fun i =>
    match vaNat s p ((nth ⟨0, 0, 1, 0, 0⟩ im.tasks i).cmdAddr + 3) 1 with
    | .ok v => decide (2 < v)
    | .error _ => false))

/-- The image against the part: instances, and capabilities those present report (R8, R93 flags, R132). -/
def partOk (s : State) (p : Nat) (im : Image) : Bool :=
  (im.trigs.all (fun t => t.kind != 4) || !(presentList s .fabp).isEmpty) && (multiBase s || !needsFusion s p im) &&
  unitTypes.all (fun b => decide (needOf im b ≤ typeCount s b)) && decide (needStreams im ≤ (presentList s .cams).length) &&
  decide (needLadles im ≤ (presentList s .ladle).length) && (!bitOf im.flags 1 || !(presentList s .fabp).isEmpty) &&
  (!bitOf im.flags 2 || decide (2 ≤ (presentList s .nc).length))

/-- Every check of R99 that concerns the image itself and the partition's other graphs. -/
def imageOk (s : State) (p len : Nat) (bs : List Byte) : Bool :=
  let im := readImage bs
  headOk bs len && fieldsOk bs && im.nodes.all (nodeOk im p) && im.edges.all (edgeOk im) && im.flows.all (flowOk im p) &&
  im.trigs.all (trigOk im) && im.tasks.all taskOk && acyclic im && nodupN (im.flows.map (·.id)) &&
  im.flows.all (fun f => !(heldFlows s p).contains f.id) && nodupN (im.trigs.flatMap (·.streams)) &&
  nodupN ((im.trigs.filter (fun t => t.kind == 3)).map (·.num)) && partOk s p im

/-- Sum of a count over loaded graphs, of one partition or of all. -/
def tableUse (s : State) (p : Option Nat) (f : Image → Nat) : Nat :=
  s.graphs.foldl (fun k e => if holdsIndex e.2 && (match p with | none => true | some q => e.2.part == q) then k + f e.2.img else k) 0

/-- Would the image exceed the tables of R91 or the quotas of its partition (R92). -/
def tableFull (s : State) (p : Nat) (im : Image) : Bool :=
  let qa := regN s (pg .fgs 0 + 0x140 + 8 * p)
  let qb := regN s (pg .fgs 0 + 0x144 + 8 * p)
  let ovr := fun (f : Image → Nat) (cap : Nat) => decide (cap < tableUse s none f + f im)
  let ovrQ := fun (f : Image → Nat) (q : Nat) => decide (q < tableUse s (some p) f + f im)
  ovr (fun _ => 1) 256 || ovr (·.nodes.length) 4096 || ovr (·.flows.length) 1024 || ovr (·.tasks.length) 16384 ||
  ovr (·.trigs.length) 1024 || ovr (·.edges.length) 16384 ||
  ovrQ (fun _ => 1) (fld qb 16 9) || ovrQ (·.nodes.length) (fld qa 16 13) || ovrQ (·.flows.length) (fld qa 0 11) ||
  ovrQ (·.tasks.length) (fld qb 0 15)

/-! ## Binding at START_GRAPH -/

/-- DMA channels assigned to a partition, ascending (R456). -/
def chanList (s : State) (p : Nat) : List Nat :=
  (List.range 32).filter (fun c => let v := regN s (pg .dma 0 + 0x200 + 0x20 * c); bitOf v 8 && v % 4 == p)

/-- Instances a partition may use of a unit type, ascending (R30, R100). -/
def poolOf (s : State) (b : Blk) (p : Nat) : List Nat :=
  match b with
  | .dma => chanList s p
  | .rolv => List.range (typeCount s .rolv)
  | b => ownedList s b p

/-- Streams named by triggers of started graphs, as stream contexts. -/
def busyStreams (s : State) : List Nat :=
  s.graphs.flatMap (fun e => if isStarted e.2 then (e.2.binds.filter (fun x => x.1 == blkCode .cams)).map (·.2.2) else [])

/-- The bindings of an image's indices to a partition's instances: (type, logical index, instance), or none (R100). -/
def bindAll (s : State) (p : Nat) (im : Image) : Option (List (Nat × Nat × Nat)) :=
  let want : List (Blk × Nat) :=
    unitTypes.flatMap (fun b => ((im.nodes.filter (fun n => n.utype == blkCode b && n.bind == 2)).map (fun n => (b, n.bindIdx)))) ++
    (im.trigs.flatMap (·.streams)).map (fun k => (Blk.cams, k)) ++
    (im.edges.filter (fun e => e.kind == 1)).map (fun e => (Blk.ladle, e.ladle))
  want.foldr (fun x acc => match acc, (if x.1 = .cams then ownedList s .cams p else if x.1 = .ladle then ownedList s .ladle p
      else poolOf s x.1 p)[x.2]? with
    | some l, some i => some (if l.contains (blkCode x.1, x.2, i) then l else (blkCode x.1, x.2, i) :: l)
    | _, _ => none) (some [])

/-- Does a partition own enough instances for the image (R8, R30, R100). -/
def ownsEnough (s : State) (p : Nat) (im : Image) : Bool :=
  unitTypes.all (fun b => decide (needOf im b ≤ (poolOf s b p).length)) &&
  decide (needStreams im ≤ (ownedList s .cams p).length) && decide (needLadles im ≤ (ownedList s .ladle p).length)

/-- The instance a logical index is bound to. -/
def boundTo (g : Graph) (b : Blk) (k : Nat) : Option Nat :=
  (g.binds.find? (fun x => x.1 == blkCode b && x.2.1 == k)).map (·.2.2)

/-- Age-monitor slots free (R91). -/
def freeAges (s : State) : List Nat := (List.range 256).filter (fun i => !(ageAt s i).valid)

/-- Dual-flow entries free (R535). -/
def freeDuals (s : State) : List Nat :=
  (List.range 64).filter (fun i => !(tget (fun _ => ({} : DualFlow)) s.safe.dual i).valid)

end Sys2Proof.Machine
end

