-- ==== Sys2Proof/Machine/Island.lean ====
section
/-! DEFINITION. The safety island's records: verdict ring, fault FIFO, SAFE_N (R517 to R526, R546, R547). -/

namespace Sys2Proof.Machine
open Sys2Proof

/-- Causes of R520 with their classes: T 0, F 1, U 2, D 3. -/
def causeClass (c : Nat) : Nat :=
  if c = 0x20 ∨ c = 0x40 then 0 else if c = 0x21 then 1 else if c = 0x10 ∨ c = 0x11 ∨ c = 0x12 then 2 else 3

/-- The 32 bytes of a fault record (R547). -/
def faultBytes (r : FaultRec) : List Byte :=
  let b := natLe 8 r.time.toNat ++ natLe 1 r.cause ++ natLe 1 r.cls ++ natLe 2 r.code ++ natLe 1 r.inst ++ natLe 1 r.part ++
    natLe 2 r.flow ++ natLe 4 r.seq ++ natLe 8 r.detail
  b ++ natLe 4 (crc32 b)

/-- Drive SAFE_N: asserted (true) or deasserted; a change raises SAFE_N_CHANGE (R517, R546). -/
def setSafeN (s : State) (on : Bool) : State :=
  if s.safe.safeN == on then s
  else
    let s1 := { s with safe := { s.safe with safeN := on } }
    raiseIrq (if on then orReg s1 (safePg + 0x104) 1 else clrReg s1 (safePg + 0x104) 1) .safe 0 9 none

/-- Latch PERM_FAULT and the first fault of class F, U or D in SAFE_STAT (R521). -/
def latchFirst (s : State) (cause cls : Nat) : State :=
  if cls = 0 then s
  else if bitOf (regN s (safePg + 0x104)) 2 then s
  else orReg s (safePg + 0x104) (4 + cause * 2 ^ 8 + cls * 2 ^ 16)

/-- Detect a fault: one record, and for classes F, U and D a reaction to come (R519, R521, R547). -/
def pushFault (s : State) (r : FaultRec) : State :=
  let s1 := if s.safe.faults.length < 32 then { s with safe := { s.safe with faults := s.safe.faults ++ [r] } }
    else raiseErr (bump s (safePg + 0x81C) 1) .safe 0 9 none
  let s2 := latchFirst s1 r.cause r.cls
  let s3 := if r.cls = 0 then s2 else { s2 with safe := { s2.safe with react := s2.safe.react ++ [r] } }
  raiseIrq s3 .safe 0 8 (if r.part < 4 then some r.part else none)

/-- A fault of a cause, of a block instance. -/
def fault (s : State) (cause : Nat) (b : Blk) (inst : Nat) : State :=
  pushFault s ⟨s.time, cause, causeClass cause, blkCode b, inst, 0xFF, 0xFFFF, 0, 0⟩

/-! ## The verdict ring -/

/-- The 32 bytes of a verdict record (R523); `count` is VERDICT_COUNT. -/
def verdictBytes (v : Verdict) (count : Nat) : List Byte :=
  let b := natLe 8 v.time.toNat ++ natLe 2 v.flow ++ natLe 1 v.verdict ++ natLe 1 v.flags ++ natLe 4 v.seq.toNat ++ natLe 4 v.age ++
    natLe 4 count ++ natLe 4 v.crc
  b ++ natLe 4 (crc32 b)

/-- Is the verdict ring full (R525). -/
def vrFull (s : State) : Bool := ringFull s (safePg + 0x12C) (safePg + 0x130) (safePg + 0x128)

/-- Is the release of D0 flows held by the verdict ring (R525, R651). -/
def vrBlocked (s : State) : Bool :=
  regN s (safePg + 0x128) = 0 || vrFull s || !s.safe.vheld.isEmpty || s.safe.vfault

/-- Write waiting verdict records in order (R525). -/
def vDrainList : List Verdict → State → List Verdict × State
  | [], s => ([], s)
  | v :: r, s =>
    if regN s (safePg + 0x128) = 0 || vrFull s || s.safe.vfault then (v :: r, s)
    else match vaWriteAll s 0 (reg64 s (safePg + 0x120) (safePg + 0x124) +
        32 * (regN s (safePg + 0x12C) % 2 ^ regN s (safePg + 0x128))) (verdictBytes v s.safe.vcount) with
      | .ok t => vDrainList r (bump
          { setReg t (safePg + 0x12C) (reg t (safePg + 0x12C) + 1) with safe := { t.safe with vcount := t.safe.vcount + 1 } }
          (safePg + if v.verdict = 1 then 0x810 else 0x814) 1)
      | .error _ => (v :: r, raiseErr { s with safe := { s.safe with vfault := true } } .safe 0 11 none)

/-- Resume verdict writing; VRING_FULL rises when a record is written or waits and the ring is then full (R525, R546). -/
def vDrain (s : State) : State :=
  let (h, t) := vDrainList s.safe.vheld s
  let t1 := { t with safe := { t.safe with vheld := h } }
  if !s.safe.vheld.isEmpty && vrFull t1 then raiseIrq t1 .safe 0 12 none else t1

/-- A verdict record is owed (R523). -/
def pushVerdict (s : State) (v : Verdict) : State :=
  vDrain { s with safe := { s.safe with vheld := s.safe.vheld ++ [v] } }

/-- Retry a faulted verdict ring (R651). -/
def vRetry (s : State) : State := vDrain { s with safe := { s.safe with vfault := false } }

/-- VERDICT of a completion record (R524); `safeN` is SAFE_N at the release instant. -/
def verdictOf (r : Cpl) (safeN : Bool) : Nat :=
  if r.status = stFlowStopped ∨ r.status = stCancelled then 5
  else if r.status ≠ stOk then 4
  else if bitOf r.flags 1 || bitOf r.flags 2 || safeN then 3
  else if bitOf r.flags 0 then 2
  else 1

/-- Write a result's completion record and, for D0, its verdict (R81, R523). -/
def pushResult (s : State) (p : Nat) (r : Cpl) : State :=
  let s1 := pushCpl s p r
  if p = 0 then
    pushVerdict s1 ⟨s.time, r.flow, verdictOf r s.safe.safeN, r.flags % 32, r.seq, r.age, leAt (cplBytes r) 28 4⟩
  else s1

end Sys2Proof.Machine
end

