-- ==== Sys2Proof/Machine/Fgs.lean ====
section
/-! DEFINITION. The frame-graph sequencer: reservation, formation, readiness, placement, ends, release and stopping (R100 to R131, R653 to R656). -/

namespace Sys2Proof.Machine
open Sys2Proof

/-- Page of FGS. -/
def fgsPg : Nat := pg .fgs 0

/-- Counters of a partition (R132): HAMPERS_FORMED, RESULTS_RELEASED, STALE_RELEASED, JOINS_ABANDONED, ADMIT_REFUSED, TIMER_MISSED,
TASKS_PARKED, TASK_FAULTS at 0, 4, 8 and so on. -/
def fgsCnt (p off : Nat) : Nat := fgsPg + 0x800 + 0x20 * p + off

/-! ## Flows, hampers and tasks -/

/-- The flow state at an index of a graph. -/
def flowAt (g : Graph) (f : Nat) : FlowSt := nth {} g.flows f

/-- Change the flow state at an index of a graph. -/
def modFlow (s : State) (g f : Nat) (k : FlowSt → FlowSt) : State :=
  let x := graphAt s g
  setGraph s g { x with flows := modNth k f x.flows }

/-- The flow record at an index of a graph. -/
def flowRecAt (g : Graph) (f : Nat) : GFlow := nth ⟨0xFFFF, 1, false, 0⟩ g.img.flows f

/-- Index of a flow ID in a graph. -/
def flowIdx (g : Graph) (id : Nat) : Option Nat := g.img.flows.findIdx? (fun x => x.id == id)

/-- The node at an index of a graph. -/
def nodeAt (g : Graph) (i : Nat) : GNode := nth ⟨0, 0, 0, 0, 0, 0, 0, 0, 0, 0, 0, false, false⟩ g.img.nodes i

/-- The task entry at an index of a graph. -/
def taskEnt (g : Graph) (i : Nat) : GTask := nth ⟨0, 0, 1, 0, 0⟩ g.img.tasks i

/-- Nodes of a flow, by index. -/
def nodesOf (g : Graph) (f : Nat) : List Nat :=
  (List.range g.img.nodes.length).filter (fun i => (nodeAt g i).flow == (flowRecAt g f).id)

/-- Tasks a hamper of a flow holds: each task entry of each node, twice for SAFETY_DUAL nodes (R101, R115). -/
def tasksOf (g : Graph) (f : Nat) : List Task :=
  (nodesOf g f).flatMap (fun i =>
    let n := nodeAt g i
    (rangeFrom n.firstTask n.nTask).flatMap (fun e =>
      if n.dual then [⟨i, e, 0, .waiting, 0⟩, ⟨i, e, 1, .waiting, 0⟩] else [⟨i, e, 0, .waiting, 0⟩]))

/-- Hampers of a flow, oldest first. -/
def hampersOf (s : State) (g f : Nat) : List Hamper := s.hampers.filter (fun h => h.graph == g && h.flow == f)

/-- Change the hampers that meet a test. -/
def modHampers (s : State) (t : Hamper → Bool) (k : Hamper → Hamper) : State :=
  { s with hampers := s.hampers.map (fun h => if t h then k h else h) }

/-- Is a hamper the one of a graph, flow and sequence. -/
def isHamper (g f : Nat) (q : Word) (h : Hamper) : Bool := h.graph == g && h.flow == f && h.seq == q

/-- Is a task entry of a live hamper still held: not completed and not removed (R91, R130). -/
def taskLive (t : Task) : Bool :=
  match t.at_ with
  | .ended _ | .removed => false
  | _ => true

/-- Is a task at its end. -/
def taskDone (t : Task) : Bool := !taskLive t

/-- The status a task ended with. -/
def taskStat (t : Task) : Option Nat :=
  match t.at_ with
  | .ended st => some st
  | _ => none

/-- Live-hamper entries in use (R91). -/
def liveHampers (s : State) : Nat :=
  s.hampers.length + s.graphs.foldl (fun k e => k + e.2.flows.foldl (fun j f => j + f.resv.length) 0) 0

/-- Live hampers of a partition: reserved or formed, and cancelled ones whose tasks have not ended (R103, R130). -/
def partHampers (s : State) (p : Nat) : Nat :=
  (s.hampers.filter (fun h => (graphAt s h.graph).part == p)).length +
  s.graphs.foldl (fun k e => if e.2.part == p then k + e.2.flows.foldl (fun j f => j + f.resv.length) 0 else k) 0

/-- Tasks of formed hampers not yet completed. -/
def formedTasks (s : State) : Nat := s.hampers.foldl (fun k h => k + (h.tasks.filter taskLive).length) 0

/-- Tasks that the reserved hampers of a graph will hold. -/
def reservedTasks (g : Graph) : Nat := g.flows.zipIdx.foldl (fun k x => k + x.1.resv.length * (tasksOf g x.2).length) 0

/-- Live-task entries in use or owed to a reserved hamper (R91). -/
def liveTasks (s : State) : Nat := s.graphs.foldl (fun k e => k + reservedTasks e.2) (formedTasks s)

/-- Hampers a flow has reserved or formed and not yet released (R103). -/
def outstandingHampers (s : State) (g f : Nat) : Nat :=
  (hampersOf s g f).length + (flowAt (graphAt s g) f).resv.length

/-- Have the live-hamper and live-task tables room for a hamper of a flow (R91, R103). -/
def tablesRoom (s : State) (g f : Nat) : Bool :=
  decide (liveHampers s < 4096) && decide (liveTasks s + (tasksOf (graphAt s g) f).length ≤ 65536)

/-- Has a flow, its partition and the sequencer room for one more hamper (R103). -/
def roomFor (s : State) (g f : Nat) : Bool :=
  let x := graphAt s g
  let cap := fld (regN s (fgsPg + 0x120 + 4 * x.part)) 0 12
  decide (outstandingHampers s g f < (flowRecAt x f).maxOut) &&
  (cap == 0 || decide (partHampers s x.part < cap)) && tablesRoom s g f

/-! ## Abandoning and stopping -/

/-- Is a match set of a partition read by a running replay-exact graph, with the lock on (R302). -/
def genLocked (s : State) (p : Nat) : Bool :=
  bitOf (app s 0x180) 2 && s.graphs.any (fun e => isStarted e.2 && e.2.part == p && bitOf e.2.img.flags 0)

/-- Does the shadow of an ISP change a curve set while TONE_LOCK is on and a graph with REX_REQUIRED runs in the owner (R200). -/
def toneHeld (s : State) (u : Nat) : Bool :=
  (List.range 32).any (fun k => regN s (pg .isp u + 0x100 + 4 * k) != app s (pg .isp u + 0x100 + 4 * k)) &&
  bitOf (app s 0x180) 1 &&
  s.graphs.any (fun e => isStarted e.2 && e.2.part == owner s .isp u && bitOf e.2.img.flags 0)

/-- How a pending commit of an ISP stands: 0 not held, 1 held, 2 held until the next formation, 3 free after it (R42, R200). -/
def toneSt (s : State) (u : Nat) : Nat := tget (fun _ => 0) s.tone u

/-- Set it. -/
def setTone (u v : Nat) (s : State) : State := { s with tone := tset (fun _ => 0) s.tone u v }

/-- Is the pending commit of an ISP held (R200). -/
def commitHeld (s : State) (u : Nat) : Bool := toneSt s u == 1 || toneSt s u == 2

/-- Pending ISP commits that TONE_LOCK begins to hold: each is shown, flagged and counted once (R200). -/
def toneBegin (s : State) : State :=
  forAll ((presentList s .isp).filter (fun u => s.commits.contains (pg .isp u) && toneSt s u == 0 && toneHeld s u))
    (fun u t => setTone u 1 (bump (rexViol (raiseIrq t .isp u 9 none) 1) (pg .isp u + 0x814) 1)) s

/-- The graphs that held updates have stopped: what they held is due at the next formation, whatever starts before it (R42). -/
def lockEnds (s : State) : State :=
  forAll ((presentList s .isp).filter (fun u => toneSt s u == 1 && !toneHeld s u)) (setTone · 2)
    { s with fms := { s.fms with loads := s.fms.loads.map (fun l => if l.deferred && !genLocked s l.part then { l with due := true } else l) } }

/-- Settle the end of a stopping graph whose last task has ended (R88, R130, R656, R454, R528): GRAPH_STOP entry, FINAL records, ladles
emptied, bindings ended; after a function-level reset no record, and the index is free. -/
def finishGraph (s : State) (gi : Nat) : State :=
  let g := graphAt s gi
  if !(g.stat == .drain || g.stat == .cancel || g.stat == .flushed) || s.hampers.any (fun h => h.graph == gi) then s
  else
    let s1 := dlogPut s g.part 0x0002 (gi % 256) (match g.lastSeq with | some q => q.toNat | none => 0) (b2n g.lastSeq.isSome) 0
    let s2 := forAll ((g.binds.filter (fun b => b.1 == blkCode .ladle)).map (·.2.2)) (fun l t =>
      bump (setLadle t l { ladleAt t l with q := [], bound := none, aborted := [] }) (pg .ladle l + 0x818) (ladleAt t l).q.length) s1
    let s3 := { s2 with safe := { s2.safe with dual := s2.safe.dual.filter (fun e => e.2.graph != gi) } }
    if g.stat = .flushed then lockEnds (setGraph { s3 with ages := s3.ages.filter (fun e => e.2.graph != gi) } gi {})
    else
      let s4 := lockEnds (setGraph s3 gi { g with stat := .loaded, binds := [], flows := [], handle := 0, stopHandle := 0, lastSeq := none })
      pushFinal (pushFinal s4 g.handle stOk (blkCode .fgs)) g.stopHandle stOk (blkCode .fgs)

/-- Count abandoned sequences of a partition. -/
def countAbandoned (s : State) (p n : Nat) : State := bump s (fgsCnt p 0xC) n

/-- Abandon a reserved sequence of a flow (R104). -/
def abandonSeq (s : State) (gi f : Nat) (q : Word) : State :=
  let fl := flowAt (graphAt s gi) f
  if fl.resv.any (fun r => r.seq == q) then
    countAbandoned (modFlow s gi f (fun x => { x with resv := x.resv.filter (fun r => r.seq != q) })) (graphAt s gi).part 1
  else s

/-- Report every formed, unreported hamper of a flow by one record, in sequence (R85, R131). -/
def reportFlow (s : State) (gi f status flags : Nat) : State :=
  let g := graphAt s gi
  forAll ((hampersOf s gi f).filter (fun h => !h.cancelled && !h.stopped)) (fun h t =>
    pushResult t g.part ⟨if h.handle = 0 then g.handle else h.handle, status, blkCode .fgs, (flowRecAt g f).id,
      flags + h.flags + (if h.handle = 0 then 0 else flFinal), h.seq, t.time,
      satN 0xFFFF_FFFF ((t.time - h.stamp).toNat / 1000)⟩) s

/-- Report reserved RUN_ONCE sequences of a flow, which never form now; abandon the others, which JOINS_ABANDONED counts (R130 to R132, R653;
log entry 123 for the former). -/
def dropResv (s : State) (gi f status flags : Nat) : State :=
  let g := graphAt s gi
  let rs := (flowAt g f).resv
  let s1 := forAll (rs.filter (fun r => r.handle != 0)) (fun r t =>
    pushResult t g.part ⟨r.handle, status, blkCode .fgs, (flowRecAt g f).id, flags + flFinal, r.seq, t.time, 0⟩) s
  countAbandoned (modFlow s1 gi f (fun x => { x with resv := [] })) g.part (rs.filter (fun r => r.handle == 0)).length

/-- Tasks not yet in a running slot are removed; running and parked ones stay (R130). -/
def removeWaiting (t : Task) : Task :=
  match t.at_ with
  | .waiting | .prefetched _ => { t with at_ := .removed }
  | _ => t

/-- Take the tasks of a flow's hampers out of prefetched slots (R130). -/
def unplace (s : State) (gi f : Nat) : State :=
  { s with units := s.units.map (fun e => match e.2.pre with
      | some r => if r.graph == gi && r.flow == f then (e.1, { e.2 with pre := none }) else e
      | none => e) }

/-- Drop units equal to their default, so that the table keeps its form. -/
def normUnits (s : State) : State := { s with units := s.units.filter (fun e => e.2 != {}) }

/-- Forget hampers that were cancelled or reported and whose last task has ended (R130). -/
def sweep (s : State) : State :=
  { s with hampers := s.hampers.filter (fun h => !((h.cancelled || h.stopped) && h.tasks.all taskDone)) }

/-- Discard the formed hampers of a flow: report each, remove what does not run (R85, R130, R131). -/
def discardFlow (s : State) (gi f status flags : Nat) (stop : Bool) : State :=
  let s1 := reportFlow s gi f status flags
  let s2 := normUnits (unplace s1 gi f)
  let s3 := modHampers s2 (fun h => h.graph == gi && h.flow == f) (fun h =>
    { h with tasks := h.tasks.map removeWaiting, cancelled := h.cancelled || !stop, stopped := h.stopped || stop })
  sweep (dropResv s3 gi f status flags)

/-- FLOW_STOP entry of a flow (R45, R656). -/
def logFlowStop (s : State) (gi f reason : Nat) : State :=
  let g := graphAt s gi
  let fl := flowAt g f
  dlogPut s g.part 0x0020 (flowRecAt g f).id (match fl.highForm with | some q => (q + 1).toNat | none => 0) (b2n fl.highForm.isSome) reason

/-- Flow indices of a graph in ascending flow ID (R656). -/
def flowsById (g : Graph) : List Nat :=
  ((List.range g.img.flows.length).map (fun i => ((flowRecAt g i).id, i))).mergeSort (fun a b => decide (a.1 ≤ b.1)) |>.map (·.2)

/-- The island stops one flow (R131): FLOW_STOP with reason 1, its hampers reported FLOW_STOPPED with NOT_SAFE. -/
def islandStop (gi f : Nat) (s : State) : State :=
  let g := graphAt s gi
  if !(isStarted g) || (flowAt g f).stopped then s
  else
    let s1 := logFlowStop s gi f 1
    let s2 := discardFlow s1 gi f stFlowStopped flNotSafe true
    let s3 := modFlow s2 gi f (fun x => { x with stopped := true })
    finishGraph (raiseIrq s3 .fgs 0 11 (some g.part)) gi

/-! ## Reservation and formation -/

/-- Reserve a sequence of a flow (R101). -/
def reserve (s : State) (gi f : Nat) (r : Resv) : State :=
  modFlow s gi f (fun x => { x with resv := x.resv ++ [r], highResv := some r.seq })

/-- Is a reserved sequence ready to form: every stream of a CAMERA trigger has delivered its frame end (R105). -/
def resvReady (tr : GTrig) (r : Resv) : Bool :=
  tr.kind != 1 || tr.streams.all (fun k => r.ends.any (fun e => e.1 == k))

/-- The stamp of a hamper: for CAMERA the latest last-pixel stamp (R106). -/
def resvStamp (tr : GTrig) (r : Resv) : DWord :=
  if tr.kind = 1 then r.ends.foldl (fun m e => if m.toNat < e.2.1.toNat then e.2.1 else m) 0 else r.stamp

/-- PARTIAL and SETTINGS_LATE from the metadata flags of the frames (R107). -/
def resvFlags (r : Resv) : Nat :=
  (if r.ends.any (fun e => bitOf e.2.2 0 || bitOf e.2.2 1) then flPartial else 0) +
  (if r.ends.any (fun e => bitOf e.2.2 4) then flLate else 0)

/-- May a partition form hampers: FORM_EN of its grant (R20, R105). -/
def formEn (s : State) (p : Nat) : Bool := bitOf (regN s (fgsPg + 0x120 + 4 * p)) 31

/-- The trigger of a flow. -/
def trigOf (g : Graph) (f : Nat) : GTrig :=
  (g.img.trigs.find? (fun t => t.flow == (flowRecAt g f).id)).getD ⟨0, 0, [], 0, 0, 0⟩

/-- Trigger index of a flow within its image. -/
def trigIdx (g : Graph) (f : Nat) : Nat :=
  (g.img.trigs.findIdx? (fun t => t.flow == (flowRecAt g f).id)).getD 0

/-- Does a safe-state request not yet taken affect a flow: class F its flow, U the flows of D0, D every flow (R21, R519). -/
def affected (s : State) (gi f : Nat) : Bool :=
  let g := graphAt s gi
  s.safe.react.any (fun r => match r.cls with
    | 1 => r.part == g.part && r.flow == (flowRecAt g f).id
    | 2 => g.part == 0
    | _ => true)

/-- The first reservation of a flow that can form now. -/
def formable (s : State) (gi f : Nat) : Option Resv :=
  let g := graphAt s gi
  let fl := flowAt g f
  if g.stat != .started || fl.stopped || !formEn s g.part || affected s gi f then none
  else fl.resv.find? (resvReady (trigOf g f))

/-- Started graphs with their flows in the order of R108: partition, graph slot, trigger index. -/
def formOrder (s : State) : List (Nat × Nat) :=
  (List.range 4).flatMap (fun p =>
    (s.graphs.filter (fun e => e.2.part == p && e.2.stat == .started)).flatMap (fun e =>
      (e.2.img.trigs.filterMap (fun t => flowIdx e.2 t.flow)).map (fun f => (e.1, f))))

/-- Cross-flow edges of a flow's nodes with g, the highest sequence formed of the producer's flow (R123): edge index, g, and whether the
producer node faulted in g, if that hamper has left the tables. -/
def crossOf (g : Graph) (f : Nat) : List (Nat × Option Word × Bool) :=
  (nodesOf g f).flatMap (fun i => (rangeFrom (nodeAt g i).firstEdge (nodeAt g i).nEdge).filterMap (fun e =>
    let ed := nth ⟨0, 0, 0⟩ g.img.edges e
    if ed.kind = 0 ∧ (nodeAt g ed.prod).flow ≠ (nodeAt g i).flow then
      let x := match flowIdx g (nodeAt g ed.prod).flow with | some pf => flowAt g pf | none => {}
      some (e, x.highForm, match x.lastRel with | some (l, bad) => x.highForm == some l && bad.contains ed.prod | none => false)
    else none))

/-- Trace record of the sequencer (R581). -/
def fgsTrace (s : State) (kind : Nat) (g : Graph) (f : Nat) (q : Word) (a0 a1 : Nat) : State :=
  emit s ⟨s.time, kind, false, 0, blkCode .fgs, (flowRecAt g f).id, 0, 0, 0, q.toNat, a0, a1, g.part, []⟩

/-! ## Readiness -/

/-- What an edge says of a task: wait, or go on with the fault of a producer if there is one (R119, R121, R123). -/
inductive EdgeSt
  | wait
  | pass (fault : Option Nat)
  deriving DecidableEq, Repr

/-- State of a set of producer tasks: waiting while one has not ended, then the first error status among them. -/
def tasksEdge (ts : List Task) : EdgeSt :=
  if ts.any (fun t => match t.at_ with | .ended _ => false | .removed => false | _ => true) then .wait
  else .pass (ts.findSome? (fun t => match t.at_ with | .ended (st + 1) => some (st + 1) | _ => none))

/-- The record of a dual task. -/
def pairOf (s : State) (h : Hamper) (node idx : Nat) : Option DualPair :=
  s.safe.pairs.find? (fun d => d.graph == h.graph && d.flow == h.flow && d.seq == h.seq && d.node == node && d.idx == idx)

/-- Have both copies of every task of a dual node been compared (R538). A task that never ran, for the fault of a producer, has no signatures
to compare (R121; log entry 121). -/
def nodeCompared (s : State) (h : Hamper) (i : Nat) : Bool :=
  !(nodeAt (graphAt s h.graph) i).dual || h.inputFault ||
  ((h.tasks.filter (fun t => t.node == i && t.copy == 0)).all (fun t => match t.at_, pairOf s h i t.idx with
    | .removed, _ => true
    | _, some d => d.compared
    | .ended _, none => t.unit == 0
    | _, none => false))

/-- The state of a producer node in a live hamper. -/
def nodeEdge (s : State) (h : Hamper) (i : Nat) : EdgeSt :=
  match tasksEdge (h.tasks.filter (fun t => t.node == i)) with
  | .wait => .wait
  | .pass x => if nodeCompared s h i then .pass x else .wait

/-- The state of a PREVIOUS edge of hamper s: hamper s - 1 of the flow (R102, R119). -/
def prevEdge (s : State) (h : Hamper) (prod : Nat) : EdgeSt :=
  let q := h.seq - 1
  let fl := flowAt (graphAt s h.graph) h.flow
  if h.seq = 0 then .pass none
  else match s.hampers.find? (isHamper h.graph h.flow q) with
    | some o => nodeEdge s o prod
    | none => if fl.resv.any (fun r => r.seq == q) then .wait
      else match fl.lastRel with
        | some (l, bad) => if l = q ∧ bad.contains prod then .pass (some 0x0101) else .pass none
        | none => .pass none

/-- The state of a cross-flow edge: the producer node in hamper g and in every formed hamper below g; a fault of one of them reaches the
consumer (R121, R123). -/
def crossEdge (s : State) (h : Hamper) (g : Option Word) (bad : Bool) (prod : Nat) : EdgeSt :=
  match g with
  | none => .pass none
  | some gq =>
    let gr := graphAt s h.graph
    match flowIdx gr (nodeAt gr prod).flow with
    | none => .pass none
    | some pf =>
      let es := ((hampersOf s h.graph pf).filter (fun o => o.seq == gq || seqBelow o.seq gq)).map (nodeEdge s · prod)
      if es.contains .wait then .wait
      else .pass ((es.findSome? (fun e => match e with | .pass x => x | .wait => none)).or (if bad then some 0x0101 else none))

/-- The state of one incoming edge of a task's node (R119). -/
def edgeState (s : State) (h : Hamper) (node e : Nat) : EdgeSt :=
  let g := graphAt s h.graph
  let ed := nth ⟨0, 0, 0⟩ g.img.edges e
  if ed.kind = 1 then .pass none
  else if ed.kind = 2 then prevEdge s h ed.prod
  else if (nodeAt g ed.prod).flow = (nodeAt g node).flow then nodeEdge s h ed.prod
  else match h.cross.find? (fun c => c.1 == e) with
    | some c => crossEdge s h c.2.1 c.2.2 ed.prod
    | none => .pass none

/-- The state of all incoming edges of a node in a hamper (R119). -/
def ready (s : State) (h : Hamper) (node : Nat) : EdgeSt :=
  let n := nodeAt (graphAt s h.graph) node
  (rangeFrom n.firstEdge n.nEdge).foldl (fun acc e => match acc with
    | .wait => .wait
    | .pass x => match edgeState s h node e with
      | .wait => .wait
      | .pass y => .pass (match x with | some v => some v | none => y)) (.pass none)

/-- Tasks that wait on a failed task are not run and count as ended with its fault (R121), in one hamper, once. -/
def spreadOne (s : State) (h : Hamper) : Hamper :=
  { h with tasks := h.tasks.map (fun t => if t.at_ = .waiting then
      match ready s h t.node with
      | .pass (some st) => { t with at_ := .ended st }
      | _ => t
    else t) }

/-- Spread faults over every hamper until nothing changes; a pass per node and hamper suffices (R121). -/
def spread : Nat → State → State
  | 0, s => s
  | n + 1, s =>
    let s1 := { s with hampers := s.hampers.map (spreadOne s) }
    if s1.hampers = s.hampers then s else spread n s1

/-- Passes of `spread` that always suffice: one for each live task. -/
def spreadAll (s : State) : State := spread (formedTasks s) s

/-- Form a hamper from a reservation (R105 to R107, R123, R129, R581); a task whose producer has already faulted
ends at once (R121). -/
def formHamper (s : State) (gi f : Nat) (r : Resv) : State :=
  let g := graphAt s gi
  let tr := trigOf g f
  let stamp := resvStamp tr r
  let bad := tr.kind == 3 && !vaOk s g.part r.table 64 .r
  let ts := (tasksOf g f).map (fun t => if bad then { t with at_ := .removed } else t)
  let h : Hamper := ⟨gi, f, r.seq, stamp, resvFlags r, r.handle, r.table, false, false, bad, ts, crossOf g f⟩
  let s1 := modFlow { s with hampers := s.hampers ++ [h] } gi f (fun x =>
    { x with resv := x.resv.filter (fun y => y.seq != r.seq), highForm := some r.seq })
  fgsTrace (bump (spreadAll s1) (fgsCnt g.part 0) 1) 0x10 g f r.seq (trigIdx g f) stamp.toNat

/-! ## Placement -/

/-- Block type and instance of a unit key. -/
def unkey (k : Nat) : Nat × Nat := (k / 256, k % 256)

/-- Is a unit open to tasks: ENABLE of its page is 1, it is not quarantined, and no clear of its scratchpad runs (R387, R522, R655). -/
def unitOpen (s : State) (b : Blk) (n : Nat) : Bool :=
  let base := match b with
    | .dma => pg .dma 0
    | .rolv => pg .rolv 0
    | b => pg b n
  bitOf (regN s (base + 8)) 0 && !(unitAt s b n).quarantined && !(b == .nc && s.clearing.contains (pg .spc n))

/-- Tasks a unit holds (R110). -/
def unitLoad (u : UnitSt) : Nat := b2n u.run.isSome + b2n u.pre.isSome + u.parks.length

/-- The channel a DMA task's command names, if the partition owns it (R426, R444). -/
def dmaNamed (s : State) (g : Graph) (idx : Nat) : Option Nat :=
  match vaNat s g.part ((taskEnt g idx).cmdAddr + 3) 1 with
  | .ok c => if (chanList s g.part).contains c then some c else none
  | .error _ => none

/-- Instances a task may be placed on by its node's binding, whether free or not (R113, R115); a DMA task goes to the channel it names. -/
def places (s : State) (g : Graph) (n : GNode) (b : Blk) (idx excl : Nat) : List Nat :=
  let l := if n.bind = 2 then (boundTo g b n.bindIdx).toList else poolOf s b g.part
  match b, dmaNamed s g idx with
  | .dma, some c => [c]
  | _, _ => l.filter (fun i => ukey b i + 1 != excl)

/-- The key of the unit the other copy of a dual task was placed on, plus one (R115). -/
def otherCore (h : Hamper) (t : Task) : Nat :=
  match h.tasks.find? (fun o => o.node == t.node && o.idx == t.idx && o.copy != t.copy) with
  | some o => if t.copy = 1 then o.unit else 0
  | none => 0

/-- Free prefetched slots a task may take now. -/
def openPlaces (s : State) (g : Graph) (n : GNode) (b : Blk) (idx excl : Nat) : List Nat :=
  (places s g n b idx excl).filter (fun i => unitOpen s b i && (unitAt s b i).pre.isNone)

/-- The instance a ready task goes to (R113): BOUND its own; LAST the one that last ran the entry if free; else the least loaded. -/
def choose (s : State) (g : Graph) (n : GNode) (b : Blk) (idx excl : Nat) : Option Nat :=
  let l := openPlaces s g n b idx excl
  let least := l.foldl (fun acc i => match acc with
    | none => some i
    | some j => if unitLoad (unitAt s b i) < unitLoad (unitAt s b j) then some i else some j) none
  if n.bind = 1 ∧ bitOf (app s (fgsPg + 0x100)) 8 then
    match g.lastInst.find? (fun e => e.1 == idx) with
    | some e => if l.contains e.2 then some e.2 else least
    | none => least
  else least

/-- Is a task that cannot ever be placed: every instance it may take is quarantined (R522). -/
def noUnit (s : State) (g : Graph) (n : GNode) (b : Blk) (idx excl : Nat) : Bool :=
  let l := places s g n b idx excl
  !l.isEmpty && l.all (fun i => (unitAt s b i).quarantined)

/-- A waiting, ready task with its place in the order of R114: D0 first, oldest stamp, lowest flow ID, node and task index. -/
structure Cand where
  key : List Nat
  h : Hamper
  t : Task
  deriving DecidableEq, Repr

/-- Lexicographic order of number lists. -/
def lexLt : List Nat → List Nat → Bool
  | [], [] => false
  | [], _ => true
  | _, [] => false
  | a :: r, b :: q => decide (a < b) || (a == b && lexLt r q)

/-- The checker copy is placed after the primary, or after the primary found no unit (R115, R129, R536). -/
def copyTurn (h : Hamper) (t : Task) : Bool :=
  t.copy == 0 || h.tasks.any (fun o => o.node == t.node && o.idx == t.idx && o.copy == 0 && (o.unit != 0 || taskDone o))

/-- Ready tasks that wait for a slot. -/
def candidates (s : State) : List Cand :=
  s.hampers.flatMap (fun h =>
    if h.cancelled || h.stopped then [] else
    let g := graphAt s h.graph
    h.tasks.filterMap (fun t =>
      if t.at_ = .waiting ∧ copyTurn h t ∧ ready s h t.node = .pass none then
        some ⟨[if g.part = 0 then 0 else 1, h.stamp.toNat, (flowRecAt g h.flow).id, t.node, t.idx, t.copy], h, t⟩
      else none))

/-- Change a task of a hamper. -/
def modTask (s : State) (r : TRef) (k : Task → Task) : State :=
  modHampers s (isHamper r.graph r.flow r.seq) (fun h =>
    { h with tasks := h.tasks.map (fun t => if t.node == r.node && t.idx == r.idx && t.copy == r.copy then k t else t) })

/-- The reference of a task. -/
def refOf (h : Hamper) (t : Task) : TRef := ⟨h.graph, h.flow, h.seq, t.node, t.idx, t.copy⟩

/-- Place a task in the prefetched slot of an instance (R113). -/
def place (s : State) (h : Hamper) (t : Task) (b : Blk) (i : Nat) : State :=
  let s1 := setUnit s b i { unitAt s b i with pre := some (refOf h t) }
  modTask s1 (refOf h t) (fun x => { x with at_ := .prefetched (ukey b i), unit := ukey b i + 1 })

/-- Ladles a producer node pushes to: those of its outgoing LADLE edges (R119, R213). -/
def pushLadles (g : Graph) (node : Nat) : List Nat :=
  dedupN ((g.img.edges.filter (fun e => e.kind == 1 && e.prod == node)).filterMap (fun e => boundTo g .ladle e.ladle))

/-- A ladle handle (R451). -/
def mkLadle (q tile : Nat) : Nat := q % 2 ^ 31 * 2 ^ 32 + tile

/-- Push a handle; HIGH_WATER follows the level (R452, R457). -/
def ladlePush (s : State) (l h : Nat) : State :=
  let x := ladleAt s l
  let s1 := bump (setLadle s l { x with q := x.q ++ [h] }) (pg .ladle l + 0x800) 1
  let s2 := if regN s1 (pg .ladle l + 0x814) < x.q.length + 1 then setRegN s1 (pg .ladle l + 0x814) (x.q.length + 1) else s1
  crumb s2 (ukey .ladle l) 0x14 (graphAt s ((x.bound).getD 0)).part 0 0 (h / 2 ^ 32)

/-- Mark a ladle's sequence aborted (R453). -/
def ladleAbort (s : State) (l q : Nat) : State :=
  let x := ladleAt s l
  let s1 := setLadle s l { x with aborted := if x.aborted.contains (q % 2 ^ 31) then x.aborted else x.aborted ++ [q % 2 ^ 31] }
  raiseIrq (setRegN s1 (pg .ladle l + 0x104) (q % 2 ^ 31)) .ladle l 8 none

/-- Ladles a consumer node pops from. -/
def popLadles (g : Graph) (node : Nat) : List Nat :=
  dedupN (((edgesOf g.img (nodeAt g node)).filter (fun e => e.kind == 1)).filterMap (fun e => boundTo g .ladle e.ladle))

/-- The abort mark of a sequence clears when the consuming task ends (R453). -/
def ladleClear (s : State) (l q : Nat) : State :=
  let x := ladleAt s l
  setLadle s l { x with aborted := x.aborted.filter (fun a => a != q % 2 ^ 31) }

/-- Record an ended copy of a dual task for the island (R536, R538); `sig` is its signature. -/
def dualEnd (s : State) (r : TRef) (st sig core : Nat) : State :=
  let same := fun (d : DualPair) => d.graph == r.graph && d.flow == r.flow && d.seq == r.seq && d.node == r.node && d.idx == r.idx
  let base : DualPair := (s.safe.pairs.find? same).getD ⟨r.graph, r.flow, r.seq, r.node, r.idx, none, none, (0, 0), false, false⟩
  let d := if r.copy = 0 then { base with prim := some (st, sig), cores := (core, base.cores.2) }
    else { base with chk := some (st, sig), cores := (base.cores.1, core) }
  { s with safe := { s.safe with pairs := s.safe.pairs.filter (fun x => !same x) ++ [d] } }

/-- A task that no unit can take ends with NO_UNIT: as any task that ends with an error, it aborts its sequence in the ladles it feeds, and as
a copy of a dual task it is compared (R129, R453, R522, R539). -/
def endNoUnit (s : State) (h : Hamper) (t : Task) : State :=
  let g := graphAt s h.graph
  let n := nodeAt g t.node
  let q := h.seq.toNat
  let s0 := forAll (popLadles g t.node) (fun l t => ladleClear t l q) (forAll (pushLadles g t.node) (fun l t => ladleAbort t l q) s)
  let se := modTask s0 (refOf h t) (fun x => { x with at_ := .ended 0x0103 })
  let s1 := if n.dual then dualEnd se (refOf h t) 0x0103 0 0 else se
  let s2 := raiseErr s1 .fgs 0 11 (some g.part)
  let s3 := emit s2 ⟨s2.time, 2, false, 0, blkCode .fgs, n.flow, n.layer, n.opId, n.phase, h.seq.toNat, 0x0103, 0, g.part, []⟩
  spreadAll (crumb s3 (ukey .fgs 0) 2 g.part 0x0103 n.opId h.seq.toNat)

/-- The best candidate that can be served now: placed, or ended with NO_UNIT (R114). -/
def pick (s : State) (l : List Cand) : Option (Cand × Option (Blk × Nat)) :=
  l.foldl (fun acc c =>
    let g := graphAt s c.h.graph
    let n := nodeAt g c.t.node
    match blkOfCode n.utype with
    | none => acc
    | some b =>
      let ex := otherCore c.h c.t
      let r : Option (Option (Blk × Nat)) := if noUnit s g n b c.t.idx ex then some none else (choose s g n b c.t.idx ex).map (fun i => some (b, i))
      match r with
      | none => acc
      | some pl => match acc with
        | none => some (c, pl)
        | some (c', _) => if lexLt c.key c'.key then some (c, pl) else acc) none

/-- Fill one prefetched slot (R113, R114). -/
def prefetchOne (s : State) : State :=
  match pick s (candidates s) with
  | none => s
  | some (c, some (b, i)) => place s c.h c.t b i
  | some (c, none) => endNoUnit s c.h c.t

/-! ## The running slot -/

/-- The hamper of a task reference. -/
def hamperOf (s : State) (r : TRef) : Option Hamper := s.hampers.find? (isHamper r.graph r.flow r.seq)

/-- BUF_OFFSET of a task: (s mod N) times ROTATE_STRIDE (R98). -/
def bufOffset (e : GTask) (q : Word) : Nat := q.toNat % e.rotate * e.stride

/-- The camera stream a task reads, of those its flow's trigger names: the one whose ring its command gives as RAW_BASE, else the first (R122,
R140; log entry 72). -/
def streamOf (s : State) (g : Graph) (r : TRef) : Option Nat :=
  let cs := (trigOf g r.flow).streams.filterMap (boundTo g .cams)
  let base := fun c => fld (app s (pg .cams c + 0x118)) 12 20 * 4096 + 2 ^ 32 * app s (pg .cams c + 0x11C)
  match vaNat s g.part ((taskEnt g r.idx).cmdAddr + 16) 8 with
  | .ok a => (cs.find? (fun c => base c == a)).or cs.head?
  | .error _ => cs.head?

/-- The sequence whose buffer a task reads: its own, or for LATEST_INPUT the one its producer completed last (R122). -/
def inSeq (s : State) (r : TRef) : Word :=
  let g := graphAt s r.graph
  let n := nodeAt g r.node
  if !n.latest then r.seq
  else match (edgesOf g.img n).find? (fun e => e.kind == 0) with
    | some e => match tget (fun _ => 0) g.nodeDone e.prod with
      | 0 => r.seq
      | q + 1 => BitVec.ofNat 32 q
    | none => ((streamOf s g r).bind (fun c => (camsAt s c).ended)).getD r.seq

/-- A node's task ended without error: the sequence is the one the node completed last once all its tasks have (R122). -/
def noteDone (s : State) (r : TRef) : State :=
  match hamperOf s r with
  | some h =>
    if (h.tasks.filter (fun t => t.node == r.node)).all (fun t => t.at_ == .ended 0) then
      let g := graphAt s r.graph
      setGraph s r.graph { g with nodeDone := tset (fun _ => 0) g.nodeDone r.node (r.seq.toNat + 1) }
    else s
  | none => s

/-- Does a due taster window hold a unit's running slot empty (R118, R530). -/
def tasterHolds (s : State) (u : UnitSt) : Bool :=
  u.tasterOn.isSome || (match u.tasterDue with | some t => decide (t.toNat ≤ s.time.toNat) | none => false)

/-- Is an eligible parked task waiting (R117). -/
def parkedReady (u : UnitSt) : Bool := u.parks.any (fun x => x.2.2)

/-- May a unit's prefetched task move to its running slot (R112, R117, R118). -/
def mayRun (s : State) (u : UnitSt) : Bool := u.run.isNone && !tasterHolds s u && !parkedReady u

/-- Command counters of a unit. -/
def cntAt (s : State) (b : Blk) (i : Nat) : CmdCnt := tget (fun _ => ({} : CmdCnt)) s.dbg.cnt (ukey b i)

/-- Set them. -/
def setCnt (s : State) (b : Blk) (i : Nat) (c : CmdCnt) : State :=
  { s with dbg := { s.dbg with cnt := tset (fun _ => {}) s.dbg.cnt (ukey b i) c } }

/-- A record of a task, which names its unit: a DMA channel by its number (R580, R581). -/
def unitTrace (s : State) (kind : Nat) (b : Blk) (i : Nat) (r : TRef) (a0 a1 : Nat) : State :=
  let g := graphAt s r.graph
  let n := nodeAt g r.node
  emit s ⟨s.time, kind, (cntAt s b i).isPartial, i, blkCode b, n.flow, n.layer, n.opId, n.phase, r.seq.toNat, a0, a1, g.part, []⟩

/-- A crumb of a task (R591). -/
def unitCrumb (s : State) (ev : Nat) (b : Blk) (i : Nat) (r : TRef) (arg : Nat) : State :=
  let g := graphAt s r.graph
  crumb s (ukey b i) ev g.part arg (nodeAt g r.node).opId r.seq.toNat

/-- Cycles of a unit's clock in a span of ns: CLK_NC at the present operating point, or CLK_VIS (R23, R575). -/
def unitCycles (s : State) (b : Blk) (ns : Nat) : Nat :=
  match b with
  | .nc => ns * (regN s (pg .pwr 0 + 0x140 + 4 * s.pwr.cur) % 4096) / 1000
  | _ => ns * 3 / 2

/-- The instant up to which counters count: now, a freeze instant that has been reached, or the stop (R578, R594). -/
def countEnd (s : State) : DWord :=
  if isStopped s then BitVec.ofNat 64 (reg64 s (dbgPg + 0x118) (dbgPg + 0x11C))
  else match s.dbg.freezeAt with
    | some (t, true) => if t.toNat ≤ s.time.toNat then t else s.time
    | _ => s.time

/-- Cycles counted since the task entered the running slot and not yet added. -/
def cntLive (s : State) (b : Blk) (i : Nat) : Nat :=
  match (cntAt s b i).enteredAt with
  | some t => unitCycles s b (countEnd s - t).toNat
  | none => 0

/-- The command counters with those cycles added, counting no more. -/
def cntStopped (s : State) (b : Blk) (i : Nat) : CmdCnt :=
  let c := cntAt s b i
  { c with busy := satN 0xFFFF_FFFF (c.busy + cntLive s b i), enteredAt := none }

/-- A task enters the running slot with counts of its own; a read in this instant still shows those before (R576, R579). -/
def cntEnter (s : State) (b : Blk) (i : Nat) (c : CmdCnt) : State :=
  if frozen s then setCnt s b i { cntAt s b i with running := false }
  else
    let o := cntStopped s b i
    setCnt s b i { c with
      running := true, enteredAt := some s.time, prevOpid := o.opid, prevPhase := o.phase, prevFlow := o.flow
      prevBusy := o.busy, prevStall := o.stall, prevPartial := o.isPartial }

/-- The counters reset as a task starts (R576). -/
def cntStart (s : State) (b : Blk) (i : Nat) (n : GNode) : State :=
  match b with
  | .dma | .rolv => s
  | _ => cntEnter s b i { opid := n.opId, phase := n.phase, flow := n.flow }

/-- A task leaves the running slot; its cycles reach the global counters (R575, R577). -/
def cntLeave (s : State) (b : Blk) (i p : Nat) : State :=
  match b with
  | .dma | .rolv => s
  | _ =>
    if frozen s then setCnt s b i { cntAt s b i with running := false }
    else gcCount (setCnt s b i { cntStopped s b i with running := false }) 0 b i p (cntLive s b i)

/-- The running slot that a unit's prefetched task moves to: its own; of the transport, the lowest-numbered free one of its 256 (R110, R508). -/
def slotFor (s : State) (b : Blk) (i : Nat) : Option Nat :=
  match b with
  | .rolv => if i = 0 then (List.range 256).find? (fun k => (unitAt s .rolv k).run.isNone) else none
  | b => if mayRun s (unitAt s b i) then some i else none

/-- Was the hamper before sequence q of a task's flow formed since START_GRAPH, with its tasks (R119, R188, R260): it is live, or was
the last one released. -/
def ranBefore (s : State) (r : TRef) (q : Word) : Bool :=
  q != 0 && (s.hampers.any (fun h => isHamper r.graph r.flow (q - 1) h && !h.inputFault) ||
    (flowAt (graphAt s r.graph) r.flow).lastRel.any (fun l => l.1 == q - 1))

/-- Move the prefetched task of unit j to running slot i (R112, R122, R581, R591). -/
def enterRun (s : State) (b : Blk) (j i : Nat) (r : TRef) : State :=
  let g := graphAt s r.graph
  let s0 := setUnit (setGraph s r.graph { g with lastInst := tset (fun _ => 0x1_0000) g.lastInst r.idx j }) b j { unitAt s b j with pre := none }
  let s1 := setUnit s0 b i { unitAt s0 b i with run := some r, done := none, src := some (inSeq s r), prev := ranBefore s r (if b = .isp then inSeq s r else r.seq), hdr := none }
  let s2 := modTask s1 r (fun t => { t with at_ := .running (ukey b i) })
  let s3 := cntStart s2 b i (nodeAt g r.node)
  unitTrace (unitCrumb s3 1 b i r 0) 1 b i r (taskEnt g r.idx).tile (g.part + (if r.copy = 1 then 256 else 0))

/-- Record that the running task's work is complete, with the status it found (R119, R128). -/
def finishRun (s : State) (b : Blk) (i st : Nat) : State := setUnit s b i { unitAt s b i with done := some st }

/-! ## Collection -/

/-- The completion source of a unit: DMA and the transport are one each, at instance 0 (R124). -/
def srcKey (b : Blk) (i : Nat) : Nat :=
  match b with
  | .dma | .rolv => ukey b 0
  | b => ukey b i

/-- Completion sources in the collector's order: block type code, then instance (R125). -/
def sources : List Nat :=
  [Blk.isp, .pyr, .warp, .str, .flw, .ftr, .nc].flatMap (fun b => (List.range (blkCount b)).map (ukey b)) ++ [ukey .dma 0, ukey .rolv 0]

/-- Entries that the FIFO of a source holds (R124). -/
def fifoDepth (k : Nat) : Nat :=
  if k / 256 = blkCode .nc then 4 else if k / 256 = blkCode .dma then 32 else if k / 256 = blkCode .rolv then 256 else 2

/-- The completion entries of a source, oldest first (R124). -/
def fifoOf (s : State) (k : Nat) : List Fin := tget (fun _ => ([] : List Fin)) s.fifos k

/-- Set them. -/
def setFifo (s : State) (k : Nat) (l : List Fin) : State := { s with fifos := tset (fun _ => []) s.fifos k l }

/-- The place in the collector's order of the source it serves next: from its pointer on, round-robin, skipping empty ones (R125). -/
def nextSource (s : State) : Option Nat :=
  ((List.range sources.length).map (fun d => (s.collector + d) % sources.length)).find? (fun j => !(fifoOf s (nth 0 sources j)).isEmpty)

/-- Take one completion entry (R125). -/
def collect (s : State) : State :=
  match nextSource s with
  | none => s
  | some j =>
    let k := nth 0 sources j
    { setFifo s k ((fifoOf s k).drop 1) with collector := (j + 1) % sources.length }

/-- The collector serves its sources until one has room: it takes an entry per cycle, and no completion is lost or refused (R124, R125; log
entry 122). -/
def makeRoom (k : Nat) : Nat → State → State
  | 0, s => s
  | n + 1, s => if (fifoOf s k).length < fifoDepth k then s else makeRoom k n (collect s)

/-- A completion entry enters the FIFO of its source (R124). -/
def pushFin (s : State) (k : Nat) (x : Fin) : State :=
  let t := makeRoom k sources.length s
  setFifo t k (fifoOf t k ++ [x])

/-! ## The end of a task -/

/-- May a task end now: its producer ladles have room for its handle (R120, R452). -/
def ladleRoom (s : State) (g : Graph) (node st : Nat) : Bool :=
  st != 0 || (pushLadles g node).all (fun l => decide ((ladleAt s l).q.length < 64))

/-- Page register offsets of the tile counters: tiles done and task errors (R208, R230, R256, R282, R307, R346). -/
def doneOff : Blk → Nat
  | _ => 0x800
def errOff : Blk → Nat
  | .isp | .pyr | .warp | .str | .flw => 0x810
  | .ftr => 0x814
  | _ => 0x804

/-- Is a status one of the unit's own, which its TASK_ERRORS counts (R207, R208, R229, R230, R255, R256, R281, R282, R306, R307, R346): the status
of an uncorrectable tile-memory word is not (R401). A core's counts that of its scratchpad too. -/
def ownStatus (b : Blk) (st : Nat) : Bool := b == .nc || st != 0x0811

/-- LAST_TILE and LAST_STATUS of a unit's page, or LAST_SEQ and LAST_STREAM of ISP, and its task counters. -/
def unitDone (s : State) (b : Blk) (i : Nat) (r : TRef) (hdr : Option Nat) (st : Nat) : State :=
  let g := graphAt s r.graph
  match b with
  | .dma | .rolv => s
  | .isp =>
    let c := (hdr.or (streamOf s g r)).getD 0
    let s1 := setRegN (setRegN s (pg b i + 0x180) r.seq.toNat) (pg b i + 0x184) (c % 64 + st % 65536 * 65536)
    if st = 0 then bump s1 (pg b i + 0x800) 1 else raiseIrq (if ownStatus b st then bump s1 (pg b i + 0x810) 1 else s1) b i 8 none
  | b =>
    let s1 := setRegN (setRegN s (pg b i + 0x180) (taskEnt g r.idx).tile) (pg b i + 0x184) (st % 65536 + (nodeAt g r.node).flow * 65536)
    if st = 0 then bump s1 (pg b i + doneOff b) 1 else raiseIrq (if ownStatus b st then bump s1 (pg b i + errOff b) 1 else s1) b i 8 none

/-- The end of the task in a unit's running slot: handle, completion entry, slot, records, and what follows in the graph
(R119, R121, R124, R128, R130, R213, R453, R538, R581). -/
def taskEnd (s : State) (b : Blk) (i : Nat) (r : TRef) (st sig : Nat) : State :=
  let g := graphAt s r.graph
  let n := nodeAt g r.node
  let e := taskEnt g r.idx
  let s1 := if st = 0 then forAll (pushLadles g r.node) (fun l t => ladlePush t l (mkLadle r.seq.toNat e.tile)) s
    else forAll (pushLadles g r.node) (fun l t => ladleAbort t l r.seq.toNat) s
  let s2 := forAll (popLadles g r.node) (fun l t => ladleClear t l r.seq.toNat) s1
  let u := unitAt s2 b i
  let s3 := pushFin (setUnit s2 b i { u with run := none, done := none, src := none, prev := false, hdr := none }) (srcKey b i) ⟨r, st⟩
  let s4 := noteDone (modTask s3 r (fun t => { t with at_ := .ended st })) r
  let s5 := if n.dual then dualEnd s4 r st sig (ukey b i) else s4
  let s6 := unitTrace (unitCrumb (unitDone s5 b i r u.hdr st) 2 b i r st) 2 b i r st
    (match b with | .dma | .rolv => 0 | _ => (cntStopped s5 b i).busy)
  let s7 := cntLeave s6 b i g.part
  let s8 := gcCount (if st = 0 then s7 else gcCount s7 3 b i g.part 1) 2 b i g.part 1
  finishGraph (sweep (spreadAll s8)) r.graph

/-! ## Release -/

/-- Is a completion entry of a hamper still waiting for the collector. -/
def uncollected (s : State) (h : Hamper) : Bool :=
  s.fifos.any (fun e => e.2.any (fun x => isHamper x.ref.graph x.ref.flow x.ref.seq h))

/-- Is every sequence of the flow below a hamper's released or abandoned (R126). -/
def earlierSettled (s : State) (h : Hamper) : Bool :=
  (hampersOf s h.graph h.flow).all (fun o => !seqBelow o.seq h.seq) &&
  (flowAt (graphAt s h.graph) h.flow).resv.all (fun r => !seqBelow r.seq h.seq)

/-- Nodes of a hamper that ended with an error. -/
def faultyNodes (h : Hamper) : List Nat :=
  dedupN (h.tasks.filterMap (fun t => match t.at_ with | .ended (_ + 1) => some t.node | _ => none))

/-- May a hamper be released: its tasks and comparisons are over, its entries collected, earlier ones settled (R126, R538). -/
def releasable (s : State) (h : Hamper) : Bool :=
  !h.cancelled && !h.stopped && h.tasks.all taskDone && !uncollected s h && earlierSettled s h &&
  (nodesOf (graphAt s h.graph) h.flow).all (nodeCompared s h)

/-- May the partition release now: the log is not held, and for D0 the verdict ring is not (R83, R525). -/
def mayRelease (s : State) (p : Nat) : Bool := !cplBlocked s p && (p != 0 || !vrBlocked s)

/-- Did a dual comparison of a hamper disagree (R539). -/
def dualBad (s : State) (h : Hamper) : Bool :=
  s.safe.pairs.any (fun d => d.graph == h.graph && d.flow == h.flow && d.seq == h.seq && d.compared && !d.agreed)

/-- Age of a hamper in µs now, saturating (R127). A stamp later than now, which a message from another device may carry, wraps and so
saturates (log entry 123). -/
def ageOf (s : State) (h : Hamper) : Nat := satN 0xFFFF_FFFF ((s.time - h.stamp).toNat / 1000)

/-- Status of a hamper at release (R128, R129). -/
def relStatus (h : Hamper) : Nat :=
  if h.inputFault then 0x0102 else if (faultyNodes h).isEmpty then stOk else 0x0101

/-- Is a hamper stale at release (R96, R127). -/
def isStale (s : State) (h : Hamper) : Bool :=
  let b := (flowRecAt (graphAt s h.graph) h.flow).bound
  b != 0 && decide (b < ageOf s h)

/-- The completion record of a hamper at release (R81, R126 to R129, R539). -/
def relRecord (s : State) (h : Hamper) : Cpl :=
  let g := graphAt s h.graph
  ⟨if h.handle = 0 then g.handle else h.handle, relStatus h, blkCode .fgs, (flowRecAt g h.flow).id,
   b2n (isStale s h) * flStale + b2n (dualBad s h) * flNotSafe + h.flags + (if h.handle = 0 then 0 else flFinal), h.seq, s.time, ageOf s h⟩

/-- A hamper leaves the tables: its faults stay with the cross-flow edges that wait on it (R121, R123). -/
def noteCross (s : State) (o : Hamper) : State :=
  let g := graphAt s o.graph
  let bad := faultyNodes o
  if bad.isEmpty then s
  else modHampers s (fun h => h.graph == o.graph) (fun h => { h with cross := h.cross.map (fun c =>
    let p := (nth ⟨0, 0, 0⟩ g.img.edges c.1).prod
    let upTo := match c.2.1 with | some q => o.seq == q || seqBelow o.seq q | none => false
    if upTo && (nodeAt g p).flow == (flowRecAt g o.flow).id && bad.contains p then (c.1, c.2.1, true) else c) })

/-- Note a release in the flow's age slot (R528, R546). -/
def ageRelease (s : State) (h : Hamper) : State :=
  match (flowAt (graphAt s h.graph) h.flow).ageSlot with
  | none => s
  | some i =>
    let a := ageAt s i
    setAge s i { a with worst := max a.worst (ageOf s h), stale := a.stale + b2n (isStale s h) }

/-- Release a hamper (R126 to R128, R581). -/
def release (s : State) (h : Hamper) : State :=
  let g := graphAt s h.graph
  let r := relRecord s h
  let s0 := noteCross (ageRelease s h) h
  let s1 := { s0 with hampers := s0.hampers.filter (fun o => !isHamper h.graph h.flow h.seq o),
                      safe := { s0.safe with pairs := s0.safe.pairs.filter (fun d => !(d.graph == h.graph && d.flow == h.flow && d.seq == h.seq)) } }
  -- no task of a hamper with an input fault ended, so it is no predecessor for PREV_OK (R129, R260)
  let s2 := modFlow s1 h.graph h.flow (fun x => { x with lastRel := if h.inputFault then x.lastRel else some (h.seq, faultyNodes h) })
  let s3 := setGraph s2 h.graph { graphAt s2 h.graph with lastSeq := some h.seq }
  let s4 := bump s3 (fgsCnt g.part 4) 1
  let s5 := if isStale s h then raiseIrq (bump s4 (fgsCnt g.part 8) 1) .fgs 0 8 (some g.part) else s4
  let s6 := if r.status = 0x0101 then raiseIrq (bump s5 (fgsCnt g.part 0x1C) 1) .fgs 0 12 (some g.part) else s5
  let s7 := fgsTrace (pushResult s6 g.part r) 0x11 g h.flow h.seq r.status r.age
  finishGraph s7 h.graph

end Sys2Proof.Machine
end

