-- ==== Sys2Proof/Machine/Hbm.lean ====
section
/-! DEFINITION. Errors of HBM and of the mesh: records, injections, what an access of a partition counts and meets (R462, R467 to R471, R476 to R478). -/

namespace Sys2Proof.Machine
open Sys2Proof

/-- Pages of an HBM instance and of NOC. -/
def hbmPg (n : Nat) : Nat := pg .hbm n
def nocPg : Nat := pg .noc 0

/-- The block on whose behalf the accesses of a command are made: block type, instance, operator ID (R469). -/
def asActor (b : Blk) (n op : Nat) (s : State) : State := { s with actor := (blkCode b, n, op) }

/-- The BLK_ERR_STAT bit of a record kind (R477). -/
def hbmErrBit (kind : Nat) : Nat :=
  match kind with
  | 1 | 6 => 8
  | 5 => 10
  | 3 | 4 => 11
  | _ => 9

/-- The 32 bytes of an error record (R469); bank, row and column of a location are not stated by the spec and are free. -/
def hbmRecord (s : State) (kind pc part place : Nat) : List Byte :=
  let b := natLe 8 s.time.toNat ++ natLe 1 kind ++ natLe 1 pc ++ natLe 1 place ++ natLe 1 part ++ natLe 4 (place / 2 ^ 8) ++ natLe 2 (place / 2 ^ 40) ++
    natLe 2 s.actor.1 ++ natLe 1 s.actor.2.1 ++ [0, 0, 0] ++ natLe 3 s.actor.2.2 ++ [0]
  b ++ natLe 4 (crc32 b)

/-- The island's view of an HBM event: a fault, and the burst of 16 within one diagnostic interval (R469, R520). -/
def hbmFault (s : State) (inst kind part : Nat) : State :=
  let put := fun (c : Nat) (t : State) => pushFault t ⟨t.time, c, causeClass c, blkCode .hbm, inst, part, 0xFFFF, 0, 0⟩
  if kind = 5 then put 0x41 s
  else
    let iv := s.time.toNat / 10000000
    let (k, n) := tget (fun _ => (0, 0)) s.safe.ueBurst inst
    let m := if k = iv then n + 1 else 1
    let s1 := put 0x40 { s with safe := { s.safe with ueBurst := tset (fun _ => (0, 0)) s.safe.ueBurst inst (iv, m) } }
    if m = 16 then put 0x42 s1 else s1

/-- An event of R469 at a HBM offset: one record or a loss, counts, error bits, and the report to the island. -/
def hbmEvent (s : State) (kind off part : Nat) : State :=
  let (inst, pc) := hbmPlace s off
  let a := hbmPg inst
  let ctx := if part < 4 then some part else none
  let l := tget (fun _ => ([] : List (List Byte))) s.hbmRec inst
  let s0 := drawn s
  let s1 := if l.length < 16 then { s0 with hbmRec := tset (fun _ => []) s0.hbmRec inst (l ++ [hbmRecord s kind pc part (freeVal s)]) }
    else raiseIrq (bump s0 (a + 0x808) 1) .hbm inst 9 none
  let ue := kind == 2 || kind == 4 || kind == 7 || kind == 8
  let s2 := bump s1 (a + if ue then 0x804 else 0x800) (if kind = 5 then 0 else 1)
  let s3 := raiseErr s2 .hbm inst (hbmErrBit kind) ctx
  let s4 := if ue then raiseIrq s3 .hbm inst 8 ctx else s3
  if ue || kind == 5 then hbmFault s4 inst kind part else s4

/-- The 64-byte accesses of a range that meet an uncorrectable word: a read in any of its words, a write in a word it covers in part (R467, R468). -/
def badLines (s : State) (wr : Bool) (off k : Nat) : List Nat :=
  if s.hbmUe.isEmpty then []
  else ((List.range ((off + k + 63) / 64 - off / 64)).map (· + off / 64)).filter (fun l =>
    let a := max off (64 * l)
    let n := min (off + k) (64 * l + 64) - a
    if wr then rmwBad s a n else hbmBad s a n)

/-- One access of at most 256 bytes at a HBM offset: bytes are counted, injections act, uncorrectable words are recorded; is it refused
by an injection (R467, R468, R471, R477). -/
def hbmChunk (p : Nat) (wr : Bool) (off k : Nat) (s : State) : Bool × State :=
  let inst := (hbmPlace s off).1
  let s1 := bump64 s (hbmPg inst + 0x840 + 8 * p) k
  let s2 := if injArmed s1 .hbm inst 2 then raiseErr (bump (injUsed s1 .hbm inst 2) (hbmPg inst + 0x80C) 1) .hbm inst 10 (some p) else s1
  if wr then
    (false, (badLines s2 true off k).foldl (fun t l => hbmEvent t 8 (64 * l) p) s2)
  else
    let s3 := if injArmed s2 .hbm inst 0 then hbmEvent (injUsed s2 .hbm inst 0) 1 off p else s2
    if injArmed s3 .hbm inst 1 then (true, hbmEvent (injUsed s3 .hbm inst 1) 2 off p)
    else (false, (badLines s3 false off k).foldl (fun t l => hbmEvent t 2 (64 * l) p) s3)

/-- Cut a HBM range into pieces within 256-byte interleaving units. -/
def hbmCuts : Nat → Nat → Nat → List (Nat × Nat)
  | 0, _, _ => []
  | _, _, 0 => []
  | f + 1, off, n =>
    let k := min n (256 - off % 256)
    (off, k) :: hbmCuts f (off + k) (n - k)

/-- All the pieces of a range. -/
def hbmRange (p : Nat) (wr : Bool) (off n : Nat) (s : State) : Bool × State :=
  (hbmCuts (n / 256 + 2) off n).foldl (fun x c => let r := hbmChunk p wr c.1 c.2 x.2; (x.1 || r.1, r.2)) (false, s)

/-- A mesh packet meets an armed injection or a failed predecessor: retried, or ended with an error response (R476, R478). -/
def meshPass (s : State) : Bool × State :=
  let s1 := if injArmed s .noc 0 0 then raiseErr (bump (injUsed s .noc 0 0) (nocPg + 0x800) 1) .noc 0 8 none else s
  (s1.nocBad, { s1 with nocBad := false })

/-- A table walk is counted where the partition has a root (R463, R478); the model caches no translation (log entry 139). -/
def countWalk (s : State) (p : Nat) : State := if bitOf (app s (nocPg + 0x100 + 8 * p)) 0 then bump s (nocPg + 0x808) 1 else s

/-- What an access of a partition to device-virtual bytes counts and meets on the way, page by page until one does not translate. -/
def meetAccess (s : State) (p va n : Nat) (pm : Perm) : Bool × State :=
  let go := fun (x : Bool × State × Bool) (c : Nat × Nat) =>
    if x.2.2 then x
    else
      let t := countWalk x.2.1 p
      match xlate s p c.1 pm with
      | .error .bus => (x.1, (match walkStop s c.1 4 (xlatRoot s p) with | some o => hbmEvent t 2 o p | none => t), true)
      | .error _ => (x.1, t, true)
      | .ok a => if a.target = 0 then (let r := hbmRange p (pm == .w) a.off c.2 t; (x.1 || r.1, r.2, false)) else (x.1, t, x.2.2)
  let m := meshPass s
  let r := (piecesOf va n).foldl go (m.1, m.2, false)
  (r.1, r.2.1)

/-- Read device-virtual bytes, with what the access meets. -/
def meetRead (s : State) (p va n : Nat) (pm : Perm) : Except Fail (List Byte) × State :=
  let (bad, t) := meetAccess s p va n pm
  if bad then (.error .bus, t) else (readPieces t p pm (piecesOf va n), t)

/-- Write device-virtual bytes piece by piece, with what the access meets. -/
def meetWrite (s : State) (p va : Nat) (bs : List Byte) : State × Option Fail :=
  let (bad, t) := meetAccess s p va bs.length .w
  if bad then (t, some .bus) else vaWrite t p va bs

/-- Write device-virtual bytes or none of them. -/
def meetWriteAll (s : State) (p va : Nat) (bs : List Byte) : Except Fail Unit × State :=
  let (bad, t) := meetAccess s p va bs.length .w
  if bad then (.error .bus, t)
  else match vaWriteAll t p va bs with
    | .ok u => (.ok (), u)
    | .error f => (.error f, t)

/-! ## Commands -/

/-- ERR_POP: the oldest record of an instance is removed (R469, R477). -/
def errPopAct (s : State) (n : Nat) : State :=
  { s with hbmRec := tset (fun _ => []) s.hbmRec n ((tget (fun _ => ([] : List (List Byte))) s.hbmRec n).drop 1) }

/-- SCRUB: the scrubber of an instance reads a word; `err` says what it met: 0 nothing, 1 a correctable error, which it writes back
corrected, 2 an uncorrectable one, 3 and 4 one that the stack's own ECC reports corrected and uncorrected (R467, R469, R470). -/
def scrubAct (s : State) (n word err : Nat) : State :=
  if !bitOf (app s (hbmPg n + 0x100)) 0 || !present s .hbm n || (hbmPlace s (8 * word)).1 != n || decide (hbmCap s ≤ 8 * word) then s
  else if err = 1 then hbmEvent { s with actor := (blkCode .hbm, n, 0) } 6 (8 * word) 0xFF
  else if err = 3 then hbmEvent { s with actor := (blkCode .hbm, n, 0) } 3 (8 * word) 0xFF
  else if err = 4 then hbmEvent { s with actor := (blkCode .hbm, n, 0), hbmUe := sins s.hbmUe word } 4 (8 * word) 0xFF
  else if err = 2 || s.hbmUe.contains word then hbmEvent { s with actor := (blkCode .hbm, n, 0), hbmUe := sins s.hbmUe word } 7 (8 * word) 0xFF
  else s

/-- NOC_CRC_FAIL: a packet fails its CRC `fails` times in a row; the first two are retried, after a third its access ends with an error
response (R476). -/
def nocCrcAct (s : State) (fails : Nat) : State :=
  if fails = 0 then s
  else
    let s1 := raiseErr (bump s (nocPg + 0x800) (min fails 2)) .noc 0 8 none
    if fails ≤ 2 then s1 else fault (raiseErr (bump { s1 with nocBad := true } (nocPg + 0x804) 1) .noc 0 9 none) 0x50 .noc 0

/-- XLAT_INV: an invalidation of a partition starts; DONE reads 0 until it completes (R465, R478). -/
def xlatInvAct (s : State) (v : Nat) : State :=
  clrReg { s with invs := if s.invs.contains (v % 4) then s.invs else s.invs ++ [v % 4] } (nocPg + 0x14C) 1

end Sys2Proof.Machine
end

