-- ==== Sys2Proof/Machine/Camera.lean ====
section
/-! DEFINITION. Camera ingress: stream contexts, frames, frame-sync outputs, settings bundles and replay (R136 to R174). -/

namespace Sys2Proof.Machine
open Sys2Proof

/-! ## Stream contexts -/

/-- Page of a stream context. -/
def cp (n : Nat) : Nat := pg .cams n

/-- Is a context enabled: BLK_CTL.ENABLE. -/
def camsOn (s : State) (n : Nat) : Bool := bitOf (regN s (cp n + 8)) 0

/-- Applied SOURCE, VC, DT and PACK of a context (R172). -/
def camSrc (s : State) (n : Nat) : Nat := fld (app s (cp n + 0x100)) 0 5
def camVc (s : State) (n : Nat) : Nat := fld (app s (cp n + 0x100)) 8 4
def camDt (s : State) (n : Nat) : Nat := fld (app s (cp n + 0x100)) 16 6
def camPack (s : State) (n : Nat) : Bool := bitOf (app s (cp n + 0x100)) 24

/-- Applied WIDTH and HEIGHT. -/
def camW (s : State) (n : Nat) : Nat := fld (app s (cp n + 0x104)) 0 16
def camH (s : State) (n : Nat) : Nat := fld (app s (cp n + 0x104)) 16 16

/-- The enabled contexts a source and virtual channel feed; of a pixel packet, those of its data type (R139). -/
def ctxsOf (s : State) (src vc : Nat) (dt : Option Nat) : List Nat :=
  (presentList s .cams).filter (fun n => camsOn s n && camSrc s n == src && camVc s n == vc &&
    (match dt with | some ty => camDt s n == ty | none => true))

/-- Bits per pixel of a pixel data type: RAW8 to RAW16, YUV422-8, RGB888 (R136). -/
def dtBits (ty : Nat) : Option Nat :=
  match ty with
  | 0x2A => some 8 | 0x2B => some 10 | 0x2C => some 12 | 0x2D => some 14 | 0x2E => some 16 | 0x1E => some 16 | 0x24 => some 24
  | _ => none

/-- Pixels and bytes of one packing group of a type: RAW10 4 in 5, RAW12 2 in 3, RAW14 4 in 7 (chapter 05). -/
def dtGroup (ty : Nat) : Nat × Nat :=
  match ty with
  | 0x2A => (1, 1) | 0x2B => (4, 5) | 0x2C => (2, 3) | 0x2D => (4, 7) | 0x24 => (1, 3)
  | _ => (1, 2)

/-- Payload bytes of a line of w pixels as CSI-2 packs them: a width that is no multiple of the packing group takes one more group, whose
absent pixels are stored as 0 (log entry 125). -/
def packedLen (ty w : Nat) : Nat := ceilDiv w (dtGroup ty).1 * (dtGroup ty).2

/-- The pixels of one packing group: for RAW10, RAW12 and RAW14 the high bits come first, then the low bits together (log entry 9). -/
def unpackGroup (ty : Nat) (b : List Byte) : List Nat :=
  let at_ := fun i => (nth 0 b i).toNat
  match ty with
  | 0x2B => (List.range 4).map (fun i => at_ i * 4 + fld (at_ 4) (2 * i) 2)
  | 0x2C => [at_ 0 * 16 + fld (at_ 2) 0 4, at_ 1 * 16 + fld (at_ 2) 4 4]
  | 0x2D => let low := leAt b 4 3; (List.range 4).map (fun i => at_ i * 64 + fld low (6 * i) 6)
  | _ => [leNat b]

/-- The bytes of one packing group of pixels; the 16-bit CAMS_FILL stands in the low bits of an RGB888 pixel (R146; log entry 125). -/
def packGroup (ty : Nat) (p : List Nat) : List Byte :=
  let at_ := fun i => nth 0 p i
  match ty with
  | 0x2B => (List.range 4).map (fun i => BitVec.ofNat 8 (at_ i / 4)) ++
      natLe 1 ((List.range 4).foldl (fun a i => a + at_ i % 4 * 4 ^ i) 0)
  | 0x2C => [BitVec.ofNat 8 (at_ 0 / 16), BitVec.ofNat 8 (at_ 1 / 16), BitVec.ofNat 8 (at_ 0 % 16 + 16 * (at_ 1 % 16))]
  | 0x2D => (List.range 4).map (fun i => BitVec.ofNat 8 (at_ i / 64)) ++
      natLe 3 ((List.range 4).foldl (fun a i => a + at_ i % 64 * 64 ^ i) 0)
  | 0x2A => natLe 1 (at_ 0)
  | 0x24 => natLe 3 (at_ 0)
  | _ => natLe 2 (at_ 0)

/-- Split a list into groups of k, the last one shorter; fuel bounds their number. -/
def groups {α : Type} (k : Nat) : Nat → List α → List (List α)
  | 0, _ => []
  | f + 1, l => if l.isEmpty then [] else l.take k :: groups k f (l.drop k)

/-- The pixels whole in a payload: the bytes of an incomplete packing group give none, and the group is filled (R148; log entry 125). -/
def unpackLine (ty : Nat) (b : List Byte) : List Nat :=
  ((groups (dtGroup ty).2 b.length b).filter (fun g => g.length == (dtGroup ty).2)).flatMap (unpackGroup ty)

/-- A line of pixels as stored: as CSI-2 packs them, or a 16-bit word each (chapter 05; PACK leaves YUV and RGB lines as they came,
log entry 9). -/
def storeLine (ty : Nat) (pack : Bool) (px : List Nat) : List Byte :=
  if pack && (ty != 0x24) then px.flatMap (natLe 2)
  else (groups (dtGroup ty).1 px.length px).flatMap (packGroup ty)

/-- Bytes of one stored line of a context. -/
def lineBytes (ty : Nat) (pack : Bool) (w : Nat) : Nat := if pack && (ty != 0x24) then 2 * w else packedLen ty w

/-- Address of the slot of a sequence (R140). -/
def camSlot (s : State) (n : Nat) (q : Word) : Nat :=
  fld (app s (cp n + 0x118)) 12 20 * 4096 + 2 ^ 32 * app s (cp n + 0x11C) +
    q.toNat % max 1 (app s (cp n + 0x124)) * app s (cp n + 0x120)

/-! ## Triggers bound to a context -/

/-- The started graph and flow whose CAMERA trigger a context feeds, with its logical index (R97, R100). -/
def camFlow (s : State) (n : Nat) : Option (Nat × Nat × Nat) :=
  s.graphs.findSome? (fun e =>
    if e.2.stat != .started then none
    else (e.2.binds.find? (fun b => b.1 == blkCode .cams && b.2.2 == n)).bind (fun b =>
      (e.2.img.trigs.find? (fun t => t.kind == 1 && t.streams.contains b.2.1)).bind (fun t =>
        (flowIdx e.2 t.flow).map (fun f => (e.1, f, b.2.1)))))

/-- Log a dropped frame of a context, count it, and abandon its sequence (R45, R104, R151, R172). -/
def frameDrop (s : State) (n : Nat) (q : Word) (fs reason : Nat) : State :=
  if (camsAt s n).logged = some q then s
  else
    let p := owner s .cams n
    let s1 := dlogPut (setCams s n { camsAt s n with logged := some q }) p 0x0010 n q.toNat fs reason
    let s2 := raiseIrq (bump s1 (cp n + 0x808) 1) .cams n 9 none
    match camFlow s2 n with
    | none => s2
    | some (g, f, _) => abandonSeq s2 g f q

/-- The frame of a context is marked dropped; its later packets are discarded (R151, R152). -/
def dropOpen (s : State) (n : Nat) (fr : OpenFrame) (reason : Nat) : State :=
  frameDrop (setCams s n { camsAt s n with frame := some { fr with drop := true } }) n fr.seq fr.fs.toNat reason

/-- The reasons a frame's flags give it under CAMS_POLICY (R149): SHORT 2, LONG 3, CRC or length 4. -/
def dropReasons (s : State) (n flags : Nat) : List Nat :=
  let pol := app s (cp n + 0x10C)
  (if bitOf flags 0 && !bitOf pol 0 then [2] else []) ++ (if bitOf flags 1 && !bitOf pol 1 then [3] else []) ++
  (if (bitOf flags 2 || bitOf flags 3) && !bitOf pol 2 then [4] else [])

/-- The lowest reason among those of the flags and one more (R151). -/
def leastReason (s : State) (n flags r : Nat) : Nat := (dropReasons s n flags).foldl min r

/-- A translation or permission fault on a buffer write halts the context and drops the frame (R67, R154). -/
def camHalt (s : State) (n : Nat) (fr : OpenFrame) : State :=
  let s1 := raiseIrq (setCams s n { camsAt s n with halted := true }) .cams n 2 none
  dropOpen (raiseErr s1 .cams n 8 none) n fr (leastReason s n fr.flags 1)

/-! ## Frame sync -/

/-- The SCTL instance and the slot base of a frame-sync output (R164). -/
def fsyncSctl (n : Nat) : Nat := if n < 12 then n else n - 12
def fsyncBase (n : Nat) : Nat := pg .sctl (fsyncSctl n) + if n < 12 then 0x180 else 0x1A0

/-- Is an output present: its SCTL is (R164). -/
def fsyncPresent (s : State) (n : Nat) : Bool := decide (n < 16) && present s .sctl (fsyncSctl n)

/-- Has an output a schedule: armed, or disarmed with its last pulse still lasting (R145, R165). -/
def fsyncRuns (s : State) (n : Nat) : Bool :=
  let f := fsyncAt s n
  f.armed || decide ((s.time - f.lastAt).toNat < f.width)

/-- Index and instant of the latest pulse of an output since it was armed, if its schedule has not ended (R143, R145). -/
def latestPulse (s : State) (n : Nat) : Option (Word × DWord) :=
  let f := fsyncAt s n
  if f.valid && fsyncRuns s n then some (BitVec.ofNat 32 (f.count - 1), f.lastAt) else none

/-- Sequence k of a context got no frame (R144, R145, R654). -/
def missedPulse (s : State) (n : Nat) (k : Word) : State :=
  match (camsAt s n).prev with
  | none => s
  | some q =>
    if !seqAbove k q then s
    else match camFlow s n with
      | some (g, f, _) => if (flowAt (graphAt s g) f).stopped then s else frameDrop s n k 0 5
      | none => frameDrop s n k 0 5

/-- A scheduled pulse begins (R144, R165). -/
def pulse (s : State) (n : Nat) : State :=
  let f := fsyncAt s n
  let at_ := f.start + BitVec.ofNat 64 (f.count * f.period)
  if !f.armed || !fsyncPresent s n || decide (s.time.toNat < at_.toNat) then s
  else
    let s1 := setFsync s n { f with count := f.count + 1, lastAt := at_, valid := true }
    let s2 := setRegN s1 (fsyncBase n + 0x14) f.count
    if f.count = 0 then s2
    else forAll ((presentList s .cams).filter (fun c => camsOn s c && bitOf (app s (cp c + 0x108)) 0 &&
        fld (app s (cp c + 0x108)) 4 4 == n)) (fun c t => missedPulse t c (BitVec.ofNat 32 (f.count - 1))) s2

/-- Write of FSYNC_CTL of a slot (R165). -/
def fsyncWrite (s : State) (n : Nat) (v : Word) : State :=
  let b := fsyncBase n
  let u := fsyncSctl n
  let f := fsyncAt s n
  let start := reg64 s b (b + 4)
  if bitOf v.toNat 0 then
    if start < s.time.toNat + 10000 then raiseErr s .sctl u 10 none
    else setFsync (setRegN s (b + 0x10) (v.toNat % 4)) n
      { armed := true, start := BitVec.ofNat 64 start, period := regN s (b + 8), width := regN s (b + 0xC), count := 0,
        lastAt := 0, valid := false }
  else setFsync (setRegN s (b + 0x10) (v.toNat % 4)) n { f with armed := false }

/-- Is an output active: its pulse lasts (R165, R446). -/
def fsyncHigh (s : State) (n : Nat) : Bool :=
  let f := fsyncAt s n
  f.valid && decide ((s.time - f.lastAt).toNat < f.width)

/-- Level of an output's ball: POLARITY 0 is active high; an absent output's ball stays inactive, low (R164, R173). -/
def fsyncPin (s : State) (n : Nat) : Bool :=
  if fsyncPresent s n then fsyncHigh s n != bitOf (regN s (fsyncBase n + 0x10)) 1 else false

/-! ## Settings -/

/-- Page of an SCTL. -/
def sp (u : Nat) : Nat := pg .sctl u

/-- Applied profile word f of an SCTL. -/
def profA (s : State) (u f : Nat) : Nat := app s (sp u + 0x110 + 0x10 * f)

/-- Applied WIN_LEN of a profile in ns. -/
def profWin (s : State) (u f : Nat) : Nat := fld (app s (sp u + 0x114 + 0x10 * f)) 0 20 * 1000

/-- L of a profile. -/
def profL (s : State) (u f : Nat) : Nat := fld (profA s u f) 8 3

/-- Enabled profiles of an SCTL that serve a context. -/
def profsOf (s : State) (u n : Nat) : List Nat :=
  (List.range 4).filter (fun f => bitOf (profA s u f) 0 && fld (profA s u f) 2 6 == n)

/-- Open the settings windows that frame q of a context opens, as of an instant: each lasts its own WIN_LEN (R159). -/
def openWindows (s : State) (n : Nat) (q : Word) (t : DWord) : State :=
  forAll (presentList s .sctl) (fun u s => forAll (profsOf s u n) (fun f s =>
    let c := sctlAt s u
    let w : Window := ⟨q + BitVec.ofNat 32 (profL s u f), t + BitVec.ofNat 64 (profWin s u f)⟩
    setSctl s u { c with
      wins := tset (fun _ => []) c.wins f (tget (fun _ => []) c.wins f ++ [w])
      opened := tset (fun _ => none) c.opened f (some w.target) }) s) s

/-- The settings ID in effect for a frame (R162). -/
def settingsFor (s : State) (n : Nat) (q : Word) : Nat :=
  (camsAt s n).effects.foldl (fun id e => if seqAbove e.frame q then id else e.id) 0

/-- Does a frame carry SETTINGS_LATE (R162). -/
def settingsLate (s : State) (n : Nat) (q : Word) : Bool :=
  (camsAt s n).late.any (fun l => !seqAbove l.target q && (match l.until_ with | none => true | some e => seqAbove e q))

/-! ## Frame start -/

/-- Has a stream of the trigger gone past a sequence it never started: a drop of it was logged, or a start above it came (R104). -/
def passedSeq (s : State) (n : Nat) (q : Word) : Bool :=
  let past := fun (x : Option Word) => match x with | some v => v == q || seqAbove v q | none => false
  past (camsAt s n).logged || (match (camsAt s n).prev with | some v => seqAbove v q | none => false)

/-- The decision on a sequence of a CAMERA trigger at its first frame start: reserve it, or refuse it (R101, R103). A sequence that another
stream of the trigger has gone past is abandoned as it is reserved (R104). -/
def decideSeq (s : State) (g f : Nat) (q : Word) : Bool × State :=
  let x := flowAt (graphAt s g) f
  match x.decided.find? (fun d => d.1 == q) with
  | some d => (d.2, s)
  | none =>
    let ok := roomFor s g f
    let p := (graphAt s g).part
    let s1 := modFlow s g f (fun y => { y with decided := y.decided ++ [(q, ok)] })
    if ok then
      let s2 := reserve s1 g f ⟨q, s.time, 0, 0, []⟩
      (true, if ((trigOf (graphAt s g) f).streams.filterMap (boundTo (graphAt s g) .cams)).any (passedSeq s · q) then abandonSeq s2 g f q else s2)
    else (false, raiseIrq (bump s1 (fgsCnt p 0x10) 1) .fgs 0 9 (some p))

/-- Forget decisions every stream of the trigger has passed. -/
def pruneDecided (s : State) (g f : Nat) : State :=
  let x := graphAt s g
  let ctx := (trigOf x f).streams.filterMap (boundTo x .cams)
  modFlow s g f (fun y => { y with decided := y.decided.filter (fun d =>
    ctx.any (fun n => match (camsAt s n).prev with | none => true | some q => seqBelow q d.1)) })

/-- A frame start of sequence q on logical stream k abandons reserved sequences below q that this stream did not deliver (R104). -/
def abandonBelow (s : State) (g f k : Nat) (q : Word) : State :=
  forAll (((flowAt (graphAt s g) f).resv.filter (fun r => seqBelow r.seq q && !r.ends.any (fun e => e.1 == k))).map (·.seq))
    (fun r t => abandonSeq t g f r) s

/-- A frame of sequence q starts on a context: admission, refusal or discard (R103, R104, R154, R654). A stopped flow's frame is discarded
under R654 on a halted context too (log entry 126). -/
def startSeq (s : State) (n : Nat) (q : Word) (fr : OpenFrame) : State :=
  let s0 := setRegN (setCams s n { camsAt s n with prev := some q, frame := some fr, swallow := false }) (cp n + 0x134) q.toNat
  let halted := (camsAt s0 n).halted
  match camFlow s0 n with
  | none => if halted then dropOpen s0 n fr 1 else s0
  | some (g, f, k) =>
    let s1 := abandonBelow s0 g f k q
    if (flowAt (graphAt s1 g) f).stopped then
      bump (setCams s1 n { camsAt s1 n with frame := some { fr with drop := true } }) (cp n + 0x81C) 1
    else
      let (ok, s2) := decideSeq s1 g f q
      pruneDecided (if ok && !halted then s2 else dropOpen s2 n fr 1) g f

/-- A frame start that is no frame of any sequence (R144, R145). -/
def startExtra (s : State) (n : Nat) (fr : OpenFrame) (ctr : Nat) : State :=
  bump (setCams s n { camsAt s n with frame := some { fr with drop := true, extra := true }, swallow := false }) (cp n + ctr) 1

/-- The windows that the last-pixel stamp of a frame that ends short opens (R142, R159). -/
def shortEnd (s : State) (n : Nat) (fr : OpenFrame) : State :=
  if !fr.extra && decide (fr.lines < camH s n) then openWindows s n fr.seq fr.last else s

/-- The open frame of a context ends without a frame end (R150). -/
def endLost (s : State) (n : Nat) : State :=
  match (camsAt s n).frame with
  | some fr =>
    let t := shortEnd s n fr
    let u := if fr.drop then t else dropOpen t n fr (leastReason t n fr.flags 5)
    setCams u n { camsAt u n with frame := none }
  | none => s

/-- A frame start packet on a context: an open frame ends, a pending commit takes its boundary, and the new frame starts (R72, R142 to R145,
R150). The last-pixel stamp of a frame with no line is its frame-start stamp (log entry 127). -/
def startOn (commit : Nat → State → State) (s : State) (n num : Nat) : State :=
  let s1 := commit n (endLost s n)
  let fr : OpenFrame := { seq := 0, fs := s.time, last := s.time, num := num }
  if bitOf (app s1 (cp n + 0x108)) 0 then
    match latestPulse s1 (fld (app s1 (cp n + 0x108)) 4 4) with
    | none => startExtra s1 n fr 0x818
    | some (k, at_) =>
      match (camsAt s1 n).prev with
      | some q => if seqAbove k q then startSeq s1 n k { fr with seq := k, pulse := at_ } else startExtra s1 n fr 0x814
      | none => startSeq s1 n k { fr with seq := k, pulse := at_ }
  else
    let q := match (camsAt s1 n).prev with | some q => q + 1 | none => 0
    startSeq s1 n q { fr with seq := q }

/-! ## Packets -/

/-- Page of a receiver port. -/
def cport (p : Nat) : Nat := pg .camp p

/-- Virtual channel as the port decodes it: without VCX_EN only two bits (R136). -/
def vcOf (s : State) (port vc : Nat) : Nat := if bitOf (app s (cport port + 0x100)) 5 then vc % 16 else vc % 4

/-- Is a port receiving: present, and its MODE is not off (R137, R171). -/
def portOn (s : State) (p : Nat) : Bool := present s .camp p && fld (app s (cport p + 0x100)) 0 2 != 0

/-- An uncorrectable header on a port (R138). -/
def headerLost (s : State) (port : Nat) : State :=
  forAll ((presentList s .cams).filter (fun n => camSrc s n == port)) (fun n t =>
    match (camsAt t n).frame with
    | some fr => if fr.drop then t else dropOpen t n fr (leastReason t n fr.flags 6)
    | none => t) (bump s (cport port + 0x804) 1)

/-- A packet whose header was read reaches the contexts its channel names, of a pixel packet those of its type; else it is counted as unmapped.
A payload CRC error is counted whichever way the packet goes (R136, R138, R139, R171). -/
def toCtx (s : State) (port vc : Nat) (dt : Option Nat) (fix bad : Bool) (f : Nat → State → State) : State :=
  if !portOn s port then s
  else
    let s1 := if fix then bump s (cport port + 0x800) 1 else s
    let l := ctxsOf s1 port (vcOf s1 port vc) dt
    match l.find? (injArmed s1 .cams · 1) with
    | some n => headerLost (injUsed s1 .cams n 1) port
    | none =>
      let s2 := if bad then bump s1 (cport port + 0x808) 1 else s1
      if l.isEmpty then bump s2 (cport port + 0x80C) 1 else forAll l f s2

/-- A line or frame end with no frame open: in COUNT mode a frame start was lost (R150). -/
def lostStart (s : State) (n : Nat) : State :=
  let c := camsAt s n
  if c.swallow || bitOf (app s (cp n + 0x108)) 0 then s
  else
    let q : Word := match c.prev with | some q => q + 1 | none => 0
    frameDrop (setCams s n { c with prev := some q, swallow := true }) n q 0 6

/-- Write one line and its entry of the line-status map; a failing write keeps what was written before it (R141, R146, R148, R152). -/
def writeLine (s : State) (n : Nat) (fr : OpenFrame) (px : List Nat) (code : Nat) : Option OpenFrame × State :=
  let p := owner s .cams n
  let slot := camSlot s n fr.seq
  let i := fr.lines
  let lsm := (if i % 4 = 0 then 0 else fr.lsm) + code * 4 ^ (i % 4)
  match meetWrite s p (slot + 0x1000 + i * app s (cp n + 0x114)) (storeLine (camDt s n) (camPack s n) px) with
  | (t, some _) => (none, t)
  | (t, none) => match meetWrite t p (slot + app s (cp n + 0x128) + i / 4) (natLe 1 lsm) with
    | (t2, some _) => (none, t2)
    | (t2, none) => (some { fr with lines := i + 1, lsm := lsm }, t2)

/-- A pixel line on a context with a frame open (R146 to R148). -/
def lineOn (s : State) (n : Nat) (bytes : List Byte) (bad : Bool) (fr : OpenFrame) : State :=
  let h := camH s n
  if fr.extra then s
  else if h ≤ fr.lines then
    if fr.drop then s
    else bump (setCams s n { camsAt s n with frame := some { fr with excess := fr.excess + 1, flags := fr.flags ||| 2 } }) (cp n + 0x80C) 1
  else
    let fr1 := { fr with last := s.time }
    let s1 :=
      if fr.drop then setCams s n { camsAt s n with frame := some { fr1 with lines := fr.lines + 1 } }
      else
        let want := packedLen (camDt s n) (camW s n)
        let wrong := bytes.length != want
        let px := (unpackLine (camDt s n) (bytes.take want)).take (camW s n)
        let full := px ++ List.replicate (camW s n - px.length) (app s (cp n + 0x110) % 65536)
        let code := if wrong then 2 else if bad then 1 else 0
        let mark := decide (code ≠ 0)
        let fr2 := { fr1 with flags := fr.flags ||| (if bad then 4 else 0) ||| (if wrong then 8 else 0), bad := fr.bad + b2n mark }
        match writeLine (if mark then bump s (cp n + 0x810) 1 else s) n fr2 full code with
        | (none, t) => camHalt t n fr2
        | (some fr3, t) => setCams t n { camsAt t n with frame := some fr3 }
    if fr.lines + 1 = h then openWindows s1 n fr.seq s1.time else s1

/-- A long pixel packet of a type of R136; one of another type matches no context (R138, R139, R148; log entry 128). An armed injection makes
the next line's payload CRC wrong (R172). -/
def linePkt (s : State) (port vc ty : Nat) (bytes : List Byte) (bad fix : Bool) : State :=
  toCtx s port vc (some (if (dtBits ty).isSome then ty else 64)) fix bad (fun n s =>
    let inj := injArmed s .cams n 0
    let s1 := if inj then (if bad then id else fun t => bump t (cport port + 0x808) 1) (injUsed s .cams n 0) else s
    match (camsAt s1 n).frame with
    | none => lostStart s1 n
    | some fr => lineOn s1 n bytes (bad || inj) fr)

/-- An embedded-data or user-defined packet (R136, R141). A payload CRC error of it is counted and marks no frame, since CRC_ERR and the
line-status map speak of lines (R138; log entry 128). -/
def embPkt (s : State) (port vc ty : Nat) (bytes : List Byte) (bad fix : Bool) : State :=
  if !(ty == 0x12 || (decide (0x30 ≤ ty) && decide (ty ≤ 0x37))) then s
  else toCtx s port vc none fix bad (fun n s =>
    match (camsAt s n).frame with
    | none => s
    | some fr =>
      if fr.drop then s
      else
        let need := 4 + (bytes.length + 3) / 4 * 4
        if app s (cp n + 0x130) < fr.emb + need then
          setCams s n { camsAt s n with frame := some { fr with flags := fr.flags ||| 0x20 } }
        else
          let d := natLe 4 (ty + 256 * bytes.length) ++ bytes ++ List.replicate (need - 4 - bytes.length) 0
          match meetWrite s (owner s .cams n) (camSlot s n fr.seq + app s (cp n + 0x12C) + fr.emb) d with
          | (t, none) => setCams t n { camsAt t n with frame := some { fr with emb := fr.emb + need } }
          | (t, some _) => camHalt t n fr)

/-! ## Frame end -/

/-- The metadata header of a frame (R155). -/
def metaBytes (s : State) (n : Nat) (fr : OpenFrame) (flags lines : Nat) : List Byte :=
  let b := natLe 8 fr.fs.toNat ++ natLe 8 fr.last.toNat ++ natLe 8 fr.pulse.toNat ++ natLe 4 fr.seq.toNat ++ natLe 2 fr.num ++
    natLe 2 (settingsFor s n fr.seq) ++ natLe 2 flags ++ natLe 2 lines ++ natLe 4 fr.excess ++ natLe 2 fr.bad ++ natLe 2 n ++
    natLe 1 (camVc s n) ++ natLe 1 (camDt s n) ++ natLe 1 (b2n (camPack s n)) ++ natLe 1 0 ++ natLe 4 fr.emb ++
    natLe 2 (camW s n) ++ natLe 2 (camH s n) ++ natLe 4 0
  b ++ natLe 4 (crc32 b)

/-- Write the missing lines of a short frame (R146). -/
def fillLines (n : Nat) : Nat → OpenFrame → State → Option OpenFrame × State
  | 0, fr, s => (some fr, s)
  | k + 1, fr, s => match writeLine s n fr (List.replicate (camW s n) (app s (cp n + 0x110) % 65536)) 3 with
    | (none, t) => (none, t)
    | (some fr2, t) => fillLines n k fr2 t

/-- A frame-end event reaches the sequencer: the stream's entry of its reserved sequence (R105, R106, R153). -/
def frameEndEvent (s : State) (n : Nat) (q : Word) (stamp : DWord) (flags : Nat) : State :=
  let s1 := raiseIrq (setCams s n { camsAt s n with ended := some q }) .cams n 8 none
  match camFlow s1 n with
  | none => s1
  | some (g, f, k) => modFlow s1 g f (fun x => { x with resv := x.resv.map (fun r =>
      if r.seq = q ∧ !r.ends.any (fun e => e.1 == k) then { r with ends := r.ends ++ [(k, stamp, flags)] } else r) })

/-- Count a kept frame (R172). -/
def countKept (s : State) (n flags : Nat) : State :=
  if flags % 16 = 0 then bump s (cp n + 0x800) 1 else raiseIrq (bump s (cp n + 0x804) 1) .cams n 10 none

/-- The end of an open frame that is still kept (R146, R149, R151 to R154). -/
def endOn (s : State) (n : Nat) (fr : OpenFrame) : State :=
  let h := camH s n
  let flags := fr.flags ||| (if fr.lines < h then 1 else 0)
  let s0 := if fr.lines < h then openWindows s n fr.seq fr.last else s
  match dropReasons s n flags with
  | r :: rs => let t := dropOpen s0 n fr (rs.foldl min r); setCams t n { camsAt t n with frame := none }
  | [] => match fillLines n (h - fr.lines) fr s0 with
    | (none, t) => let t2 := camHalt t n fr; setCams t2 n { camsAt t2 n with frame := none }
    | (some fr2, t) =>
      let fl := flags ||| (if settingsLate t n fr.seq then 0x10 else 0)
      match meetWrite t (owner t .cams n) (camSlot t n fr.seq) (metaBytes t n fr2 fl fr.lines) with
      | (t1, some _) => let t2 := camHalt t1 n fr; setCams t2 n { camsAt t2 n with frame := none }
      | (t2, none) =>
        frameEndEvent (countKept (setCams t2 n { camsAt t2 n with frame := none }) n fl) n fr.seq fr.last fl

/-- A frame-end packet (R149, R150, R153). -/
def endPkt (s : State) (port vc : Nat) (fix : Bool) : State :=
  toCtx s port vc none fix false (fun n s => match (camsAt s n).frame with
    | none => lostStart s n
    | some fr =>
      if fr.drop then
        let s1 := shortEnd s n fr
        setCams s1 n { camsAt s1 n with frame := none }
      else endOn s n fr)

/-- FRAME_TIMEOUT passes with no frame end: the frame ends and is dropped (R150). -/
def frameTimeoutAct (s : State) (n : Nat) : State :=
  let lim := fld (app s (cp n + 0x10C)) 16 16
  match (camsAt s n).frame with
  | none => s
  | some fr =>
    if lim == 0 || decide ((s.time - fr.fs).toNat < lim * 1000) then s else endLost s n

/-- A context enabled again starts afresh: its sequences restart, and no window of an earlier one counts as opened (R143, R154, R161). -/
def camsEnable (s : State) (n : Nat) : State :=
  forAll (presentList s .sctl) (fun u s => forAll (profsOf s u n) (fun f s =>
    setSctl s u { sctlAt s u with opened := tset (fun _ => none) (sctlAt s u).opened f none }) s)
    (setCams s n { camsAt s n with prev := none, frame := none, swallow := false, halted := false, logged := none })

/-! ## Bundles -/

/-- Clocks of a bundle entry (R159). -/
def entClocks (e : List Byte) : Nat :=
  10 * (1 + (if bitOf (leAt e 1 1) 0 then 2 else 1) + fld (leAt e 1 1) 4 4) + 2

/-- Does a bundle fit in the time from now to an instant: the sum of clocks at 10,000 / RATE ns each (R159, R173). -/
def bundleFits (s : State) (u : Nat) (b : Bundle) (close : DWord) : Bool :=
  let rate := fld (app s (sp u + 0x100)) 8 8
  decide (s.time.toNat < close.toNat) &&
  decide ((b.entries.map entClocks).foldl (· + ·) 0 * 10000 ≤ (close - s.time).toNat * rate)

/-- The profile a bundle belongs to: the first enabled one naming its context. -/
def bundleProf (s : State) (u : Nat) (b : Bundle) : Option Nat := (profsOf s u b.ctx).head?

/-- The open windows of a profile, oldest first (R159). -/
def winsAt (s : State) (u f : Nat) : List Window := tget (fun _ => ([] : List Window)) (sctlAt s u).wins f

/-- The window a bundle may be issued in now: that of its target, or the first it fits in once it is late (R159, R161). -/
def bundleWin (s : State) (u : Nat) (b : Bundle) : Option Window :=
  (bundleProf s u b).bind (fun f => (winsAt s u f).find? (fun w => (b.late || w.target == b.target) && bundleFits s u b w.close))

/-- Has the window of a target of a profile opened already (R159). -/
def windowGone (s : State) (u f : Nat) (q : Word) : Bool :=
  match tget (fun _ => (none : Option Word)) (sctlAt s u).opened f with
  | some w => !seqAbove q w
  | none => false

/-- A bundle is late (R161): raised and counted, then discarded or kept for a later window. -/
def bundleLate (s : State) (u : Nat) (b : Bundle) : State :=
  let s1 := raiseIrq (bump s (sp u + 0x804) 1) .sctl u 8 none
  let until_ := if b.discard then some (BitVec.ofNat 32 (regN s (cp b.ctx + 0x134) + 1)) else none
  let s2 := setCams s1 b.ctx { camsAt s1 b.ctx with late := (camsAt s1 b.ctx).late ++ [⟨b.target, until_, b.id, false⟩] }
  if b.discard then bump s2 (sp u + 0x808) 1
  else s2

/-- Bytes of a bundle's header that hold nothing else (R157). -/
def bundleOk (s : State) (u : Nat) (h : List Byte) (es : List (List Byte)) : Bool :=
  let n := leAt h 8 1
  let ctx := leAt h 6 2
  decide (1 ≤ n) && decide (n ≤ 32) && fld (leAt h 9 1) 1 7 == 0 && zeros h 10 16 && !(profsOf s u ctx).isEmpty &&
  present s .cams ctx && owner s .cams ctx == owner s .sctl u &&
  es.all (fun e => decide (1 ≤ fld (leAt e 1 1) 4 4) && decide (fld (leAt e 1 1) 4 4 ≤ 4))

/-- A push is refused (R158, R173). -/
def pushReject (s : State) (u : Nat) : State := setRegN s (sp u + 0x15C) ((sctlAt s u).queue.length + 256)

/-- A push (R158, R161). Before the first frame start of its context there is no current sequence, and a bundle is not late at once (log
entry 129). -/
def bundlePushAct (s : State) (u : Nat) : State :=
  let p := owner s .sctl u
  let a := alignDown (regN s (sp u + 0x150)) 8 + 2 ^ 32 * regN s (sp u + 0x154)
  let c := sctlAt s u
  match vaRead s p a 16 with
  | .error _ => pushReject (raiseErr s .sctl u 11 none) u
  | .ok h => match vaRead s p (a + 16) (8 * min 32 (leAt h 8 1)) with
    | .error _ => pushReject (raiseErr s .sctl u 11 none) u
    | .ok d =>
      let es := groups 8 32 d
      if c.queue.length ≥ 16 || !bundleOk s u h es then pushReject s u
      else
        let ctx := leAt h 6 2
        let b : Bundle := ⟨BitVec.ofNat 32 (leAt h 0 4), leAt h 4 2, ctx, bitOf (leAt h 9 1) 0, es, false, 0⟩
        let f := (bundleProf s u b).getD 0
        let cur := BitVec.ofNat 32 (regN s (cp ctx + 0x134) + profL s u f - 1)
        let past := (camsAt s ctx).prev.isSome && !seqAbove b.target cur
        let mine := (winsAt s u f).find? (fun w => w.target == b.target)
        let short := match mine with
          | some w => c.bus.isNone && !bundleFits s u b w.close
          | none => windowGone s u f b.target
        let late := past || short
        let s1 := if late then bundleLate s u b else s
        let s2 := if late && b.discard then s1 else setSctl s1 u { sctlAt s1 u with queue := c.queue ++ [{ b with late := late }] }
        setRegN s2 (sp u + 0x15C) (sctlAt s2 u).queue.length

/-- The bundle to issue: earliest window close, then push order (R160). -/
def nextBundle (s : State) (u : Nat) : Option (Nat × Bundle × Window) :=
  ((sctlAt s u).queue.zipIdx).foldl (fun acc x => match bundleWin s u x.1 with
    | none => acc
    | some w => match acc with
      | none => some (x.2, x.1, w)
      | some (_, _, w') => if w.close.toNat < w'.close.toNat then some (x.2, x.1, w) else acc) none

/-- Bytes sent on the bus for an entry (R157): address, register with its low byte first (log entry 129), data. -/
def entSent (s : State) (u : Nat) (b : Bundle) (e : List Byte) : List Byte :=
  let a := leAt e 0 1 % 128
  let addr := if a = 0 then fld (profA s u ((bundleProf s u b).getD 0)) 16 7 else a
  natLe 1 addr ++ (if bitOf (leAt e 1 1) 0 then natLe 2 (leAt e 2 2) else natLe 1 (leAt e 2 2)) ++ (e.drop 4).take (fld (leAt e 1 1) 4 4)

/-- Issue the due bundle when the bus is free (R160, R161). -/
def bundleIssueAct (s : State) (u : Nat) : State :=
  let c := sctlAt s u
  if c.bus.isSome then s
  else match nextBundle s u with
    | none => s
    | some (i, b, w) =>
      let s1 := setSctl s u { c with queue := c.queue.eraseIdx i, bus := some { b with effect := w.target } }
      setRegN s1 (sp u + 0x15C) (c.queue.length - 1 + alignDown (regN s (sp u + 0x15C)) 256)

/-- The late marks of a stream after a bundle took effect: that of the bundle itself, if it was late, and those of bundles a sensor refused, end
at the frame it takes effect at (R162, R163). -/
def endLate (b : Bundle) : List Late → List Late
  | [] => []
  | l :: r =>
    if l.until_.isNone && l.nack then { l with until_ := some b.effect } :: endLate b r
    else if l.until_.isNone && b.late && l.target == b.target && l.id == b.id then { l with until_ := some b.effect } :: r.map (fun x =>
      if x.until_.isNone && x.nack then { x with until_ := some b.effect } else x)
    else l :: endLate b r

/-- The bundle on the bus ends (R162, R163). A sensor that does not acknowledge stops it after entries whose number is open. -/
def bundleDoneAct (s : State) (u : Nat) (nack : Bool) : State :=
  let c := sctlAt s u
  match c.bus with
  | none => s
  | some b =>
    let n := if nack then freeVal s % (b.entries.length + 1) else b.entries.length
    let s0 := if nack then drawn s else s
    let s1 := setSctl s0 u { c with bus := none, sent := c.sent ++ (b.entries.take n).map (entSent s u b) }
    let k := camsAt s1 b.ctx
    if nack then
      let late := if b.late then k.late.map (fun l => if l.until_.isNone && l.target == b.target && l.id == b.id then { l with nack := true } else l)
        else k.late ++ [⟨b.target, none, b.id, true⟩]
      bump (raiseErr (setCams s1 b.ctx { k with late := late }) .sctl u 8 none) (sp u + 0x80C) 1
    else
      let s2 := setCams s1 b.ctx { k with effects := k.effects ++ [⟨b.effect, b.id⟩], late := endLate b k.late }
      let s3 := setRegN s2 (sp u + 0x160) (b.id + 65536 * b.ctx)
      raiseIrq (bump s3 (sp u + 0x800) 1) .sctl u 9 none

/-- A window of a profile closes: bundles due in it that were not issued are late (R161). -/
def closeWindow (u f : Nat) (w : Window) (s : State) : State :=
  let c := sctlAt s u
  let due := fun (b : Bundle) => !b.late && b.target == w.target && bundleProf s u b == some f
  let s1 := setSctl s u { c with
    wins := tset (fun _ => []) c.wins f ((winsAt s u f).erase w)
    queue := (c.queue.filter (fun b => !(due b && b.discard))).map (fun b => if due b then { b with late := true } else b) }
  let s2 := setRegN s1 (sp u + 0x15C) ((sctlAt s1 u).queue.length + alignDown (regN s (sp u + 0x15C)) 256)
  forAll (c.queue.filter due) (fun b t => bundleLate t u b) s2

/-- Windows of a profile whose instant has come close (R159, R161). -/
def windowCloseAct (s : State) (u f : Nat) : State :=
  forAll ((winsAt s u f).filter (fun w => decide (w.close.toNat ≤ s.time.toNat))) (closeWindow u f) s

/-- SETDASA as sent at ENABLE in I3C mode for each enabled profile: the broadcast address with the command code, then the static address, which
the sensor gets as its dynamic address too (R156; log entry 130). -/
def sctlEnable (s : State) (u : Nat) : State :=
  if bitOf (app s (sp u + 0x100)) 0 then s
  else
    let c := sctlAt s u
    setSctl s u { c with sent := c.sent ++ ((List.range 4).filter (fun f => bitOf (profA s u f) 0)).flatMap (fun f =>
      [[0x7E, 0x87], natLe 1 (fld (profA s u f) 16 7) ++ natLe 1 (2 * fld (profA s u f) 16 7)]) }

/-! ## Replay -/

/-- Page of a replay channel. -/
def rp (r : Nat) : Nat := pg .rpl r

/-- Applied LISTc_CFG. -/
def listCfg (s : State) (r c : Nat) : Nat := app s (rp r + 0x118 + 0x10 * c)

/-- Address of a list's next item (R166). -/
def itemAddr (s : State) (r c : Nat) : Nat :=
  fld (app s (rp r + 0x110 + 0x10 * c)) 12 20 * 4096 + 2 ^ 32 * app s (rp r + 0x114 + 0x10 * c) +
    32 * (regN s (rp r + 0x210 + 4 * c) % 2 ^ fld (listCfg s r c) 0 5)

/-- Has a list an item: enabled, and its indices differ. -/
def listReady (s : State) (r c : Nat) : Bool :=
  bitOf (listCfg s r c) 16 && reg s (rp r + 0x11C + 0x10 * c) != reg s (rp r + 0x210 + 4 * c)

/-- The context a list feeds: enabled, named by TARGET, fed by this channel and owned by its partition (R166, R174). -/
def listCtx (s : State) (r c : Nat) : Option Nat :=
  let n := fld (listCfg s r c) 8 6
  if present s .cams n && camsOn s n && camSrc s n == 16 + r && owner s .cams n == owner s .rpl r then some n else none

/-- An item as read, or the failure of its read (R170). -/
def readItem (s : State) (r c : Nat) : Except Fail (List Byte) := vaRead s (owner s .rpl r) (itemAddr s r c) 32

/-- Would the sequencer admit a sequence on a context (R103, R168). -/
def wouldAdmit (s : State) (n : Nat) (q : Word) : Bool :=
  match camFlow s n with
  | none => true
  | some (g, f, _) => (flowAt (graphAt s g) f).stopped ||
    (match (flowAt (graphAt s g) f).decided.find? (fun d => d.1 == q) with | some d => d.2 | none => roomFor s g f)

/-- The instant from which an item may be injected: for FRAME in REALTIME, its recorded LAST_PIXEL_TIME plus PACE_OFFSET (R169). -/
def itemAt (s : State) (r : Nat) (it : List Byte) : Nat :=
  if leAt it 0 2 = 1 ∧ bitOf (app s (rp r + 0x100)) 0 then
    match vaNat s (owner s .rpl r) (leAt it 8 8 + 8) 8 with
    | .ok t => trunc ((t : Int) + sext (app64 s (rp r + 0x104) (rp r + 0x108)) 64) 64
    | .error _ => 0
  else 0

/-- May a list's item be taken now (R168, R169); an item that cannot be read is taken, and halts the channel. -/
def itemDue (s : State) (r c : Nat) : Option Nat :=
  if !listReady s r c then none
  else match readItem s r c with
    | .error _ => some 0
    | .ok it =>
      let t := itemAt s r it
      if leAt it 0 2 = 1 then
        match listCtx s r c with
        | none => none
        | some n => if wouldAdmit s n (BitVec.ofNat 32 (leAt it 4 4)) && decide (t ≤ s.time.toNat) then some t else none
      else some t

/-- The list served next: in turn (FREE), or by earliest instant (REALTIME) (R169). -/
def nextList (s : State) (r : Nat) : Option Nat :=
  if bitOf (app s (rp r + 0x100)) 0 then
    ((List.range 16).foldl (fun acc c => match itemDue s r c with
      | none => acc
      | some t => match acc with
        | none => some (t, c)
        | some (t', _) => if t < t' then some (t, c) else acc) none).map (·.2)
  else ((List.range 16).map (fun d => ((rplAt s r).turn + d) % 16)).find? (fun c => (itemDue s r c).isSome)

/-- Halt a channel: cause 1 ORDER, 2 CRC, 3 FAULT (R67, R170, R174). -/
def rplHalt (s : State) (r c cause : Nat) : State :=
  let s1 := setRegN (setRpl s r { rplAt s r with halted := true }) (rp r + 0x250) (c + 256 * cause)
  raiseIrq (raiseIrq (raiseErr s1 .rpl r (7 + cause) none) .rpl r 9 none) .rpl r 2 none

/-- An item is consumed. -/
def itemTaken (s : State) (r c : Nat) (q : Option Word) : State :=
  let x := rplAt s r
  let s1 := setRpl s r { x with turn := (c + 1) % 16, prev := match q with
    | some v => tset (fun _ => none) x.prev c (some v)
    | none => x.prev }
  setReg s1 (rp r + 0x210 + 4 * c) (reg s1 (rp r + 0x210 + 4 * c) + 1)

/-- Sequences skipped since the list's previous item (R170). -/
def countGaps (s : State) (r c : Nat) (q : Word) : State :=
  match tget (fun _ => (none : Option Word)) (rplAt s r).prev c with
  | some p => bump s (rp r + 0x808) ((q - p).toNat - 1)
  | none => s

/-- Inject a recorded frame (R167). -/
def injectFrame (commit : Nat → State → State) (s : State) (r c n : Nat) (it : List Byte) : State :=
  let p := owner s .rpl r
  let q := BitVec.ofNat 32 (leAt it 4 4)
  let a := leAt it 8 8
  match vaRead s p a 64 with
  | .error _ => rplHalt s r c 3
  | .ok h =>
    if crc32 (h.take 60) != leAt h 60 4 then rplHalt s r c 2
    else
      let s1 := startSeq (commit n (countGaps s r c q)) n q { seq := q, fs := s.time, last := s.time, num := leAt h 28 2 }
      match (camsAt s1 n).frame with
      | none => itemTaken s1 r c (some q)
      | some fr =>
        if fr.drop then itemTaken (setCams s1 n { camsAt s1 n with frame := none }) r c (some q)
        else
          let len := app s1 (cp n + 0x120)
          match vaRead s1 p (a + 64) (len - 64) with
          | .error _ => rplHalt s r c 3
          | .ok body => match meetWrite s1 p (camSlot s1 n q + 64) body with
            | (s2, some _) => rplHalt s2 r c 3
            | (s2, none) => match meetWrite s2 p (camSlot s2 n q) h with
              | (s3, some _) => rplHalt s3 r c 3
              | (s3, none) =>
                let s4 := countKept (setCams s3 n { camsAt s3 n with frame := none }) n (leAt h 32 2)
                bump (itemTaken (frameEndEvent s4 n q s4.time (leAt h 32 2)) r c (some q)) (rp r + 0x800) 1

/-- A DROP item (R51, R167). -/
def injectDrop (s : State) (r c : Nat) (it : List Byte) : State :=
  let q := BitVec.ofNat 32 (leAt it 4 4)
  let s1 := itemTaken (bump (countGaps s r c q) (rp r + 0x804) 1) r c (some q)
  match listCtx s r c with
  | some n => frameDrop (setCams s1 n { camsAt s1 n with prev := some q }) n q 0 (leAt it 2 2)
  | none => dlogPut s1 (owner s .rpl r) 0x0010 (0x0100 + r) q.toNat 0 (leAt it 2 2)

/-- An END item disables its list (R167). -/
def injectEnd (s : State) (r c : Nat) : State :=
  let a := rp r + 0x118 + 0x10 * c
  let s1 := setApp (clrReg s a (2 ^ 16)) a (BitVec.ofNat 32 (setFld (app s a) 16 1 0))
  raiseIrq (itemTaken s1 r c none) .rpl r 8 none

/-- Take the next item of a channel if it is of a kind: 1 FRAME, 2 DROP, 3 END (R166 to R170). An END item's sequence is not
compared (log entry 10). -/
def replayItem (commit : Nat → State → State) (s : State) (r kind : Nat) : State :=
  if !present s .rpl r || (rplAt s r).halted || !bitOf (regN s (rp r + 8)) 0 then s
  else match nextList s r with
    | none => s
    | some c => match readItem s r c with
      | .error _ => rplHalt s r c 3
      | .ok it =>
        let q := BitVec.ofNat 32 (leAt it 4 4)
        let back := match tget (fun _ => (none : Option Word)) (rplAt s r).prev c with | some p => !seqAbove q p | none => false
        if leAt it 0 2 != kind then s
        else if kind != 3 && back then rplHalt s r c 1
        else match kind with
          | 1 => (match listCtx s r c with | some n => injectFrame commit s r c n it | none => s)
          | 2 => injectDrop s r c it
          | _ => injectEnd s r c

/-! ## Commit checks -/

/-- Do two ranges of a slot overlap. -/
def overlap (a b : Nat × Nat) : Bool := decide (a.1 < b.1 + b.2) && decide (b.1 < a.1 + a.2)

/-- The shadowed configuration of a context is consistent (R139, R145, R172). -/
def camsCheck (s : State) (n : Nat) : Bool :=
  let r := fun o => regN s (cp n + o)
  let w := fld (r 0x104) 0 16
  let h := fld (r 0x104) 16 16
  let ty := fld (r 0x100) 16 6
  let px := (0x1000, h * r 0x114)
  let lsm := (r 0x128, ceilDiv h 4)
  let emb := (r 0x12C, r 0x130)
  let fs := fld (r 0x108) 4 4
  decide (16 ≤ w) && decide (w ≤ 8192) && decide (1 ≤ h) && decide (h ≤ 8192) &&
  decide (lineBytes ty (bitOf (r 0x100) 24) w ≤ r 0x114) &&
  [px, lsm, emb].all (fun x => x.2 == 0 || (decide (64 ≤ x.1) && decide (x.1 + x.2 ≤ r 0x120))) &&
  !overlap px lsm && (emb.2 == 0 || (!overlap px emb && !overlap lsm emb)) &&
  (presentList s .cams).all (fun m => m == n || !camsOn s m || !camsOn s n ||
    !(camSrc s m == fld (r 0x100) 0 5 && camVc s m == fld (r 0x100) 8 4)) &&
  (!bitOf (r 0x108) 0 || (fsyncPresent s fs && owner s .sctl (fsyncSctl fs) == owner s .cams n))

/-- RATE of a port lies within R137 for its mode (R171). -/
def campCheck (s : State) (n : Nat) : Bool :=
  let v := regN s (cport n + 0x100)
  let rate := fld v 16 13
  match fld v 0 2 with
  | 0 => true
  | 1 => decide (80 ≤ rate) && decide (rate ≤ 4500) && fld v 2 2 != 2
  | 2 => decide (80 ≤ rate) && decide (rate ≤ 2625) && fld v 2 2 != 3
  | _ => false

/-- Every enabled profile names a stream of the unit's partition, and RATE passes no limit of the bus: 12.5 MHz for I3C, 1 MHz for I2C
(R156, R173; log entry 130). -/
def sctlCheck (s : State) (u : Nat) : Bool :=
  decide (fld (regN s (sp u + 0x100)) 8 8 ≤ (if bitOf (regN s (sp u + 0x100)) 0 then 10 else 125)) && (List.range 4).all (fun f =>
    let v := regN s (sp u + 0x110 + 0x10 * f)
    !bitOf v 0 || (present s .cams (fld v 2 6) && owner s .cams (fld v 2 6) == owner s .sctl u))

/-- Every enabled list has a ring of 2^4 to 2^16 items and feeds no context or one of the channel's partition (R174). -/
def rplCheck (s : State) (r : Nat) : Bool :=
  (List.range 16).all (fun c =>
    let v := regN s (rp r + 0x118 + 0x10 * c)
    let n := fld v 8 6
    !bitOf v 16 || (decide (4 ≤ fld v 0 5) && decide (fld v 0 5 ≤ 16) &&
      (n == 0x3F || (present s .cams n && owner s .cams n == owner s .rpl r))))

end Sys2Proof.Machine
end

