-- ==== Sys2Proof/Machine/Memory.lean ====
section
/-! DEFINITION. Scratchpads, the vision tile memory and the accesses of engines to every space (R32, R373 to R403, R411). -/

namespace Sys2Proof.Machine
open Sys2Proof

/-! ## Engines' accesses -/

/-- What an engine does: it may fail with a cause, and keeps what it did before it failed. Causes are those of R440, and 0x40 and
0x41 for an uncorrectable word of a scratchpad and of the tile memory; values of 0x100 and above are completion statuses. -/
abbrev Eng := ExceptT Nat (StateM State)

/-- Fail with a cause. -/
def Eng.fail {α : Type} (c : Nat) : Eng α := throw c

/-- Run an action for each element of a list and collect the answers. -/
def Eng.forM {α β : Type} (l : List α) (f : α → Eng β) : Eng (List β) :=
  match l with
  | [] => pure []
  | a :: r => do
    let b ← f a
    let bs ← Eng.forM r f
    pure (b :: bs)

/-- Run an action, without an answer, for each element of a list. -/
def Eng.each {α : Type} (l : List α) (f : α → Eng Unit) : Eng Unit :=
  match l with
  | [] => pure ()
  | a :: r => do
    f a
    Eng.each r f

/-- Change the state. -/
def Eng.modify (f : State → State) : Eng Unit := fun s => (.ok (), f s)

/-- Read something of the state. -/
def Eng.get {α : Type} (f : State → α) : Eng α := fun s => (.ok (f s), s)

/-- Fail with a cause unless a condition holds. -/
def Eng.need (c : Bool) (e : Nat) : Eng Unit := fun s => (if c then .ok () else .error e, s)

/-- Turn causes into statuses. -/
def Eng.mapErr {α : Type} (m : Eng α) (f : Nat → Nat) : Eng α := fun s =>
  match m s with
  | (.error e, t) => (.error (f e), t)
  | x => x

/-- The cause of a failed translation or access of device-virtual space (R440, R464, R467). -/
def failCause : Fail → Nat
  | .unmapped => 0x20
  | .perm => 0x21
  | .bus => 0x30

/-- Read device-virtual space. -/
def engRead (p va n : Nat) : Eng (List Byte) := fun s =>
  match meetRead s p va n .r with
  | (.ok b, t) => (.ok b, t)
  | (.error f, t) => (.error (failCause f), t)

/-- Read one byte that a write covers in part, with the permission of the write (R408, R418). -/
def engPeek (p va : Nat) : Eng (List Byte) := fun s =>
  match xlate s p va .w with
  | .ok a => (match physRead s a 1 with | .ok b => (.ok b, s) | .error f => (.error (failCause f), s))
  | .error f => (.error (failCause f), s)

/-- Count bytes a unit has written (R577). -/
def unitWrote (p n : Nat) (s : State) : State :=
  match blkOfCode s.actor.1 with
  | some b => gcCount s 4 b s.actor.2.1 p n
  | none => s

/-- Write device-virtual space. -/
def engWrite (p va : Nat) (bs : List Byte) : Eng Unit := fun s =>
  match meetWrite s p va bs with
  | (t, none) => (.ok (), unitWrote p bs.length t)
  | (t, some f) => (.error (failCause f), t)

/-- Write an element to device-virtual space: all of it, or none where a byte fails its check (R418). -/
def engWriteAll (p va : Nat) (bs : List Byte) : Eng Unit := fun s =>
  match meetWriteAll s p va bs with
  | (.ok _, t) => (.ok (), unitWrote p bs.length t)
  | (.error f, t) => (.error (failCause f), t)

/-! ## Scratchpads -/

/-- Bytes of one scratchpad's data and lanes, and rows (R373). -/
def spBytes : Nat := 0x400_0000
def laneBytes : Nat := 0x40_0000
def spRows : Nat := 131072

/-- Page of a scratchpad's control registers. -/
def spc (n : Nat) : Nat := pg .spc n

/-- Number of word w of row r of scratchpad n: words 0 to 63 are data, 64 to 67 lane (R381). -/
def spWord (n r w : Nat) : Nat := (n * spRows + r) * 68 + w

/-- Where a row is kept: its own place, or the spare of its bank that the repair map gives its position; rows of a core stand 512 data bytes
and 32 lane bytes apart, the spares of all banks after them (R373, R395). -/
def rowHome (s : State) (c r : Nat) : Nat :=
  match s.boot.repair.find? (fun e => e.core == c && e.bank == r % 64 && e.pos == r / 64) with
  | some e => 8 * spRows + (c * 64 + e.bank) * 16 + e.spare
  | none => c * spRows + r

/-- Pieces of a narrow-view access, one per row: row, first byte, count. -/
def rowPieces (o n : Nat) : List (Nat × Nat × Nat) :=
  if n = 0 then []
  else (rangeFrom (o / 512) ((o + n - 1) / 512 - o / 512 + 1)).map (fun r =>
    let a := max o (512 * r)
    (r, a - 512 * r, min (o + n) (512 * r + 512) - a))

/-- Data bytes of a row from byte b, and lane bytes, as they stand. -/
def rowData (s : State) (c r b n : Nat) : List Byte := memRead s.spad (512 * rowHome s c r + b) n
def rowLane (s : State) (c r b n : Nat) : List Byte := memRead s.lane (32 * rowHome s c r + b) n

/-- Data bytes of a scratchpad as they stand, in the narrow numbering (R374). -/
def spData (s : State) (c o n : Nat) : List Byte := (rowPieces o n).flatMap (fun x => rowData s c x.1 x.2.1 x.2.2)

/-- Reading words of a row: injections act, corrected and uncorrectable reads are recorded; is every word readable. A word that an injection
made uncorrectable stays so until it is written whole (R382, R383, R384, R402; log entry 131). -/
def rowUse (n r lo cnt : Nat) : Eng Unit := fun s =>
  let hit := regN s (spc n + 0x180) % spRows == r && lo == 0
  let s1 := if hit && injArmed s .spc n 0 then
      let t := injUsed s .spc n 0
      raiseErr (setRegN (bump t (spc n + 0x80C) 1) (spc n + 0x188) (r + 2 ^ 31)) .spc n 8 none
    else s
  let s2 := if hit && injArmed s .spc n 1 then
      let t := injUsed s1 .spc n 1
      { t with spadUe := if t.spadUe.contains (spWord n r 0) then t.spadUe else t.spadUe ++ [spWord n r 0] }
    else s1
  if s2.spadUe.any (fun w => decide (spWord n r lo ≤ w) && decide (w < spWord n r (lo + cnt))) then
    (.error 0x40, raiseIrq (raiseErr (setRegN (bump s2 (spc n + 0x810) 1) (spc n + 0x184) (r + 2 ^ 31)) .spc n 9 none) .spc n 9 none)
  else (.ok (), s2)

/-- Read data bytes through the narrow view, which uses the words it touches (R374, R383). -/
def spRead (c o n : Nat) : Eng (List Byte) := fun s =>
  match Eng.forM (rowPieces o n) (fun x => rowUse c x.1 (x.2.1 / 8) ((x.2.1 + x.2.2 - 1) / 8 - x.2.1 / 8 + 1)) s with
  | (.error e, t) => (.error e, t)
  | (.ok _, t) => (.ok (spData t c o n), t)

/-- Read data bytes through the wide view, which uses every data word of each row (R374, R383). -/
def spWide (c o n : Nat) : Eng (List Byte) := fun s =>
  match Eng.forM (rowPieces o n) (fun x => rowUse c x.1 0 64) s with
  | (.error e, t) => (.error e, t)
  | (.ok _, t) => (.ok (spData t c o n), t)

/-- Words an access covers only in part: the first, the last (R384). -/
def partWords (lo n : Nat) : List Nat :=
  if n = 0 then []
  else dedupN ((if lo % 8 = 0 ∧ 8 ≤ n then [] else [lo / 8]) ++ (if (lo + n) % 8 = 0 ∧ 8 ≤ n then [] else [(lo + n - 1) / 8]))

/-- Write data bytes within a row from byte b; `cov` lists words of the row that the access they belong to covers whole. A word covered in
part is read first, and one covered whole becomes correctable (R384). -/
def rowStore (c r b : Nat) (cov : List Nat) (bs : List Byte) : Eng Unit := fun s =>
  match Eng.each ((partWords b bs.length).filter (fun w => !cov.contains w)) (fun w => rowUse c r w 1) s with
  | (.error e, t) => (.error e, t)
  | (.ok _, t) =>
    let whole := fun (w : Nat) => (decide (8 * w + 8 ≤ b + bs.length) && decide (b ≤ 8 * w)) || cov.contains w
    (.ok (), unitWrote (owner t .nc c) bs.length (loseResv { t with
      spad := memWrite t.spad (512 * rowHome t c r + b) bs
      spadUe := t.spadUe.filter (fun w => !(decide (spWord c r 0 ≤ w) && decide (w < spWord c r 64) && whole (w - spWord c r 0))) }
      c (512 * r + b) (512 * r + b + bs.length)))

/-- Write data bytes in the narrow numbering, row by row; `cov` lists words, by number in the scratchpad, that the access covers whole. -/
def spPut (c o : Nat) (cov : List Nat) (bs : List Byte) : Eng Unit :=
  Eng.each (rowPieces o bs.length) (fun x => rowStore c x.1 x.2.1 ((cov.filter (fun w => w / 64 == x.1)).map (· % 64)) ((bs.drop (512 * x.1 + x.2.1 - o)).take x.2.2))

/-- Write data bytes of a scratchpad as one access (R384). -/
def spWrite (c o : Nat) (bs : List Byte) : Eng Unit := spPut c o [] bs

/-- Read one whole row: its 512 data bytes, and its 32 lane bytes if asked for (R374). -/
def rowRead (c r : Nat) (lane : Bool) : Eng (List Byte × List Byte) := fun s =>
  match rowUse c r 0 (if lane then 68 else 64) s with
  | (.error e, t) => (.error e, t)
  | (.ok _, t) => (.ok (rowData t c r 0 512, if lane then rowLane t c r 0 32 else []), t)

/-- Write one whole row's data, or its lane, or both. -/
def rowWrite (c r : Nat) (d l : List Byte) : Eng Unit := fun s =>
  let lo := if d.isEmpty then 64 else 0
  let hi := if l.isEmpty then 64 else 68
  let t := { s with
    spad := memWrite s.spad (512 * rowHome s c r) d
    lane := memWrite s.lane (32 * rowHome s c r) l
    spadUe := s.spadUe.filter (fun w => !(decide (spWord c r lo ≤ w) && decide (w < spWord c r hi))) }
  (.ok (), unitWrote (owner s .nc c) (d.length + l.length) (loseResv t c (512 * r) (512 * r + d.length)))

/-- Write lane bytes of a row from byte k: a word covered in part is read first (R384). -/
def laneWrite (c r k : Nat) (bs : List Byte) : Eng Unit := fun s =>
  match Eng.each (partWords k bs.length) (fun w => rowUse c r (64 + w) 1) s with
  | (.error e, t) => (.error e, t)
  | (.ok _, t) => (.ok (), unitWrote (owner t .nc c) bs.length { t with
      lane := memWrite t.lane (32 * rowHome t c r + k) bs
      spadUe := t.spadUe.filter (fun w => !(decide (spWord c r (64 + ceilDiv k 8) ≤ w) && decide (w < spWord c r (64 + (k + bs.length) / 8)))) })

/-! ## Blanket windows -/

/-- Requesters of a blanket window (R391): a core's stream engine, a channel, a vision stream engine, a remote node with its partition. -/
inductive Req
  | ncse (m : Nat)
  | dma (c : Nat)
  | vse (v : Nat)
  | remote (node part : Nat)
  deriving DecidableEq, Repr

/-- Does an applied window mask admit a requester (R391). -/
def winAdmits (s : State) (c w : Nat) (q : Req) (rd : Bool) : Bool :=
  let base := app s (spc c + 0x100 + 0x10 * w)
  let mask := app s (spc c + 0x108 + 0x10 * w)
  let node := app s (spc c + 0x10C + 0x10 * w)
  bitOf base 31 && (!rd || bitOf mask 11) &&
  (match q with
    | .ncse m => bitOf mask m && decide (m < 8) && owner s .nc m == owner s .nc c
    | .dma ch => bitOf mask 8 && fld (regN s (pg .dma 0 + 0x200 + 0x20 * ch)) 0 2 == owner s .nc c
    | .vse v => bitOf mask 9 && owner s .vse v == owner s .nc c
    | .remote n p => bitOf mask 10 && decide (fld node 0 16 ≤ n) && decide (n ≤ fld node 16 16) && fld mask 12 2 == p)

/-- The window access is refused (R392). -/
def winReject {α : Type} (c : Nat) : Eng α := fun s =>
  (.error 0x22, raiseIrq (raiseErr (bump s (spc c + 0x814) 1) .spc c 10 none) .spc c 8 none)

/-- First row of a window as applied. -/
def winBase (s : State) (c w : Nat) : Nat := fld (app s (spc c + 0x100 + 0x10 * w)) 0 17

/-- Check an access of the scratchpad rows [r, r + k) through window w of core c (R391, R392). -/
def winCheck (c w r k : Nat) (q : Req) (rd : Bool) : Eng Unit := fun s =>
  if present s .nc c && winAdmits s c w q rd && decide (winBase s c w ≤ r) &&
      decide (r + k ≤ winBase s c w + app s (spc c + 0x104 + 0x10 * w)) then (.ok (), s)
  else winReject c s

/-- Count rows written through a window (R402). -/
def winRowsIn (c k : Nat) : Eng Unit := Eng.modify (fun s => bump s (spc c + 0x818) k)

/-! ## The vision tile memory -/

/-- Page of the vision tile memory. -/
def vtmPg : Nat := pg .vtm 0

/-- Bytes of the assignable area (R398). -/
def vtmArea : Nat := 0x2B8_0000

/-- The tile-memory offset of n bytes at an offset of a partition's region (R399). -/
def regionAt (p o n : Nat) : Eng Nat := fun s =>
  let size := app s (vtmPg + 0x104 + 8 * p) * 0x1_0000
  if o + n ≤ size then (.ok (app s (vtmPg + 0x100 + 8 * p) * 0x1_0000 + o), s)
  else (.error 0x24, bump s (vtmPg + 0x808) 1)

/-- Reading words of the tile memory from offset t; a word that an injection made uncorrectable stays so until it is written whole (R384,
R401, R403; log entry 131). -/
def vtmUse (p t n : Nat) : Eng Unit := fun s =>
  let inj := fld (regN s (vtmPg + 0x180)) 3 23
  let hit := decide (t / 8 ≤ inj) && decide (inj ≤ (t + n - 1) / 8)
  let s1 := if hit && injArmed s .vtm 0 0 then raiseErr (bump (injUsed s .vtm 0 0) (vtmPg + 0x800) 1) .vtm 0 8 (some p) else s
  let s2 := if hit && injArmed s1 .vtm 0 1 then
      let u := injUsed s1 .vtm 0 1
      { u with tileUe := if u.tileUe.contains inj then u.tileUe else u.tileUe ++ [inj] }
    else s1
  match s2.tileUe.find? (fun w => decide (t / 8 ≤ w) && decide (w ≤ (t + n - 1) / 8)) with
  | none => (.ok (), s2)
  | some w =>
    let s3 := setRegN (bump s2 (vtmPg + 0x804) 1) (vtmPg + 0x184) (w * 8 + 2 ^ 31)
    (.error 0x41, raiseIrq (raiseErr s3 .vtm 0 9 (some p)) .vtm 0 8 (some p))

/-- Read bytes of a partition's region (R399, R401). -/
def vtmRead (p o n : Nat) : Eng (List Byte) := fun s =>
  match regionAt p o n s with
  | (.error e, t) => (.error e, t)
  | (.ok a, t) => match vtmUse p a n t with
    | (.error e, u) => (.error e, u)
    | (.ok _, u) => (.ok (memRead u.tile a n), u)

/-- Write bytes at a tile-memory offset; a word covered in part is read first, and one covered whole, by these bytes or by the access of which
`cov` lists the words covered whole, becomes correctable (R384, R401). -/
def vtmStore (p a : Nat) (cov : List Nat) (bs : List Byte) : Eng Unit := fun s =>
  match Eng.each ((partWords a bs.length).filter (fun w => !cov.contains w)) (fun w => vtmUse p (8 * w) 8) s with
  | (.error e, u) => (.error e, u)
  | (.ok _, u) => (.ok (), unitWrote p bs.length { u with
      tile := memWrite u.tile a bs
      tileUe := u.tileUe.filter (fun w => !((decide (ceilDiv a 8 ≤ w) && decide (w < (a + bs.length) / 8)) || cov.contains w)) })

/-- Write bytes of a partition's region; `cov` lists words by number in the region (R399, R401). -/
def vtmWrite (p o : Nat) (cov : List Nat) (bs : List Byte) : Eng Unit := fun s =>
  match regionAt p o bs.length s with
  | (.error e, t) => (.error e, t)
  | (.ok a, t) => vtmStore p a (cov.map (· + (a - o) / 8)) bs t

/-- Read of a vision engine's plane: SPACE 0 device-virtual, SPACE 1 the partition's tile region (R399). -/
def planeRead (p space a n : Nat) : Eng (List Byte) := if space = 0 then engRead p a n else vtmRead p a n

/-- Write of a vision engine's plane. -/
def planeWrite (p space a : Nat) (bs : List Byte) : Eng Unit := if space = 0 then engWrite p a bs else vtmWrite p a [] bs

/-! ## Clearing and commit checks -/

/-- Clear a whole scratchpad, its spare rows too, and the registers R387 names. -/
def spadClear (s : State) (n : Nat) : State :=
  let s1 := { s with
    spad := memClear (memClear s.spad (n * spBytes) ((n + 1) * spBytes)) (512 * (8 * spRows + 1024 * n)) (512 * (8 * spRows + 1024 * (n + 1)))
    lane := memClear (memClear s.lane (n * laneBytes) ((n + 1) * laneBytes)) (32 * (8 * spRows + 1024 * n)) (32 * (8 * spRows + 1024 * (n + 1)))
    spadUe := s.spadUe.filter (fun w => !(decide (spWord n 0 0 ≤ w) && decide (w < spWord (n + 1) 0 0))) }
  let page := fun (a : Nat) => decide (spc n ≤ a) && decide (a < spc n + 0x1000)
  let keep := fun (e : Nat × Word) => !(page e.1 || e.1 == pg .nc n + 0x100)
  { s1 with regs := s1.regs.filter keep, applied := s1.applied.filter keep }

/-- The shadowed window configuration of a core is consistent (R394); `parkLo`, `parkHi` bound its park areas. -/
def winCheckCfg (s : State) (n : Nat) (parks : List (Nat × Nat)) : Bool :=
  let w := fun k => (regN s (spc n + 0x100 + 0x10 * k), regN s (spc n + 0x104 + 0x10 * k),
    regN s (spc n + 0x108 + 0x10 * k), regN s (spc n + 0x10C + 0x10 * k))
  let opens := (List.range 8).filter (fun k => bitOf (w k).1 31)
  let span := fun k => (fld (w k).1 0 17, fld (w k).2.1 0 18)
  (List.range 8).all (fun k => !bitOf (w k).2.2.1 10 || decide (fld (w k).2.2.2 0 16 ≤ fld (w k).2.2.2 16 16)) &&
  opens.all (fun k => decide (0 < (span k).2) && decide ((span k).1 + (span k).2 ≤ spRows) &&
    parks.all (fun x => !overlap (span k) x) &&
    opens.all (fun j => decide (j ≤ k) || !overlap (span k) (span j)))

/-- Granules of a partition's region, from the shadow or as applied. -/
def regionSpan (s : State) (p : Nat) (shadow : Bool) : Nat × Nat :=
  let f := fun a => if shadow then regN s a else app s a
  (f (vtmPg + 0x100 + 8 * p) % 1024, f (vtmPg + 0x104 + 8 * p) % 1024)

/-- The shadowed regions are consistent (R400). -/
def vtmCheck (s : State) : Bool :=
  (List.range 4).all (fun p =>
    let x := regionSpan s p true
    (x.2 == 0 || decide (x.1 + x.2 ≤ 696)) && (!partStarted s p || x == regionSpan s p false) &&
    (List.range 4).all (fun q => decide (q ≤ p) || !overlap x (regionSpan s q true)))

/-- Granules that enter a region from another or from none (R400). -/
def granulesIn (s : State) : List Nat :=
  (List.range 696).filter (fun g => (List.range 4).any (fun p =>
    let x := regionSpan s p true
    let y := regionSpan s p false
    decide (x.1 ≤ g) && decide (g < x.1 + x.2) && !(decide (y.1 ≤ g) && decide (g < y.1 + y.2))))

/-- Clear one granule. -/
def granuleClear (g : Nat) (s : State) : State :=
  { s with
    tile := memClear s.tile (g * 0x1_0000) ((g + 1) * 0x1_0000)
    tileUe := s.tileUe.filter (fun w => !(decide (g * 0x2000 ≤ w) && decide (w < (g + 1) * 0x2000))) }

end Sys2Proof.Machine
end

