-- ==== Sys2Proof/Machine/Num.lean ====
section
/-! DEFINITION. Number formats and exact arithmetic: decoding, rounding and conversion (R349 to R353, R360, R361, R365, R367 to R370). -/

namespace Sys2Proof.Machine
open Sys2Proof

/-- A floating value: a NaN or an infinity with its sign, or (-1)^neg times m times 2^e. -/
inductive Flt
  | nan (neg : Bool)
  | inf (neg : Bool)
  | fin (neg : Bool) (m : Nat) (e : Int)
  deriving DecidableEq, Repr

/-- How a format spends its largest exponent (R350): infinities and NaNs, two NaN codes only, or nothing special. -/
inductive Special
  | ieee | e4m3 | none
  deriving DecidableEq, Repr

/-- A floating format (R350): exponent bits, mantissa bits, bias. -/
structure FFmt where
  eb : Nat
  mb : Nat
  bias : Int
  sp : Special
  deriving DecidableEq, Repr

/-- The formats of R350. -/
def fE4M3 : FFmt := ⟨4, 3, 7, .e4m3⟩
def fE5M2 : FFmt := ⟨5, 2, 15, .ieee⟩
def fFP16 : FFmt := ⟨5, 10, 15, .ieee⟩
def fBF16 : FFmt := ⟨8, 7, 127, .ieee⟩
def fFP32 : FFmt := ⟨8, 23, 127, .ieee⟩
def fE2M1 : FFmt := ⟨2, 1, 1, .none⟩
def fE3M2 : FFmt := ⟨3, 2, 3, .none⟩
def fE2M3 : FFmt := ⟨2, 3, 1, .none⟩

/-- Bits of a format. -/
def FFmt.width (f : FFmt) : Nat := 1 + f.eb + f.mb

/-- Magnitude code of the largest finite value (R350). -/
def FFmt.maxFin (f : FFmt) : Nat :=
  match f.sp with
  | .ieee => (2 ^ f.eb - 1) * 2 ^ f.mb - 1
  | .e4m3 => 2 ^ (f.eb + f.mb) - 2
  | .none => 2 ^ (f.eb + f.mb) - 1

/-- Magnitude code of infinity and of the NaN a conversion writes (R369, R370). -/
def FFmt.infCode (f : FFmt) : Nat := (2 ^ f.eb - 1) * 2 ^ f.mb
def FFmt.nanCode (f : FFmt) : Nat :=
  match f.sp with
  | .ieee => f.infCode + 2 ^ (f.mb - 1)
  | _ => 2 ^ (f.eb + f.mb) - 1

/-- Exponent of the least significant bit of the smallest subnormal (R350). -/
def FFmt.lsb (f : FFmt) : Int := 1 - f.bias - f.mb

/-- The value of a code (R350). -/
def fdec (f : FFmt) (c : Nat) : Flt :=
  let neg := bitOf c (f.eb + f.mb)
  let mag := c % 2 ^ (f.eb + f.mb)
  let e := mag / 2 ^ f.mb
  let m := mag % 2 ^ f.mb
  if f.sp = .ieee ∧ e = 2 ^ f.eb - 1 then (if m = 0 then .inf neg else .nan neg)
  else if f.sp = .e4m3 ∧ mag = 2 ^ (f.eb + f.mb) - 1 then .nan neg
  else if e = 0 then .fin neg m f.lsb
  else .fin neg (2 ^ f.mb + m) ((e : Int) - f.bias - f.mb)

/-- Rounding modes of RISC-V, in the order of frm: nearest even, toward zero, down, up, nearest with ties away. -/
inductive Rm
  | rne | rtz | rdn | rup | rmm
  deriving DecidableEq, Repr

/-- Does a magnitude with quotient q and remainder r of 2^sh round away from zero. -/
def roundsUp (md : Rm) (neg : Bool) (q r sh : Nat) : Bool :=
  match md with
  | .rne => decide (2 ^ sh < 2 * r) || (decide (2 * r = 2 ^ sh) && q % 2 == 1)
  | .rtz => false
  | .rdn => neg && decide (0 < r)
  | .rup => !neg && decide (0 < r)
  | .rmm => decide (2 ^ sh ≤ 2 * r) && decide (0 < r)

/-- m times 2^e rounded to a whole number of quanta 2^q: the count, and whether it is inexact. -/
def roundAt (md : Rm) (neg : Bool) (m : Nat) (e q : Int) : Nat × Bool :=
  if q ≤ e then (m * 2 ^ (e - q).toNat, false)
  else
    let sh := (q - e).toNat
    let k := m / 2 ^ sh
    let r := m % 2 ^ sh
    (if roundsUp md neg k r sh then k + 1 else k, decide (r ≠ 0))

/-- Exponent of the most significant bit of m times 2^e, for m above 0. -/
def msbExp (m : Nat) (e : Int) : Int := (lg2 m : Nat) + e

/-- The magnitude code of m times 2^e rounded as if exponents had no upper bound, and whether it is inexact. -/
def magCode (f : FFmt) (md : Rm) (neg : Bool) (m : Nat) (e : Int) : Nat × Bool :=
  if m = 0 then (0, false)
  else
    let x := msbExp m e
    if x < 1 - f.bias then roundAt md neg m e f.lsb
    else
      let (k, ix) := roundAt md neg m e (x - f.mb)
      ((x + f.bias).toNat * 2 ^ f.mb + k - 2 ^ f.mb, ix)

/-- A code with a sign. -/
def signed (f : FFmt) (neg : Bool) (mag : Nat) : Nat := b2n neg * 2 ^ (f.eb + f.mb) + mag

/-- Conversion under R369: out-of-range finite values saturate, NaN and infinity as its table gives. -/
def fconv (f : FFmt) (x : Flt) : Nat :=
  match x with
  | .nan neg => signed f neg f.nanCode
  | .inf neg => signed f neg (if f.sp = .ieee then f.infCode else f.maxFin)
  | .fin neg m e => signed f neg (min f.maxFin (magCode f .rne neg m e).1)

/-- fflags bits: inexact, underflow, overflow, divide by zero, invalid. -/
def ffNX : Nat := 1
def ffUF : Nat := 2
def ffOF : Nat := 4
def ffDZ : Nat := 8
def ffNV : Nat := 16

/-- Rounding under IEEE 754-2019 with its flags; tininess is detected after rounding (R370). -/
def fround (f : FFmt) (md : Rm) (neg : Bool) (m : Nat) (e : Int) : Nat × Nat :=
  let (mag, ix) := magCode f md neg m e
  if f.maxFin < mag then
    let toInf := match md with | .rne | .rmm => true | .rtz => false | .rdn => neg | .rup => !neg
    (signed f neg (if toInf then f.infCode else f.maxFin), ffOF ||| ffNX)
  else
    let tiny := decide (0 < m) && (let x := msbExp m e; let k := (roundAt md neg m e (x - f.mb)).1
      decide (msbExp (max 1 k) (x - f.mb) < 1 - f.bias))
    (signed f neg mag, if ix then (if tiny then ffUF ||| ffNX else ffNX) else 0)

/-- The canonical NaN of an IEEE format (R370). -/
def cnan (f : FFmt) : Nat := f.nanCode

/-- Is a code a signalling NaN. -/
def isSnan (f : FFmt) (c : Nat) : Bool :=
  match fdec f c with
  | .nan _ => !bitOf c (f.mb - 1)
  | _ => false

/-- A signed integer times 2^e as a value; an exact zero takes the sign given. -/
def ofInt (z : Bool) (v : Int) (e : Int) : Flt := if v = 0 then .fin z 0 e else .fin (decide (v < 0)) v.natAbs e

/-- The signed integer of a finite value in units of 2^q, q at or below its exponent. -/
def toUnits (neg : Bool) (m : Nat) (e q : Int) : Int := (if neg then -1 else 1) * ((m * 2 ^ (e - q).toNat : Nat) : Int)

/-- The exact sum of two finite values; a zero sum of unlike signs is -0 only when rounding down. -/
def addFin (md : Rm) (n1 : Bool) (m1 : Nat) (e1 : Int) (n2 : Bool) (m2 : Nat) (e2 : Int) : Flt :=
  let q := min e1 e2
  let v := toUnits n1 m1 e1 q + toUnits n2 m2 e2 q
  let z := if m1 = 0 ∧ m2 = 0 ∧ n1 = n2 then n1 else decide (md = .rdn)
  ofInt z v q

/-- Round an exact value to a format with flags. -/
def fpack (f : FFmt) (md : Rm) (x : Flt) : Nat × Nat :=
  match x with
  | .nan _ => (cnan f, 0)
  | .inf neg => (signed f neg f.infCode, 0)
  | .fin neg m e => fround f md neg m e

/-- NV for a signalling operand. -/
def snanFlag (f : FFmt) (cs : List Nat) : Nat := if cs.any (isSnan f) then ffNV else 0

/-- Addition of two codes of one format (R370). -/
def fadd (f : FFmt) (md : Rm) (a b : Nat) : Nat × Nat :=
  match fdec f a, fdec f b with
  | .nan _, _ => (cnan f, snanFlag f [a, b])
  | _, .nan _ => (cnan f, snanFlag f [a, b])
  | .inf s, .inf t => if s = t then (signed f s f.infCode, 0) else (cnan f, ffNV)
  | .inf s, _ => (signed f s f.infCode, 0)
  | _, .inf t => (signed f t f.infCode, 0)
  | .fin n1 m1 e1, .fin n2 m2 e2 => fpack f md (addFin md n1 m1 e1 n2 m2 e2)

/-- The code with its sign changed. -/
def fneg (f : FFmt) (a : Nat) : Nat := a ^^^ 2 ^ (f.eb + f.mb)

/-- Multiplication. -/
def fmul (f : FFmt) (md : Rm) (a b : Nat) : Nat × Nat :=
  match fdec f a, fdec f b with
  | .nan _, _ => (cnan f, snanFlag f [a, b])
  | _, .nan _ => (cnan f, snanFlag f [a, b])
  | .inf s, .inf t => (signed f (s != t) f.infCode, 0)
  | .inf s, .fin t m _ => if m = 0 then (cnan f, ffNV) else (signed f (s != t) f.infCode, 0)
  | .fin s m _, .inf t => if m = 0 then (cnan f, ffNV) else (signed f (s != t) f.infCode, 0)
  | .fin n1 m1 e1, .fin n2 m2 e2 => fpack f md (.fin (n1 != n2) (m1 * m2) (e1 + e2))

/-- Fused a times b plus c, the product in format f exact and the sum rounded once to format g (R370). -/
def ffma (f g : FFmt) (md : Rm) (a b c : Nat) : Nat × Nat :=
  let sn := snanFlag f [a, b] ||| snanFlag g [c]
  let prod : Option Flt := match fdec f a, fdec f b with
    | .nan s, _ => some (.nan s)
    | _, .nan s => some (.nan s)
    | .inf s, .inf t => some (.inf (s != t))
    | .inf s, .fin t m _ => if m = 0 then none else some (.inf (s != t))
    | .fin s m _, .inf t => if m = 0 then none else some (.inf (s != t))
    | .fin n1 m1 e1, .fin n2 m2 e2 => some (.fin (n1 != n2) (m1 * m2) (e1 + e2))
  match prod, fdec g c with
  | none, _ => (cnan g, ffNV)
  | some (.nan _), _ => (cnan g, sn)
  | _, .nan _ => (cnan g, sn)
  | some (.inf s), .inf t => if s = t then (signed g s g.infCode, 0) else (cnan g, ffNV)
  | some (.inf s), _ => (signed g s g.infCode, 0)
  | _, .inf t => (signed g t g.infCode, 0)
  | some (.fin n1 m1 e1), .fin n2 m2 e2 => fpack g md (addFin md n1 m1 e1 n2 m2 e2)

/-- Division: the quotient to enough bits, with a sticky bit. -/
def fdiv (f : FFmt) (md : Rm) (a b : Nat) : Nat × Nat :=
  match fdec f a, fdec f b with
  | .nan _, _ => (cnan f, snanFlag f [a, b])
  | _, .nan _ => (cnan f, snanFlag f [a, b])
  | .inf _, .inf _ => (cnan f, ffNV)
  | .inf s, .fin t _ _ => (signed f (s != t) f.infCode, 0)
  | .fin s _ _, .inf t => (signed f (s != t) 0, 0)
  | .fin n1 m1 e1, .fin n2 m2 e2 =>
    if m2 = 0 then (if m1 = 0 then (cnan f, ffNV) else (signed f (n1 != n2) f.infCode, ffDZ))
    else
      let k := m1 * 2 ^ 80 / m2
      let st := if m1 * 2 ^ 80 % m2 = 0 then 0 else 1
      fpack f md (.fin (n1 != n2) (4 * k + st) (e1 - e2 - 82))

/-- Square root, with a sticky bit. -/
def fsqrt (f : FFmt) (md : Rm) (a : Nat) : Nat × Nat :=
  match fdec f a with
  | .nan _ => (cnan f, snanFlag f [a])
  | .inf s => if s then (cnan f, ffNV) else (f.infCode, 0)
  | .fin s m e =>
    if m = 0 then (a, 0)
    else if s then (cnan f, ffNV)
    else
      let sh : Nat := if e % 2 = 0 then 80 else 81
      let w := m * 2 ^ sh
      let r := Nat.sqrt w
      let st := if r * r = w then 0 else 1
      fpack f md (.fin false (4 * r + st) ((e - sh) / 2 - 2))

/-- A value rounded to a signed or unsigned integer of w bits, saturating, a NaN giving the largest (R370). -/
def ftoi (md : Rm) (sgn : Bool) (w : Nat) (x : Flt) : Int × Nat :=
  let hi : Int := if sgn then 2 ^ (w - 1) - 1 else 2 ^ w - 1
  let lo : Int := if sgn then -(2 ^ (w - 1)) else 0
  match x with
  | .nan _ => (hi, ffNV)
  | .inf s => (if s then lo else hi, ffNV)
  | .fin s m e =>
    let (k, ix) := roundAt md s m e 0
    let v : Int := if s then -(k : Int) else k
    if v < lo then (lo, ffNV) else if hi < v then (hi, ffNV) else (v, if ix then ffNX else 0)

/-- An integer rounded to a format. -/
def itof (f : FFmt) (md : Rm) (v : Int) : Nat × Nat := fpack f md (ofInt false v 0)

/-- Conversion between IEEE formats (R370). -/
def ftof (f g : FFmt) (md : Rm) (a : Nat) : Nat × Nat :=
  match fdec f a with
  | .nan _ => (cnan g, snanFlag f [a])
  | x => fpack g md x

/-- Order of two finite or infinite values: less, equal, greater as -1, 0, 1. -/
def fcmpVal : Flt → Flt → Int
  | .inf s, .inf t => if s = t then 0 else if s then -1 else 1
  | .inf s, _ => if s then -1 else 1
  | _, .inf t => if t then 1 else -1
  | .fin n1 m1 e1, .fin n2 m2 e2 =>
    let q := min e1 e2
    let d := toUnits n1 m1 e1 q - toUnits n2 m2 e2 q
    if d < 0 then -1 else if d = 0 then 0 else 1
  | _, _ => 0

/-! ## The fixed pairwise tree -/

/-- One level of the tree over values at consecutive positions from an even or odd start; the first element of an odd start stands alone. -/
def treePairs (op : Nat → Nat → Nat) : List (Option Nat) → List (Option Nat)
  | a :: b :: r => (match a, b with
      | some x, some y => some (op x y)
      | some x, none => some x
      | none, y => y) :: treePairs op r
  | [a] => [a]
  | [] => []

/-- Fold levels until one node is left; fuel bounds the levels. -/
def treeUp (op : Nat → Nat → Nat) : Nat → List (Option Nat) → Option Nat
  | _, [] => none
  | _, [a] => a
  | 0, a :: _ => a
  | f + 1, l => treeUp op f (treePairs op l)

/-- The root of R360 over values at positions from `base`: positions below it in its lowest covering node count as absent. -/
def treeRoot (op : Nat → Nat → Nat) (base : Nat) (vals : List (Option Nat)) : Option Nat :=
  let n := vals.length
  let lvl := if n = 0 then 0 else lg2 (max 1 (base ^^^ (base + n - 1))) + (if base = base + n - 1 then 0 else 1)
  let lo := base % 2 ^ lvl
  treeUp op (lvl + 1) (List.replicate lo none ++ vals)

/-- Binary32 addition rounded to nearest even (R361). -/
def add32 (a b : Nat) : Nat := (fadd fFP32 .rne a b).1

/-! ## Keyed stochastic rounding -/

/-- mix of R367. -/
def srMix (z : Nat) : Nat :=
  let z := ((z ^^^ (z >>> 30)) * 0xBF58476D1CE4E5B9) % 2 ^ 64
  let z := ((z ^^^ (z >>> 27)) * 0x94D049BB133111EB) % 2 ^ 64
  z ^^^ (z >>> 31)

/-- sr_bits of R367. -/
def srBits (seed tensor idx : Nat) : Nat :=
  let k := srMix ((seed + 0x9E3779B97F4A7C15 * (tensor + 1)) % 2 ^ 64)
  let z := srMix (k ^^^ (idx % 2 ^ 64))
  srMix ((z + k) % 2 ^ 64) / 2 ^ 32

/-! ## Elements by format code -/

/-- The floating format of a code of R324 and R405, if it is one. -/
def fmtOf (c : Nat) : Option FFmt :=
  match c with
  | 3 => some fE4M3 | 4 => some fE5M2 | 9 => some fFP16 | 10 => some fBF16 | 11 => some fFP32
  | _ => none

/-- Is a format code a BK format. -/
def isBk (c : Nat) : Bool := decide (5 ≤ c) && decide (c ≤ 8)

/-- Bits of an element (R405); BK rows are counted elsewhere. -/
def fmtBits (c : Nat) : Nat :=
  match c with
  | 2 => 4 | 9 | 10 | 12 => 16 | 11 => 32
  | _ => 8

/-- The value of an element of a format that is not BK. -/
def elemVal (c w : Nat) : Flt :=
  match fmtOf c with
  | some f => fdec f w
  | none => match c with
    | 0 => ofInt false (sext w 8) 0
    | 2 => ofInt false (sext w 4) 0
    | _ => .fin false (w % 2 ^ fmtBits c) 0

/-- A value converted to an element of a format that is not BK (R369). -/
def elemConv (c : Nat) (x : Flt) : Nat :=
  match fmtOf c with
  | some f => fconv f x
  | none => match x with
    | .nan _ => 0
    | x => trunc (ftoi .rne (c == 0 || c == 2) (fmtBits c) x).1 (fmtBits c)

end Sys2Proof.Machine
end

