-- ==== Sys2Proof/Machine/RolvBase.lean ====
section
/-! DEFINITION. The sending side of the Rolven transport: peer entries, links, packets, retransmission state (R481 to R490). -/

namespace Sys2Proof.Machine
open Sys2Proof

/-- A register of the transport window. -/
def rv (o : Nat) : Nat := pg .rolv 0 + o

/-- Is the transport present (R479). -/
def rolvOn (s : State) : Bool := present s .rolv 0 && !(presentList s .fabp).isEmpty

/-- A peer entry (R496). -/
def peerEnt (s : State) (i : Nat) : List Byte := tget (fun _ => List.replicate 64 0) s.rolv.peers i

/-- Fields of a peer entry (R496). -/
def peerNode (s : State) (i : Nat) : Nat := leAt (peerEnt s i) 0 2
def peerOwner (s : State) (i : Nat) : Nat := leAt (peerEnt s i) 2 1 % 4
def peerValid (s : State) (i : Nat) : Bool := bitOf (leAt (peerEnt s i) 2 1) 7
def peerPorts (s : State) (i : Nat) : Nat := leAt (peerEnt s i) 4 2

/-- The connection of a peer entry. -/
def connAt (s : State) (i : Nat) : Conn := tget (fun _ => {}) s.rolv.conns i

/-- Set it. -/
def setConn (s : State) (i : Nat) (c : Conn) : State :=
  { s with rolv := { s.rolv with conns := tset (fun _ => {}) s.rolv.conns i c } }

/-- Is a connection in service: entry valid and not DOWN (R486, R490). -/
def peerUp (s : State) (i : Nat) : Bool := peerValid s i && (connAt s i).state != 2

/-- Own NODE_ID and DOMAIN as applied (R512). -/
def ownNode (s : State) : Nat := fld (app s (rv 0x100)) 0 16
def ownDomain (s : State) : Nat := fld (app s (rv 0x100)) 16 16

/-- Fabric links that are up. -/
def upLinks (s : State) : List Nat := s.rolv.links

/-- The link of a connection: the (hash mod m)-th up link of PORT_MASK (R487); hash is over the two node IDs as 4 bytes (log entry 13). -/
def linkOf (s : State) (i : Nat) : Option Nat :=
  let l := (upLinks s).filter (bitOf (peerPorts s i))
  if l.isEmpty then none else l[crc32 (natLe 2 (ownNode s) ++ natLe 2 (peerNode s i)) % l.length]?

/-! ## Addresses and frames -/

/-- Big-endian bytes of a number, as network headers hold it. -/
def natBe (n v : Nat) : List Byte := (natLe n v).reverse

/-- A big-endian field of a frame. -/
def beAt (b : List Byte) (o n : Nat) : Nat := leNat ((b.drop o).take n).reverse

/-- MAC address of a link's port, first octet first (R481, R511, log entry 21). -/
def macOf (s : State) (l : Nat) : List Byte := natBe 6 (app64 s (pg .fabp (l / 4) + 0x104) (pg .fabp (l / 4) + 0x108) % 2 ^ 48)

/-- The transport's IP address: 16 bytes, an IPv4 address in the first four (R496, R512, log entry 21). -/
def ownIp (s : State) : List Byte := (List.range 4).flatMap (fun i => natLe 4 (app s (rv (0x108 + 4 * i))))

/-- Is IPv4 in use (R482). -/
def ipv4 (s : State) : Bool := bitOf (app s (rv 0x104)) 0

/-- The Ethernet header of a frame sent, with its 802.1Q tag where VLAN_EN is 1 (R480). -/
def ethHead (s : State) (l : Nat) (dst : List Byte) (ty : Nat) : List Byte :=
  dst ++ macOf s l ++ (if bitOf (app s (rv 0x104)) 1 then natBe 2 0x8100 ++ natBe 2 (fld (app s (rv 0x104)) 16 12) else []) ++ natBe 2 ty

/-- The sum of a list's 16-bit words, most significant byte first. -/
def sum16 : List Byte → Nat
  | [] => 0
  | [a] => 256 * a.toNat
  | a :: b :: r => 256 * a.toNat + b.toNat + sum16 r

/-- The Internet checksum of a list of bytes. -/
def inetSum (b : List Byte) : Nat :=
  let f := fun (n : Nat) => n % 65536 + n / 65536
  65535 - f (f (f (sum16 b)))

/-- A UDP datagram of the device in its IP header (R482): DSCP and ECT(0), and DF where it is IPv4. A hop limit of 0 stands for one the spec
leaves open: that, the identification and the flow label are free (log entry 140). -/
def udpIp (s : State) (v4 : Bool) (src dst : List Byte) (hop sport dport : Nat) (pay : List Byte) : List Byte :=
  let n := 8 + pay.length
  let tos := 4 * fld (app s (rv 0x104)) 2 6 + 2
  let ttl := if hop = 0 then freeVal s % 256 else hop
  let open16 := freeVal s / 256 % 2 ^ 20
  let addrs := if v4 then src.take 4 ++ dst.take 4 else src ++ dst
  let head := natBe 2 sport ++ natBe 2 dport ++ natBe 2 n
  let c := inetSum (addrs ++ natBe 4 n ++ natBe 4 17 ++ head ++ pay)
  let udp := head ++ natBe 2 (if c = 0 then 0xFFFF else c) ++ pay
  if v4 then
    let h1 := natBe 2 (0x4500 + tos) ++ natBe 2 (20 + n) ++ natBe 2 open16 ++ natBe 2 0x4000 ++ natBe 1 ttl ++ natBe 1 17
    h1 ++ natBe 2 (inetSum (h1 ++ addrs)) ++ addrs ++ udp
  else natBe 4 (0x60000000 + tos * 2 ^ 20 + open16) ++ natBe 2 n ++ natBe 1 17 ++ natBe 1 ttl ++ addrs ++ udp

/-- The frame that carries a packet to a peer (R480 to R482): its next-hop MAC address and IP address stand in its entry. -/
def peerFrame (s : State) (i l : Nat) (pkt : List Byte) : List Byte :=
  ethHead s l (((peerEnt s i).drop 24).take 6) (if ipv4 s then 0x0800 else 0x86DD) ++
    udpIp s (ipv4 s) (ownIp s) (((peerEnt s i).drop 8).take 16) 0 (0xC000 + i % 0x4000) 0x4C5E pkt

/-! ## Packets -/

/-- Put a frame on a link (R480, R511); while NODE_CONFLICT is set nothing but HELLO and LLDP goes out (R494). -/
def putWire (s : State) (link : Nat) (peer : Option Nat) (bytes : List Byte) : State :=
  if bitOf (regN s (rv 0x010)) 11 && peer.isSome then s
  else bump { s with rolv := { s.rolv with out := s.rolv.out ++ [⟨link, peer, bytes⟩] } } (pg .fabp (link / 4) + 0x800) 1

/-- SACK of a connection's receiving side (R482). -/
def sackOf (c : Conn) : Nat :=
  c.held.foldl (fun a p => let d := (p.psn + 2 ^ 24 - (c.rcv + 1)) % 2 ^ 24; if d < 128 then a ||| 2 ^ d else a) 0

/-- The bytes of a packet (R482): header, payload, CRC. Every packet that uses the connection asks for an ACK (log entry 13). -/
def pktBytes (s : State) (i : Nat) (p : Pkt) (again : Bool) : List Byte :=
  let c := connAt s i
  let uses := decide (p.ty ≤ 0x0B) && p.ty != 4
  let b := natLe 1 1 ++ natLe 1 p.ty ++ natLe 1 (b2n uses + 2 * b2n (c.echo && p.ty == 4) + 4 * b2n again) ++ natLe 1 p.parts ++
    natLe 2 (ownNode s) ++ natLe 2 (peerNode s i) ++ natLe 4 p.psn ++ natLe 4 c.rcv ++ natLe 16 (sackOf c) ++ natLe 8 p.spec ++ p.pay
  b ++ natLe 4 (crc32 b)

/-- Send a packet in a frame on the connection's link. -/
def wirePkt (s : State) (i : Nat) (p : Pkt) (again : Bool) : State :=
  match linkOf s i with
  | none => s
  | some l =>
    let s1 := putWire (drawn s) l (some i) (peerFrame s i l (pktBytes s i p again))
    let c := connAt s1 i
    setConn s1 i { c with txAt := s.time, echo := c.echo && p.ty != 4, unackedAt := none }

/-- A packet that is not retransmitted: PSN 0, and an ACK the connection's next PSN, which it does not take (R483; log entry 13). -/
def sendLoose (s : State) (i ty parts spec : Nat) (pay : List Byte) : State :=
  wirePkt s i { psn := if ty = 4 then (connAt s i).next else 0, ty := ty, parts := parts, spec := spec, pay := pay } false

/-- Move waiting packets into the window of 128 (R484). -/
def fillWindow : Nat → State → Nat → State
  | 0, s, _ => s
  | n + 1, s, i =>
    let c := connAt s i
    match c.queue with
    | [] => s
    | p :: r =>
      if 128 ≤ c.flight.length then s
      else
        let p1 := { p with sent := s.time, tries := 0 }
        let s1 := setConn s i { c with queue := r, flight := c.flight ++ [p1] }
        fillWindow n (wirePkt s1 i p1 false) i

/-- Queue a packet on a connection, numbered in order (R484); answers its PSN. -/
def sendConn (s : State) (i ty parts spec : Nat) (pay : List Byte) (mov addr : Nat) : Nat × State :=
  let c := connAt s i
  let p : Pkt := { psn := c.next, ty := ty, parts := parts, spec := spec, pay := pay, mov := mov, addr := addr }
  let s1 := setConn s i { c with next := (c.next + 1) % 2 ^ 24, queue := c.queue ++ [p] }
  (c.next, fillWindow 1 s1 i)

/-- Largest payload (R512). -/
def maxPay (s : State) : Nat :=
  match fld (app s (rv 0x104)) 8 3 with
  | 0 => 1024
  | 1 => 2048
  | _ => 4096

/-- RV_LAST_FAIL (R490, R512). -/
def lastFail (s : State) (peer reason : Nat) : State := setRegN s (rv 0x124) (peer % 2 ^ 14 + 2 ^ 16 * reason)

/-- Fields of a SPACE 4 address (R489): destination partition, peer index, window address. -/
def remPart (a : Nat) : Nat := fld a 46 2
def remPeer (a : Nat) : Nat := fld a 32 14

/-- The sender's check of a remote access (R490). -/
def remCheck (p a : Nat) : Eng Unit := fun s =>
  let i := remPeer a
  if !rolvOn s then (.error 0x25, s)
  else if !peerValid s i then (.error 0x25, lastFail s i 0x10)
  else if peerOwner s i != p then (.error 0x25, lastFail s i 0x11)
  else if (connAt s i).state = 2 then (.error 0x25, lastFail s i 0x12)
  else (.ok (), s)

/-- A mover. -/
def movAt (s : State) (k : Nat) : Mov := tget (fun _ => {}) s.movers k

/-- Set it. -/
def setMov (s : State) (k : Nat) (m : Mov) : State := { s with movers := tset (fun _ => {}) s.movers k m }

/-- Send remote writes of consecutive bytes from an address in packets of at most MAX_PAYLOAD (R482, R489); the mover waits for their
acknowledgement. A run that is no multiple of 64 bytes goes in a packet of its own length (log entry 12). -/
def remWrites (k p : Nat) : Nat → Nat → List Byte → State → State
  | 0, _, _, s => s
  | f + 1, a, bs, s =>
    if bs.isEmpty then s
    else
      let d := bs.take (maxPay s)
      let (psn, t) := sendConn s (remPeer a) 1 (p + 4 * remPart a) (a % 2 ^ 32) d (k + 1) a
      let t1 := setMov t k { movAt t k with remW := (movAt t k).remW ++ [(remPeer a, psn)] }
      remWrites k p f (a + d.length) (bs.drop (maxPay s)) t1

/-- Ask for 64-byte units of a remote window (R483, R492); `n` units from an aligned address, under a tag that names the mover. -/
def remAsk (k p a n : Nat) (s : State) : State :=
  let t := (sendConn s (remPeer a) 2 (p + 4 * remPart a) (a % 2 ^ 32 + n * 2 ^ 32 + k % 65536 * 2 ^ 48) [] (k + 1) a).2
  setMov t k { movAt t k with asks := (movAt t k).asks ++ [(a, n)] }

end Sys2Proof.Machine
end

