-- ==== Sys2Proof/Machine/Desc.lean ====
section
/-! DEFINITION. Tensor descriptors: checks, the walk, and the access of one element in every space (R404 to R422, R431). -/

namespace Sys2Proof.Machine
open Sys2Proof

/-- Bytes of an element (R405): INT4 counts as 1 here, BK as 544 in SPACE 0 and 512 elsewhere. -/
def elemSize (fmt space : Nat) : Nat :=
  if isBk fmt then (if space = 0 then 544 else 512)
  else match fmt with
    | 9 | 10 | 12 => 2
    | 11 => 4
    | _ => 1

/-- Fill width in bits (R405). -/
def fillBits (fmt : Nat) : Nat := if isBk fmt then 0 else fmtBits fmt

/-- A descriptor's fields (R404). -/
def readDesc (b : List Byte) : Desc :=
  let n := fld (leAt b 9 1) 0 3
  { base := leAt b 0 6, fmt := leAt b 8 1, space := fld (leAt b 10 1) 0 3, wrap := bitOf (leAt b 11 1) 0,
    padWrite := bitOf (leAt b 11 1) 1, swz := fld (leAt b 11 1) 2 2, fill := leAt b 12 4
    dims := (List.range (min n 6)).map (fun d =>
      ⟨sext (leAt b (16 + 8 * d) 4) 32, leAt b (20 + 8 * d) 2, leAt b (22 + 8 * d) 1, leAt b (23 + 8 * d) 1⟩) }

/-- Extent of a dimension (R404). -/
def Dim.extent (d : Dim) : Int := (d.count : Int) - d.lo - d.hi

/-- Elements of a walk (R406). -/
def Desc.elems (d : Desc) : Nat := d.dims.foldl (fun k x => k * x.count) 1

/-- Written count of a dimension (R421). -/
def Desc.written (d : Desc) (x : Dim) : Nat := if d.padWrite && !d.wrap then x.count else x.extent.toNat

/-- Smallest and greatest effective coordinate that generates an address (R407, R412, R413, R419). -/
def Desc.coords (d : Desc) (wr : Bool) (x : Dim) : Int × Int :=
  if wr && d.padWrite && !d.wrap then (-(x.lo : Int), (x.count : Int) - 1 - x.lo) else (0, x.extent - 1)

/-- Base as the address arithmetic takes it: the byte offset of SPACE 3 and SPACE 4 (R431, R489). -/
def Desc.arithBase (d : Desc) : Nat := if d.space = 3 ∨ d.space = 4 then d.base % 2 ^ 26 else d.base

/-- The greatest address of a space (R422). -/
def spaceTop (space : Nat) : Int :=
  match space with
  | 0 => 2 ^ 48 - 1
  | 2 => 0x2B7FFFF
  | _ => 0x3FFFFFF

/-- The alias check of R421 over (stride, written count) sorted by stride: the span grows, and no stride lies below it. -/
def aliasFree : Nat → List (Nat × Nat) → Bool
  | _, [] => true
  | span, (st, n) :: r => decide (span ≤ st) && aliasFree (span + (n - 1) * st) r

/-- The codes a descriptor earns (R420); `spaces` are those the engine may use, `wr` says it is armed on the write side, `buf` is what is added
to the base of a SPACE 0 descriptor, which the addresses of its walk start from (R422, R426). -/
def descCodes (spaces : List Nat) (wr : Bool) (buf : Nat) (b : List Byte) : List Nat :=
  let d := readDesc b
  let n := leAt b 9 1 % 8
  let used := d.dims
  let c1 := leAt b 6 2 != 0 || leAt b 9 1 / 8 != 0 || leAt b 10 1 / 8 != 0 || leAt b 11 1 / 16 != 0 ||
    (decide (d.fmt ≤ 12) && decide (2 ^ fillBits d.fmt ≤ d.fill))
  let c4 := n == 0 || decide (6 < n) || used.any (fun x => x.count == 0 || decide (x.extent < 1)) || !zeros b (16 + 8 * n) 64 ||
    decide (2 ^ 32 ≤ d.elems)
  let unit := if isBk d.fmt then (if d.space = 0 then 32 else 512) else elemSize d.fmt d.space
  let c6 := d.base % unit != 0 || used.any (fun x => x.stride % (unit : Int) != 0)
  let dims := (used.filter (fun x => decide (1 < d.written x))).map (fun x => (x.stride.natAbs, d.written x))
  let sorted := dims.mergeSort (fun a b => decide (a.1 ≤ b.1))
  let ext := used.map (fun x => let r := d.coords wr x; (r.1 * x.stride, r.2 * x.stride))
  let from_ : Int := (d.arithBase : Int) + (if d.space = 0 then buf else 0)
  let lo := ext.foldl (fun a x => a + min x.1 x.2) from_
  let hi := ext.foldl (fun a x => a + max x.1 x.2) from_
  let first := if d.fmt = 2 then lo / 2 else lo
  let last := if d.fmt = 2 then hi / 2 else hi + elemSize d.fmt d.space - 1
  (if c1 then [1] else []) ++ (if 12 < d.fmt then [2] else []) ++ (if spaces.contains d.space then [] else [3]) ++
  (if c4 then [4] else []) ++
  (if (d.swz != 0 && d.space != 1 && d.space != 3) || (d.padWrite && !wr) then [5] else []) ++
  (if c6 then [6] else []) ++ (if wr && used.any (fun x => x.stride == 0) then [7] else []) ++
  (if wr && !aliasFree (elemSize d.fmt d.space) sorted then [8] else []) ++
  (if lo < 0 ∨ spaceTop d.space < last ∨ first < 0 ∨ (d.space = 3 ∧ 2 ^ 32 ≤ d.base) then [9] else [])

/-- The code a descriptor fails with, the lowest that applies (R420). Bits [47:32] of a SPACE 3 base lie outside its form, and fail the range
check (R422, R431). -/
def descFail (spaces : List Nat) (wr : Bool) (buf : Nat) (b : List Byte) : Option Nat := (descCodes spaces wr buf b).head?

/-- Walk indices of element n, dimension 0 innermost (R406). -/
def walkIdx : List Dim → Nat → List Nat
  | [], _ => []
  | d :: r, n => n % max 1 d.count :: walkIdx r (n / max 1 d.count)

/-- The coordinate of each dimension with whether it is out of the extent (R407). -/
def coordsOf (d : Desc) (n : Nat) : List (Dim × Int × Bool) :=
  (d.dims.zip (walkIdx d.dims n)).map (fun x =>
    let c : Int := (x.2 : Int) - x.1.lo
    (x.1, c, decide (c < 0) || decide (x.1.extent ≤ c)))

/-- Is element n padding (R407). -/
def isPad (d : Desc) (n : Nat) : Bool := (coordsOf d n).any (fun x => x.2.2)

/-- The address of element n in the arithmetic of its space (R407). -/
def elemAddr (d : Desc) (n : Nat) : Int :=
  (coordsOf d n).foldl (fun a x =>
    let e : Int := if d.wrap && x.2.2 then x.2.1 % x.1.extent else x.2.1
    a + e * x.1.stride) (d.arithBase : Int)

/-- A rotating offset added to the base of a SPACE 0 descriptor (R426). -/
def Desc.rotated (d : Desc) (on : Bool) (buf : Nat) : Desc := if on && d.space == 0 then { d with base := d.base + buf } else d

/-- The swizzled row of a row (R416). -/
def swizzle (m r : Nat) : Nat := if m = 0 then r else r ^^^ ((r / 64) % 2 ^ (m + 1))

/-- What an access of a mover is made for: its key, partition, own core's window, who it is to a blanket window,
and the core and task of SAFETY_DUAL that sign what leaves the core. -/
structure MovCtx where
  key : Nat
  part : Nat
  core : Option Nat
  spBase : Nat
  spRows : Nat
  req : Req
  sign : Option (Nat × TRef) := none
  deriving DecidableEq, Repr

/-- The logical neural core k of a partition (R431). -/
def logicalCore (s : State) (p k : Nat) : Option Nat := (ownedList s .nc p)[k]?

/-- Check that n rows from r lie in the task's window of its own core (R388). -/
def ownRow (x : MovCtx) (r : Nat) : Eng Nat := fun s =>
  match x.core with
  | none => (.error 0x23, s)
  | some c =>
    if x.spBase ≤ r ∧ r < x.spBase + x.spRows then (.ok c, s) else (.error 0x23, bump s (spc c + 0x81C) 1)

/-- The core and scratchpad row of a SPACE 3 address: the row reached is swizzled, then checked (R416, R417, R431, R392). -/
def winRow (x : MovCtx) (d : Desc) (o : Nat) (rd : Bool) : Eng (Nat × Nat) := fun s =>
  match logicalCore s x.part (fld d.base 29 3) with
  | none => (.error 0x22, s)
  | some c =>
    let w := fld d.base 26 3
    let r := swizzle d.swz (winBase s c w + o / 512)
    match winCheck c w r 1 x.req rd s with
    | (.error e, t) => (.error e, t)
    | (.ok _, t) => (.ok (c, r), t)

/-- A failure inside another core's scratchpad reaches the requester as an error response (R383), and so does one of the tile memory that a
channel reads (R440, R445). -/
def asBus (e : Nat) : Nat := if e = 0x40 then 0x30 else e
def tileBus (x : MovCtx) (e : Nat) : Nat := match x.req with | .dma _ => if e = 0x41 then 0x30 else e | _ => e

/-- The 64-byte units of remote data that have come for an address. -/
def remBytes (s : State) (k a n : Nat) : Option (List Byte) :=
  let us := rangeFrom (a / 64) ((a + n - 1) / 64 - a / 64 + 1)
  let ds := us.map (fun u => tget (fun _ => ([] : List Byte)) (movAt s k).remR u)
  if ds.any List.isEmpty then none else some ((ds.flatten.drop (a % 64)).take n)

/-- A byte of a unit that has come takes the value just written there. -/
def remPatch (k a : Nat) (b : List Byte) : Eng Unit := Eng.modify (fun s =>
  let v := movAt s k
  let u := tget (fun _ => ([] : List Byte)) v.remR (a / 64)
  setMov s k { v with remR := tset (fun _ => []) v.remR (a / 64) (u.take (a % 64) ++ b ++ u.drop (a % 64 + b.length)) })

/-- The full SPACE 4 address of a byte offset (R489). -/
def remAddr (d : Desc) (o : Nat) : Nat := d.base / 2 ^ 26 * 2 ^ 26 + o

/-- The byte that holds an element: an INT4 address counts nibbles (R408). -/
def Desc.byteAt (d : Desc) (a : Nat) : Nat := if d.fmt = 2 then a / 2 else a

/-- Read bytes of an element; the bytes of INT4 hold the nibble in their low bits, those of BK the lane and then the data. Scratchpads are read
through the wide view (R374, R383). -/
def elemBytes (x : MovCtx) (d : Desc) (a : Nat) : Eng (List Byte) :=
  let o := d.byteAt a
  let n := if isBk d.fmt && (d.space = 1 || d.space = 3) then 544 else elemSize d.fmt d.space
  let nib := fun (b : List Byte) => if d.fmt == 2 then natLe 1 (if a % 2 = 0 then leNat b % 16 else leNat b / 16) else b
  let row := fun (c r : Nat) =>
    if isBk d.fmt then do
      let w ← rowRead c r true
      pure (w.2 ++ w.1)
    else do
      let b ← spWide c (512 * r + o % 512) n
      pure (nib b)
  match d.space with
  | 0 => do
    let b ← engRead x.part o n
    pure (nib b)
  | 1 => do
    let r := swizzle d.swz (o / 512)
    let c ← ownRow x r
    row c r
  | 2 => do
    let b ← (vtmRead x.part o n).adapt (tileBus x)
    pure (if isBk d.fmt then List.replicate 32 0 ++ b else nib b)
  | 3 => do
    let cr ← winRow x d o true
    (row cr.1 cr.2).adapt asBus
  | _ => fun s => match remBytes s x.key (remAddr d o) n with
    | some b => (.ok (if isBk d.fmt then List.replicate 32 0 ++ b else nib b), s)
    | none => (.error 0x25, s)

/-- Store one nibble into the byte that holds it. -/
def mergeNibble (old : List Byte) (a v : Nat) : List Byte :=
  let o := leNat old
  natLe 1 (if a % 2 = 0 then o / 16 * 16 + v % 16 else o % 16 + 16 * (v % 16))

/-- The data and lane of a scratchpad row as a BK element fills it: bytes that its format does not use are 0 (R352). -/
def bkRow (fmt : Nat) (b : List Byte) : List Byte × List Byte :=
  let used := fun (n k : Nat) (l : List Byte) => l.take n ++ List.replicate (k - n) 0
  (used (if fmt = 6 ∨ fmt = 7 then 480 else 512) 512 (b.drop 32), used (if fmt = 8 then 16 else if fmt = 5 then 32 else 20) 32 (b.take 32))

/-- Write an element; remote writes are answered as (address, bytes) to be sent in order. `cov` says that the run of elements it belongs to
covers its words whole, so that none is read first (R384). An INT4 element keeps the other nibble of its byte (R408); of a remote byte
the nibble kept is the one that was read from there. -/
def elemStore (x : MovCtx) (d : Desc) (a : Nat) (cov : Bool) (b : List Byte) : Eng (Option (Nat × List Byte)) :=
  let o := d.byteAt a
  let val := fun (old : State → List Byte) => Eng.get (fun s => if d.fmt == 2 then mergeNibble (old s) a (leNat b) else b)
  let words := fun (t : Nat) => if cov then [t / 8] else []
  let row := fun (c r : Nat) => do
    if isBk d.fmt then rowWrite c r (bkRow d.fmt b).1 (bkRow d.fmt b).2
    else do
      let v ← val (fun s => spData s c (512 * r + o % 512) 1)
      spPut c (512 * r + o % 512) (words (512 * r + o % 512)) v
  match d.space with
  | 0 => do
    let v ← if d.fmt == 2 then (do let old ← engPeek x.part o; pure (mergeNibble old a (leNat b))) else pure b
    engWriteAll x.part o v
    pure none
  | 1 => do
    let r := swizzle d.swz (o / 512)
    let c ← ownRow x r
    row c r
    pure none
  | 2 => do
    let v ← val (fun s => memRead s.tile (app s (vtmPg + 0x100 + 8 * x.part) * 0x1_0000 + o) 1)
    (vtmWrite x.part o (words o) (if isBk d.fmt then v.drop 32 else v)).adapt (tileBus x)
    pure none
  | 3 => do
    let cr ← winRow x d o false
    (row cr.1 cr.2).adapt asBus
    pure none
  | _ => do
    remCheck x.part (remAddr d o)
    if d.fmt == 2 then fun s => match remBytes s x.key (remAddr d o) 1 with
      | none => (.error 0x25, s)
      | some old =>
        let v := mergeNibble old a (leNat b)
        (.ok (some (remAddr d o, v)), (remPatch x.key (remAddr d o) v s).2)
    else pure (some (remAddr d o, if isBk d.fmt then b.drop 32 else b))

/-- Do the elements around element n, in descriptor order, cover the 64-bit words of element n whole: written as one access, these words are
not read first (R384). -/
def wordCovered (d : Desc) (n : Nat) : Bool :=
  let a := (elemAddr d n).toNat
  let per := if d.fmt = 2 then 16 else 8 / elemSize d.fmt d.space
  let u := if d.fmt = 2 then 1 else elemSize d.fmt d.space
  let lo := a - a % (per * u)
  let k := (a - lo) / u
  let run := fun (first : Nat) (up : Bool) => decide (first + per ≤ d.elems) && (List.range per).all (fun i =>
    !(isPad d (first + i) && !d.padWrite) && elemAddr d (first + i) == ((lo + u * (if up then i else per - 1 - i) : Nat) : Int))
  isBk d.fmt || (decide (k ≤ n) && run (n - k) true) || (decide (per - 1 - k ≤ n) && run (n - (per - 1 - k)) false)

/-- Does the element at n begin a scratchpad row of its walk: the one before it lies in another (R402). -/
def rowBegins (d : Desc) (n : Nat) : Bool :=
  n == 0 || (isPad d (n - 1) && !d.padWrite) || d.byteAt (elemAddr d (n - 1)).toNat / 512 != d.byteAt (elemAddr d n).toNat / 512

/-- The element a read descriptor delivers at n (R412). -/
def readElem (x : MovCtx) (d : Desc) (n : Nat) : Eng (List Byte) :=
  if isPad d n && !d.wrap then pure (if isBk d.fmt then List.replicate 544 0 else natLe (elemSize d.fmt 0) d.fill)
  else elemBytes x d (elemAddr d n).toNat

/-- The address a write is signed at, in the form of its space (R536). -/
def signAddr (s : State) (p : Nat) (d : Desc) (a : Nat) : Nat :=
  let o := d.byteAt a
  match d.space with
  | 2 => app s (vtmPg + 0x100 + 8 * p) * 0x1_0000 + o
  | 3 | 4 => remAddr d o
  | _ => o

/-- Add a write that leaves the core to the signature of a copy (R536): CRC-64 of its address and bytes. -/
def signWrite (u : Nat) (r : TRef) (a : Nat) (b : List Byte) (s : State) : State :=
  modCtx s u r (fun x => { x with sig := (x.sig + crc64 (natLe 8 a ++ b)) % 2 ^ 64 })

/-- Store an element; one that leaves the core of a SAFETY_DUAL task is signed, and the checker's is not performed (R536, R537). -/
def signedStore (x : MovCtx) (d : Desc) (a : Nat) (cov : Bool) (b : List Byte) : Eng (Option (Nat × List Byte)) := fun s =>
  match x.sign with
  | none => elemStore x d a cov b s
  | some (u, r) =>
    if d.space = 1 then elemStore x d a cov b s
    else match elemStore x d a cov b s with
      | (.error e, t) => (.error e, t)
      | (.ok o, t) =>
        let k := signWrite u r (signAddr s x.part d a) b
        if r.copy = 1 then (.ok none, k s) else (.ok o, k t)

/-- What a write descriptor does with the element at n (R413); a row written through a blanket window is counted as its first element is (R402). -/
def writeElem (x : MovCtx) (d : Desc) (n : Nat) (b : List Byte) : Eng (Option (Nat × List Byte)) :=
  if isPad d n && !d.padWrite then pure none
  else do
    let o ← signedStore x d (elemAddr d n).toNat (wordCovered d n) b
    if d.space = 3 ∧ rowBegins d n then
      Eng.modify (fun s => match logicalCore s x.part (fld d.base 29 3) with
        | some c => if (x.sign.map (·.2.copy)) = some 1 then s else bump s (spc c + 0x818) 1
        | none => s)
    else pure ()
    pure o

end Sys2Proof.Machine
end

