-- ==== Sys2Proof/Machine/VisBase.lean ====
section
/-! DEFINITION. What the image pipeline and the vision engines share: the running task, its command, planes of samples and lines (R98, R119, R182, R188, R205, R209 to R213, R218, R226, R228 to R230). -/

namespace Sys2Proof.Machine
open Sys2Proof

/-- The task in a unit's running slot as the unit sees it (R98, R122): its reference, graph, node and entry, the sequences whose buffers it
writes and reads, and whether the hamper before ran since START_GRAPH (R188, R260). -/
structure VTask where
  blk : Blk
  inst : Nat
  ref : TRef
  graph : Graph
  node : GNode
  ent : GTask
  seq : Word
  inSeq : Word
  prev : Bool := false
  deriving DecidableEq, Repr

/-- Partition of a task. -/
def VTask.part (t : VTask) : Nat := t.graph.part

/-- BUF_OFFSET of the buffers a task writes, and of those it reads (R98, R122). -/
def VTask.rotOut (t : VTask) : Nat := bufOffset t.ent t.seq
def VTask.rotIn (t : VTask) : Nat := bufOffset t.ent t.inSeq

/-- The running task of a unit whose work is not done. -/
def vtask (s : State) (b : Blk) (u : Nat) : Option VTask :=
  let x := unitAt s b u
  match x.run, x.done with
  | some r, none =>
    let g := graphAt s r.graph
    some ⟨b, u, r, g, nodeAt g r.node, taskEnt g r.idx, r.seq, x.src.getD (inSeq s r), x.prev⟩
  | _, _ => none

/-- The status an access cause gives a vision engine: that of an uncorrectable tile-memory word (R401), or the engine's own (R229, R467). -/
def visStatus (st c : Nat) : Nat := if c = 0x41 then 0x0811 else if 0x100 ≤ c then c else st

/-- An access whose failure ends the task with an engine's status. -/
def Eng.as {α : Type} (st : Nat) (m : Eng α) : Eng α := m.mapErr (visStatus st)

/-- The task's command, of an exact length; a wrong length is a bad parameter, a failing read a read fault. -/
def VTask.command (t : VTask) (len bad rdf : Nat) : Eng (List Byte) := do
  Eng.need (t.ent.cmdLen == len) bad
  Eng.as rdf (engRead t.part t.ent.cmdAddr len)

/-- Run an engine's work on its running task: the status found is kept for the end of the task, and a status the engine reports sets a
bit of BLK_ERR_STAT. -/
def runVis (s : State) (b : Blk) (u : Nat) (bit : Nat → Option Nat) (f : VTask → Eng Unit) : State :=
  match vtask s b u with
  | none => s
  | some t => match f t s with
    | (.ok _, s1) => finishRun s1 b u 0
    | (.error st, s1) =>
      finishRun (match bit st with | some k => raiseErr s1 b u k none | none => s1) b u st

/-- The first source line meets an armed injection: corrected is counted, uncorrectable ends the task (R206, R228). -/
def lbInject (b : Blk) (u ue : Nat) : Eng Unit := fun s =>
  let s1 := if injArmed s b u 0 then raiseErr (bump (injUsed s b u 0) (pg b u + 0x80C) 1) b u 10 none else s
  if injArmed s1 b u 1 then (.error ue, injUsed s1 b u 1) else (.ok (), s1)

/-- Fields of k bytes in a row. -/
def fieldsAt (b : List Byte) (off k n : Nat) : List Nat := (List.range n).map (fun i => leAt b (off + k * i) k)

/-! ## Planes -/

/-- A rectangle of samples. -/
structure Plane (α : Type) where
  w : Nat
  h : Nat
  d : Array α

/-- The sample at a place inside the plane. -/
def Plane.at_ {α : Type} [Inhabited α] (p : Plane α) (x y : Nat) : α := p.d.getD (y * p.w + x) default

/-- A plane by a function of the place. -/
def Plane.build {α : Type} (w h : Nat) (f : Nat → Nat → α) : Plane α := ⟨w, h, Array.ofFn (n := w * h) (fun i => f (i.val % w) (i.val / w))⟩

/-- A coordinate reflected at the edges without repeating them (R182). -/
def reflect (v : Int) (n : Nat) : Nat :=
  let a : Int := if v < 0 then -v else v
  let b : Int := if a ≥ n then 2 * (n : Int) - 2 - a else a
  b.toNat

/-- A coordinate limited to the frame. -/
def clampC (v : Int) (n : Nat) : Nat := (clampI 0 ((n : Int) - 1) v).toNat

/-- The sample at a reflected place. -/
def Plane.refl {α : Type} [Inhabited α] (p : Plane α) (x y : Int) : α := p.at_ (reflect x p.w) (reflect y p.h)

/-- The sample at a limited place. -/
def Plane.clamped {α : Type} [Inhabited α] (p : Plane α) (x y : Int) : α := p.at_ (clampC x p.w) (clampC y p.h)

/-- Values of k bytes each. -/
def elemsOf (k : Nat) (bs : List Byte) : List Nat := (groups k bs.length bs).map leNat

/-- A place in one of the two spaces a vision engine addresses (R211). -/
structure VAddr where
  space : Nat
  a : Nat
  deriving DecidableEq, Repr

/-- The place an address field names: bit k of ROTATING and of SPACE apply to it (R98, R211). -/
def vaddr (cmd : List Byte) (off k rot space off_ : Nat) : VAddr :=
  ⟨b2n (bitOf space k), leAt cmd off 8 + (if bitOf rot k then off_ else 0)⟩

/-- What a range of bytes holds, without an access: nothing where it cannot be read. -/
def peek (s : State) (p : Nat) (v : VAddr) (n : Nat) : List Byte :=
  if v.space = 0 then match vaRead s p v.a n with
    | .ok b => b
    | .error _ => []
  else match (regionAt p v.a n s).1 with
    | .ok a => memRead s.tile a n
    | .error _ => []

/-- A run of columns of source lines: first column and number. -/
abbrev Cols : Type := Nat × Nat

/-- The columns lo to hi of a line of n, the part outside it left out. -/
def colsOf (n : Nat) (lo hi : Int) : Cols := (lo.toNat, min n (hi + 1).toNat - lo.toNat)

/-- Columns c of line y of a frame of k-byte pixels, as an access (R207, R229). -/
def pullLine (p : Nat) (v : VAddr) (stride k st : Nat) (c : Cols) (y : Nat) : Eng Unit := do
  if 0 < c.2 then
    let _ ← Eng.as st (planeRead p v.space (v.a + y * stride + c.1 * k) (c.2 * k))

/-- Columns c of lines of a frame as they stand in memory: 0 in the columns left out and where nothing can be read. -/
def peekLines (s : State) (p : Nat) (v : VAddr) (stride k : Nat) (c : Cols) (ys : List Nat) : List (Nat × List Byte) :=
  ys.map (fun y => (y, List.replicate (c.1 * k) 0 ++ peek s p ⟨v.space, v.a + y * stride + c.1 * k⟩ (c.2 * k)))

/-- An engine reads its source lines in order, and writes each output line as soon as the source lines it needs have been read; `k` have been
(R205, R207, R218, R226, R229, R255). An output line stands with the number of source lines it needs. -/
def pipeline : List (Nat × Eng Unit) → List (Eng Unit) → Nat → Eng Unit
  | [], src, _ => Eng.each src id
  | (n, put) :: r, src, k => do
    Eng.each (src.take (n - k)) id
    put
    pipeline r (src.drop (n - k)) (max n k)

/-- The first source line read meets an armed injection (R206, R228). -/
def meetFirst (inj : Eng Unit) : List (Eng Unit) → List (Eng Unit)
  | [] => []
  | m :: r => (do m; inj) :: r

/-- A plane of k-byte samples from lines read, `c` samples to the pixel; a line not read holds the default. -/
def planeOf (w h c k : Nat) (ls : List (Nat × List Byte)) : Plane (List Nat) :=
  let rows : Array (Array (List Nat)) :=
    ls.foldl (fun a l => a.setIfInBounds l.1 ((groups c (w * c) ((elemsOf k l.2).take (w * c))).toArray)) (Array.replicate h #[])
  Plane.build w h (fun x y => (rows.getD y #[]).getD x [])

/-- A plane of single samples. -/
def monoOf (w h k : Nat) (ls : List (Nat × List Byte)) : Plane Nat :=
  let p := planeOf w h 1 k ls
  Plane.build w h (fun x y => (p.at_ x y).headD 0)

/-- Write n bytes at a line and offset of an output. -/
def writeLine1 (p : Nat) (v : VAddr) (st off : Nat) (bs : List Byte) : Eng Unit := Eng.as st (planeWrite p v.space (v.a + off) bs)

/-- The pieces of n bytes at an address that one access writes: those of one page each; the tile memory has no pages. -/
def pagePieces (v : VAddr) (n : Nat) : List (Nat × Nat) :=
  if v.space = 0 then (piecesOf v.a n).map (fun e => (e.1 - v.a, e.2)) else [(0, n)]

/-- Write a line page by page, noting what has landed (R230, R256, R282): `note a b` where bytes a to b - 1 have. -/
def writeNoted (p : Nat) (v : VAddr) (st off : Nat) (bs : List Byte) (note : Nat → Nat → Eng Unit) : Eng Unit :=
  Eng.each (pagePieces ⟨v.space, v.a + off⟩ bs.length) (fun e => do
    writeLine1 p v st (off + e.1) ((bs.drop e.1).take e.2)
    note e.1 (e.1 + e.2))

/-- The elements of k bytes whose last byte lies at a to b - 1. -/
def landed {α : Type} (k a b : Nat) (l : List α) : List α := (l.take (b / k)).drop (a / k)

/-- Bits to bytes, bit 0 of byte 0 first. -/
def bitBytes : Nat → List Bool → List Byte
  | 0, _ => []
  | k + 1, l => BitVec.ofNat 8 ((l.take 8).foldr (fun b a => b2n b + 2 * a) 0) :: bitBytes k (l.drop 8)

/-- Two byte ranges in spaces overlap (R212). -/
def rangesMeet (x y : VAddr × Nat) : Bool :=
  x.1.space == y.1.space && decide (0 < x.2) && decide (0 < y.2) && decide (x.1.a < y.1.a + y.2) && decide (y.1.a < x.1.a + x.2)

/-- No output range overlaps an input range (R212). -/
def rangesApart (ins outs : List (VAddr × Nat)) : Bool := outs.all (fun o => ins.all (fun i => !rangesMeet o i))

/-- Round up to a multiple. -/
def roundUp (n k : Nat) : Nat := ceilDiv n k * k

/-- An unsigned 16-bit result (R182). -/
def clamp16 (v : Int) : Nat := (clampI 0 65535 v).toNat

/-- The tile of a command (R209): X0, Y0, W and H, the whole frame where TILE_W is 0. -/
structure Tile where
  x0 : Nat
  y0 : Nat
  w : Nat
  h : Nat
  deriving DecidableEq, Repr

/-- The tile at four 16-bit fields. -/
def tileAt (cmd : List Byte) (off fw fh : Nat) : Tile :=
  if leAt cmd (off + 4) 2 = 0 then ⟨0, 0, fw, fh⟩ else ⟨leAt cmd off 2, leAt cmd (off + 2) 2, leAt cmd (off + 4) 2, leAt cmd (off + 6) 2⟩

/-- Does a tile lie within its frame (R209). -/
def Tile.ok (t : Tile) (fw fh : Nat) : Bool := decide (1 ≤ t.h) && decide (t.x0 + t.w ≤ fw) && decide (t.y0 + t.h ≤ fh)

/-- Rows and columns of a tile. -/
def Tile.ys (t : Tile) : List Nat := rangeFrom t.y0 t.h
def Tile.xs (t : Tile) : List Nat := rangeFrom t.x0 t.w

/-- Sum of a list of integers. -/
def sumI (l : List Int) : Int := l.foldl (· + ·) 0

/-- Sum of a list of numbers. -/
def sumN (l : List Nat) : Nat := l.foldl (· + ·) 0

/-- Absolute difference. -/
def absDiff (a b : Nat) : Nat := (a - b) + (b - a)

/-- Integers from -r to r. -/
def span (r : Nat) : List Int := (List.range (2 * r + 1)).map (fun (i : Nat) => (i : Int) - r)

end Sys2Proof.Machine
end

