-- ==== Sys2Proof/Machine/PyrWarp.lean ====
section
/-! DEFINITION. The pyramid and warp engines (R209 to R230). -/

namespace Sys2Proof.Machine
open Sys2Proof

/-- Bytes per pixel, channels and bytes per sample of FORMAT: U8, U16, RGB16 (R217). -/
def visBpp (f : Nat) : Nat := nth 1 [1, 2, 6] f
def visCh (f : Nat) : Nat := nth 1 [1, 1, 3] f
def visSs (f : Nat) : Nat := nth 1 [1, 2, 2] f

/-- BLK_ERR_STAT bit of a status whose last digits are 1 bad parameters, 2 read fault, 3 write fault, 4 uncorrectable line (R230). -/
def visBit (base st : Nat) : Option Nat :=
  if st = 0x0811 then some 8
  else match st - base with
    | 1 => some 12 | 2 => some 8 | 3 => some 9 | 4 => some 11
    | _ => none

/-- Output pixels written, and fill pixels among them (R230). -/
def countPixels (b : Blk) (u n fill : Nat) : Eng Unit := Eng.modify (fun s => bump (bump64 s (pg b u + 0x804) n) (pg b u + 0x814) fill)

/-- The bytes of a pixel's channels. -/
def pixBytes (f : Nat) (v : List Nat) : List Byte := v.flatMap (natLe (visSs f))

/-! ## Pyramids -/

/-- Dimensions of the levels below an input (R215): the input first. -/
def pyrDims : Nat → Nat → Nat → List (Nat × Nat)
  | 0, w, h => [(w, h)]
  | n + 1, w, h => (w, h) :: pyrDims n ((w + 1) >>> 1) ((h + 1) >>> 1)

/-- Stride and offset of the output levels in the pyramid layout, and the end of the layout (R216). -/
def pyrLayout (bpp : Nat) : List (Nat × Nat) → Nat → List (Nat × Nat) × Nat
  | [], off => ([], off)
  | (w, h) :: r, off =>
    let st := roundUp (w * bpp) 64
    let (l, e) := pyrLayout bpp r (off + roundUp (st * h) 4096)
    ((st, off) :: l, e)

/-- One reduced sample (R215). -/
def pyrAt (q : Plane (List Nat)) (ch x y : Nat) : List Nat :=
  let g : List Nat := [1, 4, 6, 4, 1]
  (List.range ch).map (fun c =>
    (sumN ((List.range 5).flatMap (fun j => (List.range 5).map (fun i =>
      nth 0 g j * nth 0 g i * nth 0 (q.refl (2 * x + (i : Int) - 2) (2 * y + (j : Int) - 2)) c))) + 128) >>> 8)

/-- Ranges, stated zeros, alignments and levels of the command (R209, R217, R218). -/
def pyrCmdOk (c : List Byte) : Bool :=
  let f := leAt c 2 1
  let lf := leAt c 3 1
  let lc := leAt c 4 1
  let w := leAt c 8 2
  let h := leAt c 10 2
  let d := pyrDims lc w h
  let o := nth (0, 0) d 1
  leAt c 0 2 == 1 && decide (f ≤ 2) && decide (lf ≤ 6) && decide (1 ≤ lc) && decide (lf + lc ≤ 7) && decide (leAt c 5 1 < 4) &&
  decide (leAt c 6 1 < 4) && zeros c 7 8 && zeros c 40 64 && decide (3 ≤ w) && decide (w ≤ 8192) && decide (3 ≤ h) && decide (h ≤ 8192) &&
  decide (w * visBpp f ≤ leAt c 20 4) && leAt c 20 4 % visBpp f == 0 && leAt c 24 8 % visBpp f == 0 && leAt c 32 8 % 64 == 0 &&
  (lc == 1 || leAt c 16 2 == 0) && (d.take lc).all (fun x => decide (3 ≤ x.1) && decide (3 ≤ x.2)) &&
  (tileAt c 12 o.1 o.2).ok o.1 o.2

/-- A level to build: its plane, tile, stride and offset in the layout, the lines of the level above, and the columns it reads of it with their
place and stride (R215, R216, R218). -/
structure PyrLevel where
  q : Plane (List Nat)
  tile : Tile
  stride : Nat
  off : Nat
  above : Nat
  src : VAddr
  srcStride : Nat
  cols : Cols

/-- The levels of a task, each from the plane above it: `q` is that plane, at `src` with a stride. A later level reads its source whole. -/
def pyrLevels (f : Nat) (dst : VAddr) : List ((Nat × Nat) × Nat × Nat) → Plane (List Nat) → VAddr → Nat → Cols → Tile → List PyrLevel
  | [], _, _, _, _, _ => []
  | ((w, h), st, off) :: r, q, src, ss, cs, tl =>
    let q1 := Plane.build w h (fun x y => if tl.x0 ≤ x ∧ x < tl.x0 + tl.w ∧ tl.y0 ≤ y ∧ y < tl.y0 + tl.h then pyrAt q (visCh f) x y else [])
    let next := match r with | e :: _ => (⟨0, 0, e.1.1, e.1.2⟩ : Tile) | [] => ⟨0, 0, 0, 0⟩
    ⟨q1, tl, st, off, q.h, src, ss, cs⟩ :: pyrLevels f dst r q1 ⟨dst.space, dst.a + off⟩ st (0, w) next

/-- Read line j of the level above, write the lines of this level that it completes, and after each let the next level read it back (R218): levels
interleave, and a line is read once its write has been acknowledged. -/
def pyrFeed (t : VTask) (f : Nat) (dst : VAddr) : List PyrLevel → Nat → Eng Unit
  | [], _ => pure ()
  | l :: r, j => do
    pullLine t.part l.src l.srcStride (visBpp f) 0x0302 l.cols j
    Eng.each (l.tile.ys.filter (fun y => min (l.above - 1) (2 * y + 2) == j)) (fun y => do
      writeNoted t.part dst 0x0303 (l.off + y * l.stride + l.tile.x0 * visBpp f) (l.tile.xs.flatMap (fun x => pixBytes f (l.q.at_ x y)))
        (fun a b => countPixels .pyr t.inst (b / visBpp f - a / visBpp f) 0)
      pyrFeed t f dst r y)

/-- One pyramid task (R209 to R218). A tile reads the columns and lines of the source that its pixels need. -/
def pyrBuild (t : VTask) : Eng Unit := do
  let c ← t.command 64 0x0301 0x0302
  Eng.need (pyrCmdOk c) 0x0301
  let f := leAt c 2 1
  let lc := leAt c 4 1
  let w := leAt c 8 2
  let h := leAt c 10 2
  let ss := leAt c 20 4
  let src := vaddr c 24 0 (leAt c 5 1) (leAt c 6 1) t.rotIn
  let dst := vaddr c 32 1 (leAt c 5 1) (leAt c 6 1) t.rotOut
  let dims := (pyrDims lc w h).drop 1
  let (lay, total) := pyrLayout (visBpp f) dims 0
  Eng.need (rangesApart [(src, ss * h)] [(dst, total)]) 0x0301
  let o := nth (0, 0) dims 0
  let tl := tileAt c 12 o.1 o.2
  let lo := 2 * tl.y0 - 2
  let hi := min (h - 1) (2 * (tl.y0 + tl.h - 1) + 2)
  let cs := colsOf w (2 * (tl.x0 : Int) - 2) (2 * ((tl.x0 + tl.w : Nat) : Int))
  let ys := rangeFrom lo (hi + 1 - lo)
  let ls ← Eng.get (fun s => peekLines s t.part src ss (visBpp f) cs ys)
  let levels := pyrLevels f dst (dims.zip lay) (planeOf w h (visCh f) (visSs f) ls) src ss cs tl
  Eng.each (meetFirst (lbInject .pyr t.inst 0x0304) (ys.map (pyrFeed t f dst levels))) id

/-- PYR_BUILD of an instance. -/
def pyrAct (s : State) (u : Nat) : State := runVis s .pyr u (visBit 0x0300) pyrBuild

/-! ## Warps -/

/-- Ranges, stated zeros, alignments and the tile of a WARP command (R209, R224, R225); `hom` names homography mode. -/
def warpCmdOk (c : List Byte) : Bool :=
  let f := leAt c 2 1
  let hom := leAt c 0 2 == 2
  let mask := bitOf (leAt c 6 1) 0
  let dim := fun (o : Nat) => decide (1 ≤ leAt c o 2) && decide (leAt c o 2 ≤ 8192)
  let ow := leAt c 12 2
  let oh := leAt c 14 2
  let t := tileAt c 16 ow oh
  (leAt c 0 2 == 1 || hom) && decide (f ≤ 2) && decide (leAt c 3 1 ≤ 1) && decide (leAt c 4 1 < 16) && decide (leAt c 5 1 < 16) &&
  decide (leAt c 6 1 < 2) && zeros c 7 8 && zeros c 30 32 && zeros c 68 72 && dim 8 && dim 10 && dim 12 && dim 14 && t.ok ow oh &&
  (f != 0 || decide (leAt c 24 2 ≤ 255)) && decide (leAt c 26 2 < 8192) && decide (leAt c 28 2 < 8192) &&
  leAt c 32 8 % visBpp f == 0 && decide (leAt c 8 2 * visBpp f ≤ leAt c 40 4) && leAt c 44 4 % 64 == 0 &&
  decide (ow * visBpp f ≤ leAt c 44 4) && leAt c 48 8 % 64 == 0 && leAt c 64 4 % 8 == 0 && decide ((ow + 7) / 8 ≤ leAt c 64 4) &&
  (if mask then leAt c 56 8 % 64 == 0 && t.x0 % 8 == 0 && (t.w % 8 == 0 || t.x0 + t.w == ow) else leAt c 56 8 == 0) &&
  (if hom then leAt c 72 8 == 0 && zeros c 26 30 && [104, 112, 120].all (fun o => decide ((sext (leAt c o 8) 64).natAbs ≤ 2 ^ 43))
    else leAt c 72 8 % 8 == 0 && zeros c 80 128)

/-- Nodes per row and rows of a mesh (R220). -/
def meshN (v : Nat) : Nat := ((v + 15) >>> 4) + 1

/-- The source position of an output pixel through the mesh, none for a fill pixel (R220); `ms` holds words X and Y of each node. -/
def meshPos (c : List Byte) (ms : Array (Array Nat)) (x y : Nat) : Option (Int × Int) :=
  let i := x >>> 4
  let j := y >>> 4
  let fx := x - 16 * i
  let fy := y - 16 * j
  let word := fun (a b k : Nat) => (ms.getD (j + b) #[]).getD (2 * (i + a) + k) 0
  let mix := fun (k : Nat) => ((((word 0 0 k % 2 ^ 18 * (16 - fx) * (16 - fy) + word 1 0 k % 2 ^ 18 * fx * (16 - fy) +
    word 0 1 k % 2 ^ 18 * (16 - fx) * fy + word 1 1 k % 2 ^ 18 * fx * fy + 64) >>> 7 : Nat) : Int))
  if bitOf (word 0 0 0) 31 || bitOf (word 1 0 0) 31 || bitOf (word 0 1 0) 31 || bitOf (word 1 1 0) 31 then none
  else some (mix 0 - 64 * (leAt c 26 2 : Nat), mix 1 - 64 * (leAt c 28 2 : Nat))

/-- The source position of an output pixel through the homography, none for a fill pixel (R221). -/
def homPos (c : List Byte) (x y : Nat) : Option (Int × Int) :=
  let h := fun (i : Nat) => sext (leAt c (80 + 4 * i) 4) 32
  let z := fun (i : Nat) => sext (leAt c (104 + 8 * i) 8) 64
  let u := h 0 * x + h 1 * y + z 0
  let v := h 2 * x + h 3 * y + z 1
  let w := h 4 * x + h 5 * y + z 2
  if w ≤ 0 then none else some ((128 * u + w) / (2 * w), (128 * v + w) / (2 * w))

/-- A position inside the source, else none (R222). -/
def inSource (sw sh : Nat) : Option (Int × Int) → Option (Nat × Nat)
  | some (px, py) =>
    if px < 0 ∨ 64 * ((sw : Int) - 1) < px ∨ py < 0 ∨ 64 * ((sh : Int) - 1) < py then none else some (px.toNat, py.toNat)
  | none => none

/-- Taps and weights of a kernel at phase k (R222, R223). -/
def warpTaps (bicubic : Bool) (k : Nat) : List (Int × Int) :=
  let q : Int := k
  if bicubic then
    let wm1 := (-q * q * q + 128 * q * q - 4096 * q + 64) / 128
    let w1 := (-3 * q * q * q + 256 * q * q + 4096 * q + 64) / 128
    let w2 := (q * q * q - 64 * q * q + 64) / 128
    [(-1, wm1), (0, 4096 - wm1 - w1 - w2), (1, w1), (2, w2)]
  else [(0, 4096 - 64 * q), (1, 64 * q)]

/-- The sample at a position (R222). -/
def warpAt (f : Nat) (bicubic : Bool) (q : Plane (List Nat)) (pos : Nat × Nat) : List Nat :=
  let xs := warpTaps bicubic (pos.1 % 64)
  let ys := warpTaps bicubic (pos.2 % 64)
  (List.range (visCh f)).map (fun ch =>
    let acc := sumI (ys.flatMap (fun b => xs.map (fun a =>
      b.2 * a.2 * ((nth 0 (q.clamped ((pos.1 / 64 : Nat) + a.1) ((pos.2 / 64 : Nat) + b.1)) ch : Nat) : Int))))
    (clampI 0 (if f = 0 then 255 else 65535) ((acc + 2 ^ 23) / 2 ^ 24)).toNat)

/-- First and last of a list of numbers, if any. -/
def boundsN (l : List Nat) : Option (Nat × Nat) :=
  l.foldl (fun acc v => match acc with
    | none => some (v, v)
    | some (a, b) => some (min a v, max b v)) none

/-- The source lines a list of positions samples, each with the columns it takes there: taps from `d` before a position's pixel to `e` after it (R222). -/
def warpLines (sw sh : Nat) (bicubic : Bool) (ps : List (Nat × Nat)) : List (Nat × Nat × Nat) :=
  let d : Int := if bicubic then 1 else 0
  let e : Int := if bicubic then 2 else 1
  let m : Array (Option (Nat × Nat)) := ps.foldl (fun a p =>
    let x : Int := (p.1 / 64 : Nat)
    let y : Int := (p.2 / 64 : Nat)
    let lo := clampC (y - d) sh
    (rangeFrom lo (clampC (y + e) sh + 1 - lo)).foldl (fun a k => a.modify k (fun o => match o with
      | none => some (clampC (x - d) sw, clampC (x + e) sw)
      | some (u, v) => some (min u (clampC (x - d) sw), max v (clampC (x + e) sw)))) a) (Array.replicate sh none)
  (List.range sh).filterMap (fun k => (m.getD k none).map (fun r => (k, r.1, r.2)))

/-- One warp task (R209 to R226). The mesh nodes of the tile are read first, then the source lines that taps use, in order. -/
def warpTile (t : VTask) : Eng Unit := do
  let c ← t.command 128 0x0311 0x0312
  Eng.need (warpCmdOk c) 0x0311
  let f := leAt c 2 1
  let sw := leAt c 8 2
  let sh := leAt c 10 2
  let ow := leAt c 12 2
  let oh := leAt c 14 2
  let mask := bitOf (leAt c 6 1) 0
  let hom := leAt c 0 2 == 2
  let bicubic := leAt c 3 1 == 1
  let at_ := fun (off k rot : Nat) => vaddr c off k (leAt c 4 1) (leAt c 5 1) rot
  let src := at_ 32 0 t.rotIn
  let dst := at_ 48 1 t.rotOut
  let mk := at_ 56 2 t.rotOut
  let mesh := at_ 72 3 t.rotIn
  let nx := meshN ow
  let ins := [(src, leAt c 40 4 * sh)] ++ (if hom then [] else [(mesh, 8 * nx * meshN oh)])
  let outs := [(dst, leAt c 44 4 * oh)] ++ (if mask then [(mk, leAt c 64 4 * oh)] else [])
  Eng.need (rangesApart ins outs) 0x0311
  let tl := tileAt c 16 ow oh
  let mrows := rangeFrom (tl.y0 / 16) ((tl.y0 + tl.h - 1) / 16 + 2 - tl.y0 / 16)
  let mcols : Cols := (tl.x0 / 16, (tl.x0 + tl.w - 1) / 16 + 2 - tl.x0 / 16)
  let ms ← Eng.get (fun s => if hom then [] else peekLines s t.part mesh (8 * nx) 8 mcols mrows)
  Eng.each (if hom then [] else mrows) (pullLine t.part mesh (8 * nx) 8 0x0312 mcols)
  let rows : Array (Array Nat) := ms.foldl (fun a l => a.setIfInBounds l.1 (elemsOf 4 l.2).toArray) (Array.replicate (meshN oh) #[])
  let pos := Plane.build tl.w tl.h (fun x y =>
    inSource sw sh (if hom then homPos c (tl.x0 + x) (tl.y0 + y) else meshPos c rows (tl.x0 + x) (tl.y0 + y)))
  let used := warpLines sw sh bicubic (pos.d.toList.filterMap id)
  let ls ← Eng.get (fun s => used.flatMap (fun l => peekLines s t.part src (leAt c 40 4) (visBpp f) (l.2.1, l.2.2 + 1 - l.2.1) [l.1]))
  let q := planeOf sw sh (visCh f) (visSs f) ls
  let fillV := List.replicate (visCh f) (leAt c 24 2)
  let put := fun (y : Nat) => do
    let line := (List.range tl.w).map (fun x => pos.at_ x y)
    writeNoted t.part dst 0x0313 ((tl.y0 + y) * leAt c 44 4 + tl.x0 * visBpp f) (line.flatMap (fun p => pixBytes f (match p with
      | none => fillV
      | some p => warpAt f bicubic q p)))
      (fun a b => let l := landed (visBpp f) a b line
        countPixels .warp t.inst l.length (l.filter (·.isNone)).length)
    if mask then
      writeLine1 t.part mk 0x0313 ((tl.y0 + y) * leAt c 64 4 + tl.x0 / 8) (bitBytes (ceilDiv tl.w 8) (line.map (·.isSome)))
  let need := fun (y : Nat) =>
    match boundsN ((List.range tl.w).filterMap (fun x => (pos.at_ x y).map (fun p => clampC ((p.2 / 64 : Nat) + (if bicubic then (2 : Int) else 1)) sh))) with
    | none => 0
    | some (_, b) => (used.filter (fun l => decide (l.1 ≤ b))).length
  pipeline ((List.range tl.h).map (fun y => (need y, put y)))
    (meetFirst (lbInject .warp t.inst 0x0314) (used.map (fun l => pullLine t.part src (leAt c 40 4) (visBpp f) 0x0312 (l.2.1, l.2.2 + 1 - l.2.1) l.1))) 0

/-- Does the running task of a WARP name a homography. -/
def warpIsHom (s : State) (u : Nat) : Bool :=
  match vtask s .warp u with
  | none => false
  | some t => match vaNat s t.part t.ent.cmdAddr 2 with
    | .ok op => op == 2
    | .error _ => false

/-- WARP_MESH of an instance: every command but that of a homography. -/
def warpMeshAct (s : State) (u : Nat) : State := if warpIsHom s u then s else runVis s .warp u (visBit 0x0310) warpTile

/-- WARP_HOMOGRAPHY of an instance. -/
def warpHomAct (s : State) (u : Nat) : State := if warpIsHom s u then runVis s .warp u (visBit 0x0310) warpTile else s

end Sys2Proof.Machine
end

