-- ==== Sys2Proof/Machine/Stereo.lean ====
section
/-! DEFINITION. The stereo engines (R231 to R256). -/

namespace Sys2Proof.Machine
open Sys2Proof

/-- The fields of an STR command that its arithmetic uses (R250). -/
structure StrCmd where
  fmt : Nat
  views : Nat
  flags : Nat
  lrThr : Nat
  w : Nat
  h : Nat
  tile : Tile
  dMin : Nat
  dNum : Nat
  ctW : Nat
  adW : Nat
  adShift : Nat
  adCap : Nat
  p1 : Nat
  p2 : Nat
  p2Shift : Nat
  uniq : Nat
  texThr : Nat
  miss : Nat
  srcStride : Nat
  dispStride : Nat
  maskStride : Nat
  maskPlane : Nat
  k : List Int
  wt : List Nat
  confStride : Nat
  deriving DecidableEq, Repr

/-- The command's fields. -/
def readStr (c : List Byte) : StrCmd :=
  { fmt := leAt c 2 1, views := leAt c 3 1, flags := leAt c 6 1, lrThr := leAt c 7 1, w := leAt c 8 2, h := leAt c 10 2
    tile := tileAt c 12 (leAt c 8 2) (leAt c 10 2), dMin := leAt c 20 2, dNum := leAt c 22 2, ctW := leAt c 24 1, adW := leAt c 25 1
    adShift := leAt c 26 1, adCap := leAt c 27 1, p1 := leAt c 28 2, p2 := leAt c 30 2, p2Shift := leAt c 32 1, uniq := leAt c 34 2
    texThr := leAt c 36 2, miss := leAt c 38 2, srcStride := leAt c 40 4, dispStride := leAt c 44 4, maskStride := leAt c 104 4
    maskPlane := leAt c 108 4, k := [0, 4096, sext (leAt c 112 2) 16, sext (leAt c 114 2) 16]
    wt := [0, leAt c 116 1, leAt c 117 1, leAt c 118 1], confStride := leAt c 120 4 }

def StrCmd.paths8 (k : StrCmd) : Bool := bitOf k.flags 0
def StrCmd.lrEn (k : StrCmd) : Bool := bitOf k.flags 1
def StrCmd.maskEn (k : StrCmd) : Bool := bitOf k.flags 2
def StrCmd.p2Adapt (k : StrCmd) : Bool := bitOf k.flags 3
def StrCmd.confEn (k : StrCmd) : Bool := bitOf k.flags 4

/-- The greatest candidate (R233). -/
def StrCmd.dHi (k : StrCmd) : Nat := k.dMin + k.dNum - 1

/-- Offset of a view's address in the command. -/
def viewOff (v : Nat) : Nat := 48 + 8 * v

/-- Ranges, stated zeros, alignments and strides of R250. -/
def strCmdOk (c : List Byte) : Bool :=
  let k := readStr c
  let bpp := visBpp k.fmt
  let used := fun (v : Nat) => decide (v < k.views)
  leAt c 0 2 == 1 && decide (k.fmt ≤ 1) && decide (2 ≤ k.views) && decide (k.views ≤ 4) && decide (leAt c 4 1 < 128) &&
  decide (leAt c 5 1 < 128) && decide (k.flags < 32) && decide (k.lrThr ≤ 7) && decide (16 ≤ k.w) && decide (k.w ≤ 8192) &&
  decide (8 ≤ k.h) && decide (k.h ≤ 8192) && k.tile.ok k.w k.h && decide (k.dMin ≤ 960) && decide (64 ≤ k.dNum) &&
  decide (k.dNum ≤ 1024) && k.dNum % 64 == 0 && decide (k.dMin + k.dNum ≤ 1024) && decide (k.ctW ≤ 15) && decide (k.adW ≤ 15) &&
  (k.ctW != 0 || k.adW != 0) && decide (k.adShift ≤ 15) && decide (k.p1 ≤ k.p2) && decide (k.p2 ≤ 4095) && decide (k.p2Shift ≤ 15) &&
  (k.p2Adapt || k.p2Shift == 0) && zeros c 33 34 && decide (k.uniq ≤ 256) && decide (k.miss ≤ 4095) &&
  decide (k.w * bpp ≤ k.srcStride) && k.srcStride % bpp == 0 && k.dispStride % 64 == 0 && decide (2 * k.w ≤ k.dispStride) &&
  (List.range 4).all (fun v => if used v then leAt c (viewOff v) 8 % bpp == 0 else leAt c (viewOff v) 8 == 0) &&
  leAt c 80 8 % 64 == 0 &&
  (if k.confEn then leAt c 88 8 % 64 == 0 else leAt c 88 8 == 0) && k.confStride % 64 == 0 && decide (k.w ≤ k.confStride) &&
  (if k.maskEn then leAt c 96 8 % 8 == 0 else leAt c 96 8 == 0) && k.maskStride % 8 == 0 && decide ((k.w + 7) / 8 ≤ k.maskStride) &&
  decide (k.maskStride * k.h ≤ k.maskPlane) &&
  ([2, 3] : List Nat).all (fun v => if used v then nth 0 k.k v != 0 else nth 0 k.k v == 0 && nth 0 k.wt v == 0) &&
  (k.views != 2 || nth 0 k.wt 1 == 16) && zeros c 119 120 && zeros c 124 128

/-- The census word of a place (R236). -/
def censusAt (q : Plane Nat) (x y : Nat) : Nat :=
  let c := q.at_ x y
  let bits := (span 3).flatMap (fun (j : Int) => ((span 4).filter (fun (i : Int) => i != 0 || j != 0)).map (fun (i : Int) =>
    decide (q.refl (x + i) (y + j) < c)))
  bits.foldr (fun b a => b2n b + 2 * a) 0

/-- Number of ones among the low n bits. -/
def popcount (n w : Nat) : Nat := ((List.range n).filter (fun i => bitOf w i)).length

/-- A mask bit (R224, R234). -/
def maskAt (m : Array (List Byte)) (x y : Nat) : Bool := bitOf (nth 0 (m.getD y []) (x / 8)).toNat (x % 8)

/-- Everything the cost needs of the views: samples, census words and mask lines, by view. -/
structure StrIn where
  s : Array (Plane Nat)
  cen : Array (Plane Nat)
  mask : Array (Array (List Byte))

def StrIn.sample (i : StrIn) (v x y : Nat) : Nat := (i.s.getD v ⟨0, 0, #[]⟩).at_ x y
def StrIn.census (i : StrIn) (v x y : Nat) : Nat := (i.cen.getD v ⟨0, 0, #[]⟩).at_ x y
/-- Is a place of a view a fill pixel (R234). -/
def StrIn.isFill (i : StrIn) (k : StrCmd) (v x y : Nat) : Bool := k.maskEn && !maskAt (i.mask.getD v #[]) x y

/-- The cost of candidate d for view v (R237, R245). -/
def viewCost (k : StrCmd) (i : StrIn) (x y d v : Nat) : Nat :=
  let xv : Int := (x : Int) - ((d : Int) * nth 0 k.k v + 2048) / 4096
  if xv < 0 ∨ (k.w : Int) ≤ xv then k.miss
  else if i.isFill k v xv.toNat y then k.miss
  else
    let ct := popcount 62 (i.census 0 x y ^^^ i.census v xv.toNat y)
    let ad := min k.adCap (absDiff (i.sample 0 x y) (i.sample v xv.toNat y) >>> k.adShift)
    ct * k.ctW + ad * k.adW

/-- The fused cost of candidate d (R237). -/
def fusedCost (k : StrCmd) (i : StrIn) (x y d : Nat) : Nat :=
  min 4095 ((sumN ((rangeFrom 1 (k.views - 1)).map (fun v => nth 0 k.wt v * viewCost k i x y d v)) + 8) >>> 4)

/-- The costs of every candidate at a place, from D_MIN. -/
def costRow (k : StrCmd) (i : StrIn) (x y : Nat) : Array Nat := ((rangeFrom k.dMin k.dNum).map (fusedCost k i x y)).toArray

/-- The path directions (R238). -/
def strPaths (p8 : Bool) : List (Int × Int) :=
  [(1, 0), (-1, 0), (0, 1), (0, -1)] ++ if p8 then [(1, 1), (-1, 1), (1, -1), (-1, -1)] else []

/-- Path coordinate of a place (R239). -/
def pathT (w h : Nat) (r : Int × Int) (x y : Nat) : Nat :=
  if r.2 = 1 then y else if r.2 = -1 then h - 1 - y else if r.1 = 1 then x else w - 1 - x

/-- Steps from a place back to its start point (R239). -/
def backSteps (w h : Nat) (r : Int × Int) (x y : Nat) : Nat :=
  let t := pathT w h r x y
  let room := fun (d : Int) (v n : Nat) => if d = 1 then v else if d = -1 then n - 1 - v else 8192
  min (t - ((t >>> 7) - 1) * 128) (min (room r.1 x w) (room r.2 y h))

/-- The penalty of a jump between neighbours (R240). -/
def jumpCost (k : StrCmd) (i : StrIn) (p q : Nat × Nat) : Nat :=
  if k.p2Adapt then max k.p1 ((k.p2 * 16) / (16 + (absDiff (i.sample 0 p.1 p.2) (i.sample 0 q.1 q.2) >>> k.p2Shift))) else k.p2

/-- One step of a path (R240). -/
def pathStep (k : StrCmd) (c lq : Array Nat) (p2e : Nat) : Array Nat :=
  let m := lq.foldl min (lq.getD 0 0)
  Array.ofFn (n := k.dNum) (fun d =>
    let best := min (lq.getD d.val 0) (m + p2e)
    let best := if d.val = 0 then best else min best (lq.getD (d.val - 1) 0 + k.p1)
    let best := if d.val + 1 = k.dNum then best else min best (lq.getD (d.val + 1) 0 + k.p1)
    c.getD d.val 0 + best - m)

/-- The aggregate along one path at a place (R239, R240). -/
def pathAt (k : StrCmd) (i : StrIn) (cost : Plane (Array Nat)) (r : Int × Int) (x y : Nat) : Array Nat :=
  let n := backSteps k.w k.h r x y
  let place := fun (b : Nat) => ((((x : Int) - r.1 * b).toNat, ((y : Int) - r.2 * b).toNat) : Nat × Nat)
  let s0 := place n
  (List.range n).foldl (fun l j =>
    let q := place (n - j)
    let p := place (n - j - 1)
    pathStep k (cost.at_ p.1 p.2) l (jumpCost k i p q)) (cost.at_ s0.1 s0.2)

/-- The sum over the paths (R240). -/
def aggAt (k : StrCmd) (i : StrIn) (cost : Plane (Array Nat)) (x y : Nat) : Array Nat :=
  let ls := (strPaths k.paths8).map (fun r => pathAt k i cost r x y)
  Array.ofFn (n := k.dNum) (fun d => sumN (ls.map (fun l => l.getD d.val 0)))

/-- Index of the least value among indices, the lowest on a tie. -/
def argMin (f : Nat → Nat) (l : List Nat) : Option Nat :=
  l.foldl (fun b d => match b with
    | none => some d
    | some e => if f d < f e then some d else some e) none

/-- The right-view winner (R241), as an offset from D_MIN; `agg` holds the aggregates of a line. -/
def rightWin (k : StrCmd) (agg : Nat → Array Nat) (xr : Nat) : Nat :=
  (argMin (fun d => (agg (xr + k.dMin + d)).getD d 0) ((List.range k.dNum).filter (fun d => decide (xr + k.dMin + d ≤ k.w - 1)))).getD 0

/-- Greatest less least sample over the census window (R242). -/
def texture (q : Plane Nat) (x y : Nat) : Nat :=
  let l := (span 3).flatMap (fun (j : Int) => (span 4).map (fun (i : Int) => q.refl (x + i) (y + j)))
  l.foldl max 0 - l.foldl min (q.at_ x y)

/-- The refinement offset (R243). -/
def refineOff (sm s0 sp : Int) : Int :=
  let den := 2 * (sm + sp - 2 * s0)
  if den = 0 then 0 else (32 * (sm - sp) + den) / (2 * den)

/-- Disparity and confidence of a reference pixel (R241 to R244). -/
def strPixel (k : StrCmd) (i : StrIn) (agg : Nat → Array Nat) (x y : Nat) : Nat × Nat :=
  let a := agg x
  let s := fun d => a.getD d 0
  let w1 := (argMin s (List.range k.dNum)).getD 0
  let d1 := k.dMin + w1
  let s1 := s w1
  let s2 := ((argMin s ((List.range k.dNum).filter (fun d => decide (2 ≤ absDiff d w1)))).map s).getD s1
  if i.isFill k 0 x y then (0xFFF3, 0)
  else if texture (i.s.getD 0 ⟨0, 0, #[]⟩) x y < k.texThr then (0xFFF0, 0)
  else if d1 = k.dHi ∨ (d1 = k.dMin ∧ 0 < k.dMin) ∨ x < d1 then (0xFFF2, 0)
  else if i.isFill k 1 (x - d1) y then (0xFFF3, 0)
  else if k.uniq * s2 < 256 * s1 then (0xFFF4, 0)
  else if k.lrEn && decide (k.lrThr < absDiff d1 (k.dMin + rightWin k agg (x - d1))) then (0xFFF1, 0)
  else
    let off : Int := if w1 = 0 then 0 else refineOff (s (w1 - 1)) s1 (s (w1 + 1))
    ((16 * (d1 : Int) + off).toNat, min 255 (((s2 - s1) * 255) / max 1 s2))

/-- Rows, and count of pixels, of the computed region of a tile (R248). -/
def strRows (k : StrCmd) : Nat × Nat := (k.tile.y0 - 255, min k.h (k.tile.y0 + k.tile.h + 255))
def strCols (k : StrCmd) : Nat × Nat :=
  let e := 255 + (if k.lrEn then k.dHi + 1 else 0)
  (k.tile.x0 - e, min k.w (k.tile.x0 + k.tile.w + e))

/-- Page registers that count the codes written (R256). -/
def codeCounters : List (Nat × Nat) := [(0x818, 0xFFF3), (0x81C, 0xFFF0), (0x820, 0xFFF2), (0x824, 0xFFF4), (0x828, 0xFFF1)]

/-- Columns of view v that the candidates of columns a to b - 1 lie at: those of the reference for view 0 (R237). -/
def strReach (k : StrCmd) (v a b : Nat) : Int × Int :=
  let at_ := fun (x d : Nat) => (x : Int) - ((d : Int) * nth 0 k.k v + 2048) / 4096
  if v = 0 then (a, (b : Int) - 1)
  else (min (at_ a k.dMin) (at_ a k.dHi), max (at_ (b - 1) k.dMin) (at_ (b - 1) k.dHi))

/-- Columns read of a view: those of its candidates and four more on each side for the census (R236, R248). -/
def strViewCols (k : StrCmd) (v : Nat) : Cols :=
  let cs := strCols k
  let r := strReach k v cs.1 cs.2
  if r.2 < 0 ∨ (k.w : Int) ≤ r.1 then (0, 0) else colsOf k.w (r.1 - 4) (r.2 + 4)

/-- Bytes read of a mask line: those of the candidates, and for the reference those of the tile's pixels (R234, R242). -/
def strMaskCols (k : StrCmd) (v : Nat) : Cols :=
  let cs := if v = 0 then (k.tile.x0, k.tile.x0 + k.tile.w) else strCols k
  let r := strReach k v cs.1 cs.2
  let c := colsOf k.w r.1 r.2
  if c.2 = 0 then (0, 0) else (c.1 / 8, (c.1 + c.2 - 1) / 8 + 1 - c.1 / 8)

/-- Rows of a mask read: those of the region, and for the reference those of the tile. -/
def strMaskRows (k : StrCmd) (v : Nat) : Nat × Nat := if v = 0 then (k.tile.y0, k.tile.y0 + k.tile.h) else strRows k

/-- One stereo task (R231 to R254). A row of the views and masks is read at a time; an output row is written once the rows its paths and their
census reach below have been. Pixels of the region above the tile count as discarded with its first row, those beside it with their row, those
below with its last. -/
def strTile (t : VTask) : Eng Unit := do
  let c ← t.command 128 0x0401 0x0402
  let k := readStr c
  let full ← Eng.get multiBase
  Eng.need (strCmdOk c && (full || k.views == 2)) 0x0401
  let at_ := fun (off b rot : Nat) => vaddr c off b (leAt c 4 1) (leAt c 5 1) rot
  let view := fun (v : Nat) => at_ (viewOff v) v t.rotIn
  let disp := at_ 80 4 t.rotOut
  let conf := at_ 88 5 t.rotOut
  let mk := at_ 96 6 t.rotIn
  let maskOf := fun (v : Nat) => (⟨mk.space, mk.a + v * k.maskPlane⟩ : VAddr)
  let vs := List.range k.views
  let ins := vs.map (fun v => (view v, k.srcStride * k.h)) ++ (if k.maskEn then vs.map (fun v => (maskOf v, k.maskStride * k.h)) else [])
  let outs := [(disp, k.dispStride * k.h)] ++ (if k.confEn then [(conf, k.confStride * k.h)] else [])
  Eng.need (rangesApart ins outs) 0x0401
  let rows := strRows k
  let lo := rows.1 - 3
  let ys := rangeFrom lo (min k.h (rows.2 + 3) - lo)
  let bpp := visBpp k.fmt
  let mrows := fun (v : Nat) => rangeFrom (strMaskRows k v).1 ((strMaskRows k v).2 - (strMaskRows k v).1)
  let planes ← Eng.get (fun s => vs.map (fun v =>
    monoOf k.w k.h (visSs k.fmt) (peekLines s t.part (view v) k.srcStride bpp (strViewCols k v) ys)))
  let masks ← Eng.get (fun s => (if k.maskEn then vs else []).map (fun v =>
    (peekLines s t.part (maskOf v) k.maskStride 1 (strMaskCols k v) (mrows v)).foldl
      (fun (a : Array (List Byte)) l => a.setIfInBounds l.1 l.2) (Array.replicate k.h [])))
  let i : StrIn := { s := planes.toArray, cen := (planes.map (fun q => Plane.build q.w q.h (censusAt q))).toArray, mask := masks.toArray }
  let cost := Plane.build k.w k.h (costRow k i)
  let cols := strCols k
  let pull := fun (y : Nat) => do
    Eng.each vs (fun v => pullLine t.part (view v) k.srcStride bpp 0x0402 (strViewCols k v) y)
    Eng.each (if k.maskEn then vs else []) (fun v =>
      if (strMaskRows k v).1 ≤ y ∧ y < (strMaskRows k v).2 then pullLine t.part (maskOf v) k.maskStride 1 0x0402 (strMaskCols k v) y else pure ())
  let halo := fun (n : Nat) => Eng.modify (fun s => bump s (pg .str t.inst + 0x814) n)
  let put := fun (y : Nat) => do
    halo ((if y = k.tile.y0 then (y - rows.1) * (cols.2 - cols.1) else 0) + (cols.2 - cols.1 - k.tile.w))
    let agg : Array (Array Nat) := Array.ofFn (n := k.w) (fun x => aggAt k i cost x.val y)
    let px := k.tile.xs.map (fun x => strPixel k i (fun z => agg.getD z #[]) x y)
    writeNoted t.part disp 0x0403 (y * k.dispStride + 2 * k.tile.x0) (px.flatMap (fun p => natLe 2 p.1)) (fun a b =>
      let l := landed 2 a b px
      Eng.modify (fun s => forAll codeCounters (fun e s => bump s (pg .str t.inst + e.1) (l.filter (fun p => p.1 == e.2)).length)
        (bump64 s (pg .str t.inst + 0x804) l.length)))
    if k.confEn then writeLine1 t.part conf 0x0403 (y * k.confStride + k.tile.x0) (px.flatMap (fun p => natLe 1 p.2))
  pipeline (k.tile.ys.map (fun y => (min k.h (y + 259) - lo, put y))) (meetFirst (lbInject .str t.inst 0x0404) (ys.map pull)) 0
  halo ((rows.2 - k.tile.y0 - k.tile.h) * (cols.2 - cols.1))

/-- STR_DISPARITY of an instance. -/
def strAct (s : State) (u : Nat) : State := runVis s .str u (visBit 0x0400) strTile

end Sys2Proof.Machine
end

