-- ==== Sys2Proof/Machine/Flow.lean ====
section
/-! DEFINITION. The flow engines: coarse-to-fine search, checks, codes and scene flow (R257 to R282). -/

namespace Sys2Proof.Machine
open Sys2Proof

/-- The fields of an FLW command that its arithmetic uses (R276). -/
structure FlwCmd where
  fmt : Nat
  levels : Nat
  out : Nat
  w : Nat
  h : Nat
  tile : Tile
  blockR : Nat
  adShift : Nat
  srTop : Nat
  sr : Nat
  fbThr : Nat
  texThr : Nat
  srcStride : Nat
  dispStride : Nat
  flowStride : Nat
  sceneStride : Nat
  deriving DecidableEq, Repr

/-- The command's fields. -/
def readFlw (c : List Byte) : FlwCmd :=
  { fmt := leAt c 2 1, levels := leAt c 3 1, out := leAt c 7 1, w := leAt c 8 2, h := leAt c 10 2
    tile := tileAt c 12 (leAt c 8 2) (leAt c 10 2), blockR := leAt c 20 1, adShift := leAt c 21 1, srTop := leAt c 22 1, sr := leAt c 23 1
    fbThr := leAt c 24 1, texThr := leAt c 26 2, srcStride := leAt c 28 4, dispStride := leAt c 80 4, flowStride := leAt c 84 4
    sceneStride := leAt c 104 4 }

def FlwCmd.flow (k : FlwCmd) : Bool := bitOf k.out 0
def FlwCmd.scene (k : FlwCmd) : Bool := bitOf k.out 1
def FlwCmd.fbEn (k : FlwCmd) : Bool := bitOf k.out 2

/-- Dimensions of the levels, level 0 first. -/
def FlwCmd.dims (k : FlwCmd) : List (Nat × Nat) := pyrDims (k.levels - 1) k.w k.h

/-- Offsets of the eight addresses, in the bit order of R276. -/
def flwAddrs : List Nat := [32, 40, 48, 56, 64, 72, 88, 96]

/-- Ranges, stated zeros, alignments and strides of R258 and R276. -/
def flwCmdOk (c : List Byte) : Bool :=
  let k := readFlw c
  let bpp := visBpp k.fmt
  let top := k.dims.getLastD (0, 0)
  let zeroIf := fun (b : Bool) (o n : Nat) => !b || zeros c o (o + n)
  leAt c 0 2 == 1 && decide (k.fmt ≤ 1) && decide (1 ≤ k.levels) && decide (k.levels ≤ 7) && decide (8 ≤ top.1) && decide (8 ≤ top.2) &&
  (List.range 8).all (fun b => !bitOf (leAt c 5 1) b || bitOf (leAt c 4 1) b) && decide (k.out < 8) && (k.flow || k.scene) &&
  decide (16 ≤ k.w) && decide (k.w ≤ 8192) && decide (16 ≤ k.h) && decide (k.h ≤ 8192) && k.tile.ok k.w k.h &&
  decide (1 ≤ k.blockR) && decide (k.blockR ≤ 4) && decide (k.adShift ≤ 15) && decide (1 ≤ k.srTop) && decide (k.srTop ≤ 8) &&
  decide (1 ≤ k.sr) && decide (k.sr ≤ 4) && decide (k.fbThr ≤ 2) && zeros c 25 26 && decide (k.w * bpp ≤ k.srcStride) &&
  ([32, 40, 48, 56] : List Nat).all (fun o => leAt c o 8 % bpp == 0) && zeroIf (k.levels == 1) 40 8 && zeroIf (k.levels == 1) 56 8 &&
  ([64, 72, 88, 96] : List Nat).all (fun o => leAt c o 8 % 64 == 0) && leAt c 112 8 % 8 == 0 &&
  (if k.scene then k.dispStride % 64 == 0 && decide (2 * k.w ≤ k.dispStride) && k.sceneStride % 64 == 0 && decide (12 * k.w ≤ k.sceneStride)
    else zeros c 64 84 && zeros c 96 108 && zeros c 112 120) &&
  (if k.flow then k.flowStride % 64 == 0 && decide (4 * k.w ≤ k.flowStride) else zeros c 84 96) &&
  zeros c 108 112 && zeros c 120 128

/-- Was every PREVIOUS edge of the task's node satisfied by the ending of tasks of hamper s - 1, and is there one (R260): the sequencer says with
the task whether that hamper ran. -/
def prevOk (t : VTask) : Bool := t.prev && (edgesOf t.graph.img t.node).any (fun e => e.kind == 2)

/-! ## Search -/

/-- The two frames at every level. -/
structure FlwIn where
  a : Array (Plane Nat)
  b : Array (Plane Nat)

def FlwIn.cur (i : FlwIn) (q : Nat) : Plane Nat := i.a.getD q ⟨0, 0, #[]⟩
def FlwIn.prev (i : FlwIn) (q : Nat) : Plane Nat := i.b.getD q ⟨0, 0, #[]⟩

/-- The sample of frame s - 1 at a position in 1/16 px (R262). -/
def subSample (p : Plane Nat) (x y : Int) : Nat :=
  let ix := x / 16
  let iy := y / 16
  let kx := (x % 16).toNat
  let ky := (y % 16).toNat
  ((16 - kx) * (16 - ky) * p.clamped ix iy + kx * (16 - ky) * p.clamped (ix + 1) iy + (16 - kx) * ky * p.clamped ix (iy + 1) +
    kx * ky * p.clamped (ix + 1) (iy + 1) + 128) >>> 8

/-- The offsets of a block (R263). -/
def blockOffs (r : Nat) : List (Int × Int) := (span r).flatMap (fun (j : Int) => (span r).map (fun (i : Int) => (i, j)))

/-- The cost of a candidate at a place of level q (R263). -/
def flwCost (k : FlwCmd) (i : FlwIn) (q : Nat) (x y : Int) (f : Int × Int) : Nat :=
  sumN ((blockOffs k.blockR).map (fun o =>
    absDiff ((i.cur q).refl (x + o.1) (y + o.2) >>> k.adShift)
      (subSample (i.prev q) (16 * (x + o.1) - f.1) (16 * (y + o.2) - f.2) >>> k.adShift)))

/-- The order of candidates: cost, distance from the centre, dy, dx (R266). -/
def candLt (a b : Nat × Int × Int) : Bool :=
  let d := fun (c : Nat × Int × Int) => c.2.1.natAbs + c.2.2.natAbs
  decide (a.1 < b.1) || (a.1 == b.1 && (decide (d a < d b) || (d a == d b &&
    (decide (a.2.2 < b.2.2) || (a.2.2 == b.2.2 && decide (a.2.1 < b.2.1))))))

/-- The best displacement of at most r in each axis (R264 to R266). -/
def searchBest (cost : Int × Int → Nat) (r : Nat) : Int × Int :=
  ((blockOffs r).foldl (fun (best : Option (Nat × Int × Int)) d =>
    let c := (cost d, d.1, d.2)
    match best with
    | none => some c
    | some e => if candLt c e then some c else some e) none).elim (0, 0) (fun b => b.2)

/-- The integer winner of level q at a place; n counts the levels above it (R264). -/
def levelWin (k : FlwCmd) (i : FlwIn) : Nat → Nat → Nat → Nat → Int × Int
  | 0, q, x, y =>
    let d := searchBest (fun d => flwCost k i q x y (16 * d.1, 16 * d.2)) k.srTop
    (16 * d.1, 16 * d.2)
  | n + 1, q, x, y =>
    let up := i.cur (q + 1)
    let w := levelWin k i n (q + 1) (min (x / 2) (up.w - 1)) (min (y / 2) (up.h - 1))
    let c : Int × Int := ((2 * w.1 + 8) / 16, (2 * w.2 + 8) / 16)
    let d := searchBest (fun d => flwCost k i q x y (16 * (c.1 + d.1), 16 * (c.2 + d.2))) k.sr
    (16 * (c.1 + d.1), 16 * (c.2 + d.2))

/-- The refined flow at a place (R265). -/
def finalFlow (k : FlwCmd) (i : FlwIn) (x y : Nat) : Int × Int :=
  let fi := levelWin k i (k.levels - 1) 0 x y
  let e1 := searchBest (fun e => flwCost k i 0 x y (fi.1 + 4 * e.1, fi.2 + 4 * e.2)) 1
  let fq := (fi.1 + 4 * e1.1, fi.2 + 4 * e1.2)
  let e2 := searchBest (fun e => flwCost k i 0 x y (fq.1 + e.1, fq.2 + e.2)) 1
  (fq.1 + e2.1, fq.2 + e2.2)

/-- The forward-backward check (R268). -/
def fbPasses (k : FlwCmd) (i : FlwIn) (x y : Nat) (f : Int × Int) : Bool :=
  let qx : Int := (16 * (x : Int) - f.1 + 8) / 16
  let qy : Int := (16 * (y : Int) - f.2 + 8) / 16
  let rx := (f.1 + 8) / 16
  let ry := (f.2 + 8) / 16
  let cost := fun (d : Int × Int) => sumN ((blockOffs k.blockR).map (fun o =>
    absDiff ((i.prev 0).refl (qx + o.1) (qy + o.2) >>> k.adShift)
      ((i.cur 0).refl (qx + rx + d.1 + o.1) (qy + ry + d.2 + o.2) >>> k.adShift)))
  let d := searchBest cost 2
  decide ((qx + rx + d.1 - x).natAbs ≤ k.fbThr) && decide ((qy + ry + d.2 - y).natAbs ≤ k.fbThr)

/-- A flow pixel: a vector, or a code (R261, R267). -/
inductive FlowPx
  | code (c : Nat)
  | vec (x y : Int)
  deriving DecidableEq, Repr, Inhabited

/-- The flow of a pixel (R267). -/
def flowPx (k : FlwCmd) (i : FlwIn) (x y : Nat) : FlowPx :=
  let l := (blockOffs k.blockR).map (fun o => (i.cur 0).refl (x + o.1) (y + o.2))
  if l.foldl max 0 - l.foldl min 65535 < k.texThr then .code 0x8001
  else
    let f := finalFlow k i x y
    let px := 16 * (x : Int) - f.1
    let py := 16 * (y : Int) - f.2
    if px < 0 ∨ 16 * ((k.w : Int) - 1) < px ∨ py < 0 ∨ 16 * ((k.h : Int) - 1) < py then .code 0x8000
    else if k.fbEn && !fbPasses k i x y f then .code 0x8002
    else .vec f.1 f.2

/-- A flow pixel's bytes (R261). -/
def flowBytes : FlowPx → List Byte
  | .code c => natLe 4 c
  | .vec x y => natLe 2 (trunc x 16) ++ natLe 2 (trunc y 16)

/-! ## Scene flow -/

/-- The calibration block (R270). -/
structure Calib where
  fx : Int
  fy : Int
  cx : Int
  cy : Int
  fxb : Int
  r : List Int
  minDisp : Nat
  t : List Int
  deriving DecidableEq, Repr

/-- Its fields. -/
def readCalib (b : List Byte) : Calib :=
  ⟨leAt b 0 4, leAt b 4 4, sext (leAt b 8 4) 32, sext (leAt b 12 4) 32, leAt b 16 4, (fieldsAt b 20 2 9).map (fun v => sext v 16), leAt b 38 2,
   (fieldsAt b 40 4 3).map (fun v => sext v 32)⟩

/-- Ranges, stated zeros and the CRC of the block (R270): s15.8 values are sign-extended from bit 23. -/
def calibOk (b : List Byte) : Bool :=
  let k := readCalib b
  k.fx != 0 && k.fy != 0 && k.fxb != 0 && decide (1 ≤ k.minDisp) && decide (k.minDisp ≤ 0x3FFF) &&
  k.t.all (fun v => decide (-8388608 ≤ v) && decide (v ≤ 8388607)) && zeros b 52 60 && leAt b 60 4 == crc32 (b.take 60)

/-- The value a 64-bit signed register would hold. -/
def wrap64 (v : Int) : Int := sext (trunc v 64) 64

/-- Rounded division (R271). -/
def rnd64 (n m : Int) : Int := wrap64 (2 * n + m) / (2 * m)

/-- A point from a position in 1/256 px and a disparity (R271). -/
def scenePoint (k : Calib) (u v : Int) (dsp : Nat) : List Int :=
  let z := rnd64 (16 * k.fxb) dsp
  [rnd64 (wrap64 ((u - k.cx) * z)) k.fx, rnd64 (wrap64 ((v - k.cy) * z)) k.fy, z]

/-- The motion of a point (R272). -/
def sceneDiff (k : Calib) (p p' : List Int) : List Int :=
  (List.range 3).map (fun i =>
    wrap64 (nth 0 p i - (wrap64 (sumI ((List.range 3).map (fun j => nth 0 k.r (3 * i + j) * nth 0 p' j)) + 8192) / 16384 + nth 0 k.t i)))

/-- Nearest pixel of frame s - 1 to a pixel moved by its flow (R271). -/
def prevPixel (x y : Nat) (fx fy : Int) : Nat × Nat := (((16 * (x : Int) - fx + 8) / 16).toNat, ((16 * (y : Int) - fy + 8) / 16).toNat)

/-- Is a disparity unusable: a reserved code of R242, or below the least usable one. -/
def dispBad (k : Calib) (d : Nat) : Bool := decide (0xFFF0 ≤ d) || decide (d < k.minDisp)

/-- A scene-flow pixel: a reason, or the motion (R273, R274); `cur` and `prev` read disparities. -/
def scenePx (k : Calib) (ok : Bool) (f : FlowPx) (x y : Nat) (cur prev : Nat → Nat → Nat) : Nat × List Byte :=
  let code := fun (r : Nat) => (r, natLe 4 (0x8000_0000 + r) ++ natLe 8 0)
  if !ok then code 1
  else match f with
    | .code _ => code 2
    | .vec fx fy =>
      let q := prevPixel x y fx fy
      if dispBad k (cur x y) then code 3
      else if dispBad k (prev q.1 q.2) then code 4
      else
        let sf := sceneDiff k (scenePoint k (256 * x) (256 * y) (cur x y))
          (scenePoint k (16 * (16 * (x : Int) - fx)) (16 * (16 * (y : Int) - fy)) (prev q.1 q.2))
        if sf.any (fun v => decide (v < -8388608) || decide (8388607 < v)) then code 5
        else (0, sf.flatMap (fun v => natLe 4 (trunc v 32)))

/-! ## The task -/

/-- The offset an address of the command gets (R258). -/
def flwOff (t : VTask) (c : List Byte) (b : Nat) (q : Word) : Nat :=
  if bitOf (leAt c 5 1) b then (q.toNat + t.ent.rotate - 1) % t.ent.rotate * t.ent.stride else bufOffset t.ent q

/-- Columns or rows beyond a pixel of level q that its search can reach: the farthest displacement of the level's winner, the block, the two
refinements and the check (R263 to R269); `n` counts the levels above q. -/
def flwReach (k : FlwCmd) : Nat → Nat
  | 0 => k.srTop + k.blockR + 8
  | n + 1 => 2 * flwReach k n + k.sr + 1

/-- Columns or rows read beyond the pixels of level q that a tile computes: of frame s the block, and at level 0 what the check adds; of frame
s - 1 (`old`) what the search can reach (R263 to R269). -/
def flwEdge (k : FlwCmd) (old : Bool) (q : Nat) : Nat :=
  if old then flwReach k (k.levels - 1 - q) else k.blockR + (if q = 0 ∧ k.fbEn then 3 else 0)

/-- Columns, and rows, of level q of a frame that a tile reads (R269). -/
def flwCols (k : FlwCmd) (old : Bool) (q w : Nat) : Cols :=
  let e : Int := flwEdge k old q
  colsOf w (((k.tile.x0 >>> q : Nat) : Int) - e) ((((k.tile.x0 + k.tile.w - 1) >>> q : Nat) : Int) + e)
def flwRows (k : FlwCmd) (old : Bool) (q h : Nat) : List Nat :=
  let e : Int := flwEdge k old q
  let c := colsOf h (((k.tile.y0 >>> q : Nat) : Int) - e) ((((k.tile.y0 + k.tile.h - 1) >>> q : Nat) : Int) + e)
  rangeFrom c.1 c.2

/-- Where a level of a frame lies: dimensions, place and stride; level 0, then the pyramid (R216, R276). -/
def flwPlaces (k : FlwCmd) (l0 pyr : VAddr) : List ((Nat × Nat) × VAddr × Nat) :=
  let dims := k.dims.drop 1
  ((k.w, k.h), l0, k.srcStride) :: (dims.zip (pyrLayout (visBpp k.fmt) dims 0).1).map (fun d => (d.1, ⟨pyr.space, pyr.a + d.2.2⟩, d.2.1))

/-- The samples of every level of a frame that the tile reads (R262). -/
def peekLevels (s : State) (p : Nat) (k : FlwCmd) (old : Bool) (l0 pyr : VAddr) : Array (Plane Nat) :=
  ((flwPlaces k l0 pyr).zipIdx.map (fun d =>
    let w := d.1.1.1
    let h := d.1.1.2
    monoOf w h (visSs k.fmt) (peekLines s p d.1.2.1 d.1.2.2 (visBpp k.fmt) (flwCols k old d.2 w) (flwRows k old d.2 h)))).toArray

/-- The accesses that read the levels above level 0 of a frame. -/
def pullLevels (t : VTask) (k : FlwCmd) (old : Bool) (l0 pyr : VAddr) : List (Eng Unit) :=
  ((flwPlaces k l0 pyr).zipIdx.drop 1).flatMap (fun d => (flwRows k old d.2 d.1.1.2).map
    (pullLine t.part d.1.2.1 d.1.2.2 (visBpp k.fmt) 0x0502 (flwCols k old d.2 d.1.1.1)))

/-- Disparities of a row of places, each read once: the places, ascending, in runs of one line. -/
def pullDisp (t : VTask) (k : FlwCmd) (v : VAddr) (l : List (Nat × Nat)) : Eng Unit :=
  Eng.each (List.range k.h) (fun y => match boundsN ((l.filter (fun e => e.2 == y)).map (·.1)) with
    | none => pure ()
    | some (a, b) => pullLine t.part v k.dispStride 2 0x0502 (a, b + 1 - a) y)

/-- A disparity as it stands in memory (R271). -/
def peekDisp (s : State) (p : Nat) (k : FlwCmd) (v : VAddr) (x y : Nat) : Nat := leNat (peek s p ⟨v.space, v.a + y * k.dispStride + 2 * x⟩ 2)

/-- One flow task (R257 to R280). The levels above level 0 are read first; then a line of level 0 of both frames at a time, and an output row is
written once the rows its search can reach have been read, with the disparities its pixels use. -/
def flwTile (t : VTask) : Eng Unit := do
  let c ← t.command 128 0x0501 0x0502
  let k := readFlw c
  Eng.need (flwCmdOk c) 0x0501
  let place := fun (b : Nat) =>
    vaddr c (nth 0 flwAddrs b) b (leAt c 4 1) (leAt c 6 1) (flwOff t c b (if b < 6 then t.inSeq else t.seq))
  let pyrEnd := (pyrLayout (visBpp k.fmt) (k.dims.drop 1) 0).2
  let ins := [(place 0, k.srcStride * k.h), (place 1, pyrEnd), (place 2, k.srcStride * k.h), (place 3, pyrEnd)] ++
    (if k.scene then [(place 4, k.dispStride * k.h), (place 5, k.dispStride * k.h), ((⟨0, leAt c 112 8⟩ : VAddr), 64)] else [])
  let outs := (if k.flow then [(place 6, k.flowStride * k.h)] else []) ++ (if k.scene then [(place 7, k.sceneStride * k.h)] else [])
  Eng.need (rangesApart ins outs) 0x0501
  let cal ← if k.scene then Eng.as 0x0502 (engRead t.part (leAt c 112 8) 64) else pure []
  Eng.need (!k.scene || calibOk cal) 0x0505
  let ok := prevOk t
  let p := pg .flw t.inst
  if !ok then Eng.modify (fun s => bump s (p + 0x818) 1)
  let i ← Eng.get (fun s => if ok then (⟨peekLevels s t.part k false (place 0) (place 1), peekLevels s t.part k true (place 2) (place 3)⟩ : FlwIn) else ⟨#[], #[]⟩)
  let px := Plane.build k.tile.w k.tile.h (fun x y => if ok then flowPx k i (k.tile.x0 + x) (k.tile.y0 + y) else .code 0x8000)
  let disp ← Eng.get (fun s => (peekDisp s t.part k (place 4), peekDisp s t.part k (place 5)))
  let put := fun (y : Nat) => do
    let line := (List.range k.tile.w).map (fun x => px.at_ x y)
    let moved := (List.range k.tile.w).filterMap (fun x => match px.at_ x y with
      | .code _ => none
      | .vec fx fy => some ((k.tile.x0 + x, k.tile.y0 + y), prevPixel (k.tile.x0 + x) (k.tile.y0 + y) fx fy))
    if k.scene && ok then do
      pullDisp t k (place 4) (moved.map (·.1))
      pullDisp t k (place 5) ((moved.filter (fun m => !dispBad (readCalib cal) (disp.1 m.1.1 m.1.2))).map (·.2))
    let sc := if k.scene then (List.range k.tile.w).map (fun x =>
      scenePx (readCalib cal) ok (px.at_ x y) (k.tile.x0 + x) (k.tile.y0 + y) disp.1 disp.2) else []
    let codes := fun (l : List FlowPx) (v : Nat) => (l.filter (fun f => decide (f = .code v))).length
    let count := fun (n : Nat) => Eng.modify (fun s => bump64 s (p + 0x804) n)
    if k.flow then
      writeNoted t.part (place 6) 0x0503 ((k.tile.y0 + y) * k.flowStride + 4 * k.tile.x0) (line.flatMap flowBytes) (fun a b => do
        let l := landed 4 a b line
        Eng.modify (fun s => bump (bump (bump s (p + 0x81C) (codes l 0x8000)) (p + 0x820) (codes l 0x8001)) (p + 0x824) (codes l 0x8002))
        count l.length)
    if k.scene then
      writeNoted t.part (place 7) 0x0503 ((k.tile.y0 + y) * k.sceneStride + 12 * k.tile.x0) (sc.flatMap (·.2)) (fun a b => do
        let l := landed 12 a b sc
        Eng.modify (fun s => bump s (p + 0x828) (l.filter (fun x => x.1 != 0)).length)
        if !k.flow then count l.length)
  let line := fun (y : Nat) => Eng.each [(place 0, false), (place 2, true)] (fun v =>
    if (flwRows k v.2 0 k.h).contains y then pullLine t.part v.1 k.srcStride (visBpp k.fmt) 0x0502 (flwCols k v.2 0 k.w) y else pure ())
  let rows := flwRows k true 0 k.h
  let above := pullLevels t k false (place 0) (place 1) ++ pullLevels t k true (place 2) (place 3)
  let need := fun (y : Nat) => above.length + (rows.filter (fun r => decide (r ≤ k.tile.y0 + y + flwReach k (k.levels - 1)))).length
  pipeline ((List.range k.tile.h).map (fun y => (if ok then need y else 0, put y)))
    (if ok then meetFirst (lbInject .flw t.inst 0x0504) (above ++ rows.map line) else []) 0

/-- BLK_ERR_STAT bit of a status (R282). -/
def flwBit (st : Nat) : Option Nat := if st = 0x0505 then some 13 else visBit 0x0500 st

/-- FLW_FLOW of an instance. -/
def flwAct (s : State) (u : Nat) : State := runVis s .flw u flwBit flwTile

end Sys2Proof.Machine
end

