-- ==== Sys2Proof/Machine/Isp.lean ====
section
/-! DEFINITION. The image pipeline: command, parameters, stages, heads and statistics (R175 to R208). -/

namespace Sys2Proof.Machine
open Sys2Proof

/-- The stream parameter block (R178). -/
structure Spb where
  w : Nat
  h : Nat
  cfa : Nat
  stages : Nat
  hvFmt : Nat
  hcColour : Nat
  curve : Nat
  snrShift : Nat
  snrStr : Nat
  black : List Nat
  gain : List Nat
  dpcThr : Nat
  motShift : Nat
  motThr : Nat
  snrSw : List Nat
  snrRw : List Nat
  alpha : List Nat
  ccm : List Int
  hvY : List Nat
  lscLog : Nat
  lscGx : Nat
  lscGy : Nat
  lscAddr : Nat
  satThr : Nat
  hdStride : Nat
  hcStride : Nat
  hvStride : Nat
  maskStride : Nat
  deriving DecidableEq, Repr

/-- The block's fields (R178). -/
def readSpb (b : List Byte) : Spb :=
  { w := leAt b 0 2, h := leAt b 2 2, cfa := leAt b 4 1, stages := leAt b 5 1, hvFmt := leAt b 6 1, hcColour := leAt b 7 1
    curve := leAt b 8 1, snrShift := leAt b 9 1, snrStr := leAt b 10 2, black := fieldsAt b 12 2 4, gain := fieldsAt b 20 2 4
    dpcThr := leAt b 28 2, motShift := leAt b 30 1, motThr := leAt b 31 1, snrSw := fieldsAt b 32 1 4, snrRw := fieldsAt b 36 1 32
    alpha := fieldsAt b 68 2 16, ccm := (fieldsAt b 100 2 9).map (fun v => sext v 16), hvY := fieldsAt b 118 2 3
    lscLog := leAt b 124 1, lscGx := leAt b 125 1, lscGy := leAt b 126 1, lscAddr := leAt b 128 8, satThr := leAt b 136 2
    hdStride := leAt b 140 4, hcStride := leAt b 144 4, hvStride := leAt b 148 4, maskStride := leAt b 152 4 }

/-- Bytes of an HV pixel by HV_FMT (R195). -/
def hvBytes (f : Nat) : Nat := if f = 1 then 6 else 2

/-- Ranges, stated zeros, alignments and strides of the block, and the shading grid (R178, R179). -/
def spbOk (b : List Byte) : Bool :=
  let p := readSpb b
  p.w % 2 == 0 && p.h % 2 == 0 && decide (p.cfa ≤ 4) && decide (p.stages < 8) && decide (p.hvFmt ≤ 2) && decide (p.hcColour ≤ 1) &&
  decide (p.curve ≤ 15) && decide (p.snrShift ≤ 15) && decide (p.snrStr ≤ 256) && decide (p.motShift ≤ 18) && decide (p.motThr ≤ 16) &&
  nth 0 p.snrSw 0 != 0 && nth 0 p.snrRw 0 != 0 && p.alpha.all (fun a => decide (a ≤ 256)) && p.hvY.all (fun a => decide (a ≤ 4096)) &&
  decide (4 ≤ p.lscLog) && decide (p.lscLog ≤ 8) && zeros b 127 128 && zeros b 138 140 && zeros b 156 256 &&
  p.lscAddr % 64 == 0 && p.hdStride % 64 == 0 && p.hcStride % 64 == 0 && p.hvStride % 64 == 0 && p.maskStride % 8 == 0 &&
  decide (p.w ≤ p.hdStride) && decide (2 * p.w ≤ p.hcStride) && decide (hvBytes p.hvFmt * p.w ≤ p.hvStride) &&
  decide (ceilDiv p.w 16 ≤ p.maskStride) &&
  (!bitOf p.stages 2 || (decide (((p.w - 1) >>> p.lscLog) + 2 ≤ p.lscGx) && decide (((p.h - 1) >>> p.lscLog) + 2 ≤ p.lscGy)))

/-- Ranges, stated zeros and alignments of the command (R176, R179). -/
def ispCmdOk (c : List Byte) : Bool :=
  leAt c 0 2 == 1 && decide (leAt c 2 1 < 64) && decide (leAt c 3 1 < 32) && decide (1 ≤ leAt c 4 2) && decide (leAt c 4 2 ≤ 64) &&
  zeros c 6 8 && leAt c 8 8 % 64 == 0 && leAt c 28 4 % 4096 == 0 && leAt c 32 8 % 4096 == 0 &&
  [40, 48, 56, 64, 72].all (fun o => leAt c o 8 % 64 == 0)

/-- Applied CURVE_SET k of an ISP: VALID and address (R208). -/
def curveSet (s : State) (u k : Nat) : Bool × Nat :=
  let lo := app s (pg .isp u + 0x100 + 8 * k)
  (bitOf lo 0, fld lo 13 19 * 8192 + app s (pg .isp u + 0x104 + 8 * k) % 65536 * 2 ^ 32)

/-- Stride of a reference plane and size of a reference buffer (R187). -/
def refStride (w : Nat) : Nat := roundUp (2 * w) 64
def refSize (w h : Nat) : Nat := 0x1000 + refStride w * h

/-- What a frame's slot header says (R155). -/
structure SlotHdr where
  last : Nat
  seq : Nat
  sid : Nat
  flags : Nat
  stream : Nat
  dt : Nat
  pack : Bool
  w : Nat
  h : Nat
  good : Bool
  deriving DecidableEq, Repr

/-- The slot header's fields. -/
def readSlotHdr (b : List Byte) : SlotHdr :=
  ⟨leAt b 8 8, leAt b 24 4, leAt b 30 2, leAt b 32 2, leAt b 42 2, leAt b 45 1, leAt b 46 1 == 1, leAt b 52 2, leAt b 54 2,
   leAt b 60 4 == crc32 (b.take 60)⟩

/-- Bits per pixel of a RAW type (R180, R183). -/
def rawBits (dt : Nat) : Option Nat := if 0x2A ≤ dt ∧ dt ≤ 0x2E then dtBits dt else none

/-! ## Raw stages -/

/-- The formatter: one line of samples as 16 bits (R183). -/
def fmtLine (dt n : Nat) (pack : Bool) (w : Nat) (b : List Byte) : List Nat :=
  (((if pack then (elemsOf 2 b).map (· % 2 ^ n) else unpackLine dt b).map (· * 2 ^ (16 - n))).take w)

/-- CFA channel of a place (R178). -/
def cfaCh (x y : Nat) : Nat := y % 2 * 2 + x % 2

/-- Colour of a place: 0 red, 1 green, 2 blue; MONO has one colour (R178). -/
def cfaCol (cfa x y : Nat) : Nat :=
  match cfa with
  | 0 => nth 0 [0, 1, 1, 2] (cfaCh x y)
  | 1 => nth 0 [1, 0, 2, 1] (cfaCh x y)
  | 2 => nth 0 [1, 2, 0, 1] (cfaCh x y)
  | 3 => nth 0 [2, 1, 1, 0] (cfaCh x y)
  | _ => 1

/-- Black level (R184). -/
def blackStage (p : Spb) (q : Plane Nat) : Plane Nat :=
  Plane.build q.w q.h (fun x y =>
    let c := cfaCh x y
    min 65535 (((q.at_ x y - nth 0 p.black c) * nth 0 p.gain c + 8192) >>> 14))

/-- Defective-pixel correction of one place (R185). -/
def dpcAt (p : Spb) (q : Plane Nat) (x y : Nat) : Nat :=
  let k : Int := if p.cfa = 4 then 1 else 2
  let ns := ([-1, 0, 1] : List Int).flatMap (fun j => (([-1, 0, 1] : List Int).filter (fun i => i != 0 || j != 0)).map (fun i =>
    q.refl (x + k * i) (y + k * j)))
  let mx := ns.foldl max 0
  let mn := ns.foldl min 65535
  let v := q.at_ x y
  if mx + p.dpcThr < v then mx else if v + p.dpcThr < mn then mn else v

/-- Spatial noise reduction of one place (R186). -/
def snrAt (p : Spb) (q : Plane Nat) (x y : Nat) : Nat :=
  let c := q.at_ x y
  let col := cfaCol p.cfa x y
  let taken := (span 3).flatMap (fun (j : Int) => ((span 3).filter (fun (i : Int) =>
    cfaCol p.cfa (((x : Int) + i) % 2).toNat (((y : Int) + j) % 2).toNat == col)).map (fun (i : Int) =>
      (max i.natAbs j.natAbs, q.refl (x + i) (y + j))))
  let ws := taken.map (fun t => (nth 0 p.snrSw t.1 * nth 0 p.snrRw (min 31 (absDiff t.2 c >>> p.snrShift)), t.2))
  let sw := sumN (ws.map (·.1))
  let swn := sumN (ws.map (fun t => t.1 * t.2))
  let filt : Int := ((2 * swn + sw) / (2 * sw) : Nat)
  ((c : Int) + ((filt - c) * p.snrStr) / 256).toNat

/-- The four places of a quad. -/
def quad (qx qy : Nat) : List (Nat × Nat) := [(2 * qx, 2 * qy), (2 * qx + 1, 2 * qy), (2 * qx, 2 * qy + 1), (2 * qx + 1, 2 * qy + 1)]

/-- The blend index k of a quad (R189). -/
def tnrK (p : Spb) (cur ref : Plane Nat) (qx qy : Nat) : Nat :=
  min 15 (sumN ((quad qx qy).map (fun t => absDiff (cur.at_ t.1 t.2) (ref.at_ t.1 t.2))) >>> p.motShift)

/-- Temporal noise reduction (R189): the plane, and which quads move. -/
def tnrStage (p : Spb) (cur : Plane Nat) (ref : Option (Plane Nat)) (on : Bool) : Plane Nat × Plane Bool :=
  match on, ref with
  | false, _ => (cur, Plane.build (cur.w / 2) (cur.h / 2) (fun _ _ => false))
  | true, none => (cur, Plane.build (cur.w / 2) (cur.h / 2) (fun _ _ => true))
  | true, some r =>
    let ks := Plane.build (cur.w / 2) (cur.h / 2) (tnrK p cur r)
    (Plane.build cur.w cur.h (fun x y =>
      let a := nth 0 p.alpha (ks.at_ (x / 2) (y / 2))
      ((r.at_ x y : Int) + (((cur.at_ x y : Int) - r.at_ x y) * a) / 256).toNat),
     Plane.build (cur.w / 2) (cur.h / 2) (fun x y => decide (p.motThr ≤ ks.at_ x y)))

/-- Lens shading (R192); `t` holds the table's gains. -/
def lscStage (p : Spb) (t : Array Nat) (q : Plane Nat) : Plane Nat :=
  let l := p.lscLog
  let cs := 2 ^ l
  Plane.build q.w q.h (fun x y =>
    let i := x >>> l
    let j := y >>> l
    let fx := x - i * cs
    let fy := y - j * cs
    let g := fun (a b : Nat) => t.getD ((b * p.lscGx + a) * 4 + cfaCh x y) 0
    let v := (g i j * (cs - fx) * (cs - fy) + g (i + 1) j * fx * (cs - fy) + g i (j + 1) * (cs - fx) * fy +
      g (i + 1) (j + 1) * fx * fy + 2 ^ (2 * l - 1)) >>> (2 * l)
    min 65535 ((q.at_ x y * v + 2048) >>> 12))

/-! ## Colour -/

/-- The green estimate of a place (R193). -/
def greenAt (p : Spb) (q : Plane Nat) (x y : Nat) : Nat :=
  if cfaCol p.cfa x y = 1 then q.at_ x y
  else
    let v : Int := q.at_ x y
    let s := fun (i j : Int) => ((q.refl (x + i) (y + j) : Nat) : Int)
    let dh := (s (-1) 0 - s 1 0).natAbs + (2 * v - s (-2) 0 - s 2 0).natAbs
    let dv := (s 0 (-1) - s 0 1).natAbs + (2 * v - s 0 (-2) - s 0 2).natAbs
    let eh := 2 * (s (-1) 0 + s 1 0) + 2 * v - s (-2) 0 - s 2 0
    let ev := 2 * (s 0 (-1) + s 0 1) + 2 * v - s 0 (-2) - s 0 2
    if dh < dv then clamp16 ((eh + 2) / 4) else if dv < dh then clamp16 ((ev + 2) / 4) else clamp16 ((eh + ev + 4) / 8)

/-- Red, green and blue of a place (R193); a MONO sample stands for all three (R194). -/
def rgbAt (p : Spb) (q g : Plane Nat) (x y : Nat) : List Nat :=
  if p.cfa = 4 then List.replicate 3 (q.at_ x y)
  else
    let gv : Int := g.at_ x y
    let d := fun (i j : Int) => ((q.refl (x + i) (y + j) : Nat) : Int) - (g.refl (x + i) (y + j) : Nat)
    let hor := clamp16 (gv + (d (-1) 0 + d 1 0 + 1) / 2)
    let ver := clamp16 (gv + (d 0 (-1) + d 0 1 + 1) / 2)
    let dia := clamp16 (gv + (d (-1) (-1) + d 1 (-1) + d (-1) 1 + d 1 1 + 2) / 4)
    let own := q.at_ x y
    match cfaCol p.cfa x y with
    | 0 => [own, gv.toNat, dia]
    | 2 => [dia, gv.toNat, own]
    | _ => if cfaCol p.cfa (x + 1) y = 0 then [hor, gv.toNat, ver] else [ver, gv.toNat, hor]

/-- The colour matrix (R194). -/
def ccmAt (p : Spb) (v : List Nat) : List Nat :=
  if p.cfa = 4 then v
  else (List.range 3).map (fun r => clamp16 ((sumI ((List.range 3).map (fun c => nth 0 p.ccm (3 * r + c) * (nth 0 v c : Nat))) + 2048) / 4096))

/-- A tone curve (R196). -/
def toneAt (t : Array Nat) (v : Nat) : Nat := (t.getD (v >>> 6) 0 * (64 - v % 64) + t.getD ((v >>> 6) + 1) 0 * (v % 64) + 32) >>> 6

/-- The luma and chroma weights of R197. -/
def yccRows (bt2020 : Bool) : List (List Int) :=
  if bt2020 then [[1076, 2777, 243], [-572, -1476, 2048], [2048, -1883, -165]]
  else [[871, 2929, 296], [-469, -1579, 2048], [2048, -1860, -188]]

/-- Y16, Cb16 and Cr16 of toned values (R197). -/
def yccAt (bt2020 : Bool) (v : List Nat) : List Int :=
  (yccRows bt2020).map (fun r => (sumI ((List.range 3).map (fun c => nth 0 r c * (nth 0 v c : Nat))) + 2048) / 4096)

/-- One plane of Y, Cb, Cr triples. -/
def yccPlane (t : Array Nat) (bt2020 : Bool) (q : Plane (List Nat)) : Plane (List Int) :=
  Plane.build q.w q.h (fun x y => yccAt bt2020 ((q.at_ x y).map (toneAt t)))

/-- A quantised luma value: 8 or 10 bits (R197). -/
def quantY (ten : Bool) (v : Int) : Nat :=
  if ten then (clampI 0 1023 (64 + (v * 876 + 32768) / 65536)).toNat else (clampI 0 255 (16 + (v * 219 + 32768) / 65536)).toNat

/-- A quantised chroma value. -/
def quantC (ten : Bool) (v : Int) : Nat :=
  if ten then (clampI 0 1023 (512 + (v * 896 + 32768) / 65536)).toNat else (clampI 0 255 (128 + (v * 224 + 32768) / 65536)).toNat

/-- A stored value of a head: a byte, or ten bits in the high bits of two (R198). -/
def headBytes (ten : Bool) (v : Nat) : List Byte := if ten then natLe 2 (v * 64) else natLe 1 v

/-- A line of luma. -/
def lumaLine (ten : Bool) (q : Plane (List Int)) (y : Nat) : List Byte :=
  (List.range q.w).flatMap (fun x => headBytes ten (quantY ten (nth 0 (q.at_ x y) 0)))

/-- A line of interleaved chroma, for quad row qy (R197, R198). -/
def chromaLine (ten : Bool) (q : Plane (List Int)) (qy : Nat) : List Byte :=
  (List.range (q.w / 2)).flatMap (fun qx => ([1, 2] : List Nat).flatMap (fun c =>
    headBytes ten (quantC ten ((sumI ((quad qx qy).map (fun t => nth 0 (q.at_ t.1 t.2) c)) + 2) / 4))))

/-- A line of HV (R195): `rgb` after the colour matrix, `raw` after lens shading. -/
def hvLine (p : Spb) (rgb : Plane (List Nat)) (raw : Plane Nat) (y : Nat) : List Byte :=
  (List.range raw.w).flatMap (fun x =>
    match p.hvFmt with
    | 0 => natLe 2 (if p.cfa = 4 then raw.at_ x y
        else clamp16 (((sumN ((List.range 3).map (fun c => nth 0 p.hvY c * nth 0 (rgb.at_ x y) c)) + 2048) / 4096 : Nat) : Int))
    | 1 => (rgb.at_ x y).flatMap (natLe 2)
    | _ => natLe 2 (raw.at_ x y >>> 4))

/-! ## Statistics -/

/-- A quad's values (R201): red, the two greens, blue, l, gq, and whether it is saturated. -/
structure SkimQuad where
  r : Nat
  gr : Nat
  gb : Nat
  b : Nat
  l : Nat
  gq : Nat
  sat : Bool
  counted : Bool
  region : Nat
  deriving DecidableEq, Repr, Inhabited

/-- The quad at a place; `lsm` is the line-status map, two bits a line (R141, R201). -/
def skimQuad (p : Spb) (q : Plane Nat) (lsm : Nat) (qx qy : Nat) : SkimQuad :=
  let at4 := (quad qx qy).map (fun t => (cfaCol p.cfa t.1 t.2, q.at_ t.1 t.2, t))
  let pick := fun (c : Nat) => ((at4.filter (fun t => t.1 == c)).map (fun t => t.2.1)).headD 0
  let rrow := ((at4.filter (fun t => t.1 == 0)).map (fun t => t.2.2.2)).headD 0
  let gs := at4.filter (fun t => t.1 == 1)
  let gr := ((gs.filter (fun t => t.2.2.2 == rrow)).map (fun t => t.2.1)).headD 0
  let gb := ((gs.filter (fun t => t.2.2.2 != rrow)).map (fun t => t.2.1)).headD 0
  let l4 := (sumN (at4.map (fun t => t.2.1)) + 2) >>> 2
  let mono := p.cfa == 4
  let r := if mono then l4 else pick 0
  let gr := if mono then l4 else gr
  let gb := if mono then l4 else gb
  let b := if mono then l4 else pick 2
  let fill := fun (y : Nat) => fld lsm (2 * y) 2 == 3
  { r := r, gr := gr, gb := gb, b := b, l := (r + gr + gb + b + 2) >>> 2, gq := (gr + gb) >>> 1
    sat := decide (p.satThr ≤ r) || decide (p.satThr ≤ gr) || decide (p.satThr ≤ gb) || decide (p.satThr ≤ b)
    counted := !fill (2 * qy) && !fill (2 * qy + 1)
    region := (2 * qy * 16) / q.h * 16 + (2 * qx * 16) / q.w }

/-- A histogram of 256 bins of values at most 255. -/
def hist256 (l : List Nat) : List Nat :=
  let a : Array Nat := l.foldl (fun a v => a.modify v (· + 1)) (Array.replicate 256 0)
  a.toList

/-- Saturating 32-bit sum. -/
def sat32 (l : List Nat) : Nat := satN 0xFFFF_FFFF (sumN l)

/-- The focus term toward another quad, when it exists and is counted (R202). -/
def focus (q : Plane SkimQuad) (me : SkimQuad) (x y : Nat) : Nat :=
  if x < q.w ∧ y < q.h ∧ (q.at_ x y).counted then absDiff (me.gq >>> 4) ((q.at_ x y).gq >>> 4) else 0

/-- A region record (R202). -/
def regionRec (q : Plane SkimQuad) (mv : Plane Bool) (l : List (Nat × Nat)) : List Byte :=
  let qs := l.map (fun t => q.at_ t.1 t.2)
  let un := qs.filter (fun k => !k.sat)
  natLe 4 qs.length ++ natLe 4 (qs.filter (·.sat)).length ++ natLe 4 (sat32 (un.map (fun k => k.r >>> 4))) ++
  natLe 4 (sat32 (un.map (fun k => (k.gr >>> 4) + (k.gb >>> 4)))) ++ natLe 4 (sat32 (un.map (fun k => k.b >>> 4))) ++
  natLe 4 (sat32 (l.map (fun t => focus q (q.at_ t.1 t.2) (t.1 + 1) t.2))) ++
  natLe 4 (sat32 (l.map (fun t => focus q (q.at_ t.1 t.2) t.1 (t.2 + 1)))) ++
  natLe 4 (l.filter (fun t => mv.at_ t.1 t.2)).length

/-- The places of counted quads. -/
def countedQuads (q : Plane SkimQuad) : List (Nat × Nat) :=
  ((List.range q.h).flatMap (fun y => (List.range q.w).map (fun x => (x, y)))).filter (fun t => (q.at_ t.1 t.2).counted)

/-- The statistics record after its header (R202). -/
def statsBody (q : Plane SkimQuad) (mv : Plane Bool) : List Byte :=
  let cs := countedQuads q
  let hist := fun (f : SkimQuad → Nat) => (hist256 (cs.map (fun t => f (q.at_ t.1 t.2) >>> 8))).flatMap (natLe 4)
  hist (·.l) ++ hist (·.r) ++ hist (·.gq) ++ hist (·.b) ++
  (List.range 256).flatMap (fun k => regionRec q mv (cs.filter (fun t => (q.at_ t.1 t.2).region == k)))

/-- The statistics header (R202). -/
def statsHead (h : SlotHdr) (flags lines dpc : Nat) (q : Plane SkimQuad) (mv : Plane Bool) : List Byte :=
  let cs := countedQuads q
  let n := cs.length
  let m := (cs.filter (fun t => mv.at_ t.1 t.2)).length
  let b := natLe 4 h.seq ++ natLe 2 h.sid ++ natLe 2 h.stream ++ natLe 2 h.flags ++ natLe 2 flags ++
    natLe 2 (if n = 0 then 0 else (m * 65535 + n / 2) / n) ++ natLe 2 lines ++ natLe 4 n ++ natLe 4 dpc ++ natLe 8 h.last ++
    List.replicate 28 0
  b ++ natLe 4 (crc32 b)

/-! ## The task -/

/-- Statuses of R207. -/
def ispBad : Nat := 0x0201
def ispIn : Nat := 0x0202
def ispOver : Nat := 0x0203
def ispRd : Nat := 0x0204
def ispWr : Nat := 0x0205
def ispLb : Nat := 0x0206

/-- BLK_ERR_STAT bit of a status (R208). -/
def ispBit (st : Nat) : Option Nat :=
  match st with
  | 0x0201 => some 13 | 0x0202 => some 12 | 0x0203 => some 14 | 0x0204 => some 8 | 0x0205 => some 9 | 0x0206 => some 11
  | 0x0811 => some 8
  | _ => none

/-- Everything a frame's task reads before it computes (R177 to R180, R188, R192, R199): the parameters, the slot header, the formatted
plane, the reference if usable, the shading table, the two curves, the line-status map, and the accesses to the source lines still to be
made, a raw line and its reference line at a time. -/
structure IspIn where
  c : List Byte
  p : Spb
  slot : Nat
  hdr : SlotHdr
  raw : Plane Nat
  ref : Option (Plane Nat)
  lsc : Array Nat
  hd : Array Nat
  hc : Array Nat
  lsm : Nat
  src : List (Eng Unit)

/-- Address of the reference buffer of a sequence (R177). -/
def refBuf (c : List Byte) (q : Word) : Nat := leAt c 32 8 + q.toNat % 2 * leAt c 28 4

/-- Is the reference of a frame usable (R188). The first frame after START_GRAPH and one whose predecessor did not run are first frames, whatever
header their reference buffer holds. -/
def refUsable (t : VTask) (c : List Byte) (p : Spb) (h : SlotHdr) : Eng Bool := do
  let b ← Eng.as ispRd (engRead t.part (refBuf c (t.inSeq - 1)) 64)
  pure (leAt b 60 4 == crc32 (b.take 60) && t.inSeq != 0 && t.prev && leAt b 0 4 == (t.inSeq - 1).toNat && leAt b 4 2 == h.stream &&
    leAt b 6 2 == p.w && leAt b 8 2 == p.h && leAt b 10 1 == p.cfa)

/-- Read a table of 16-bit values if wanted. -/
def readU16s (t : VTask) (want : Bool) (a n : Nat) : Eng (Array Nat) := do
  if !want then pure #[]
  else do
    let b ← Eng.as ispRd (engRead t.part a (2 * n))
    pure (elemsOf 2 b).toArray

/-- The checks and reads of a frame's task (R176 to R180). -/
def ispRead (t : VTask) : Eng IspIn := do
  let c ← t.command 80 ispBad ispRd
  Eng.need (ispCmdOk c) ispBad
  let sb ← Eng.as ispRd (engRead t.part (leAt c 8 8) 256)
  let p := readSpb sb
  let out := leAt c 2 1
  let set ← Eng.get (fun s => curveSet s t.inst p.curve)
  Eng.need (spbOk sb && (!bitOf out 5 || decide (refSize p.w p.h ≤ leAt c 28 4)) && (!(bitOf out 0 || bitOf out 1) || set.1)) ispBad
  let slot := leAt c 16 8 + t.inSeq.toNat % leAt c 4 2 * leAt c 24 4
  let hb ← Eng.as ispRd (engRead t.part slot 64)
  let h := readSlotHdr hb
  Eng.modify (fun s => setUnit s .isp t.inst { unitAt s .isp t.inst with hdr := some h.stream })
  Eng.need (h.good && h.seq == t.inSeq.toNat && (rawBits h.dt).isSome && h.w == p.w && h.h == p.h) ispIn
  let n := (rawBits h.dt).getD 16
  let hd ← readU16s t (bitOf out 0) set.2 1025
  let hc ← readU16s t (bitOf out 1) (set.2 + 0x1000) 1025
  let lsc ← readU16s t (bitOf p.stages 2) p.lscAddr (p.lscGx * p.lscGy * 4)
  let use ← if bitOf out 5 then refUsable t c p h else pure false
  let stride ← Eng.get (fun s => app s (pg .cams h.stream + 0x114))
  let lsmOff ← Eng.get (fun s => app s (pg .cams h.stream + 0x128))
  let lsm ← if bitOf out 3 then Eng.as ispRd (engRead t.part (slot + lsmOff) (ceilDiv p.h 4)) else pure []
  let raw : VAddr := ⟨0, slot + 0x1000⟩
  let old : VAddr := ⟨0, refBuf c (t.inSeq - 1) + 0x1000⟩
  let len := lineBytes h.dt h.pack p.w
  let pull := fun (y : Nat) => do
    pullLine t.part raw stride 1 ispRd (0, len) y
    if use then pullLine t.part old (refStride p.w) 1 ispRd (0, 2 * p.w) y
  let ls ← Eng.get (fun s => peekLines s t.part raw stride 1 (0, len) (List.range p.h))
  let rl ← Eng.get (fun s => if use then peekLines s t.part old (refStride p.w) 1 (0, 2 * p.w) (List.range p.h) else [])
  let rows : Array (Array Nat) := (ls.map (fun l => (fmtLine h.dt n h.pack p.w l.2).toArray)).toArray
  pure { c := c, p := p, slot := slot, hdr := h, raw := Plane.build p.w p.h (fun x y => (rows.getD y #[]).getD x 0)
         ref := if use then some (monoOf p.w p.h 2 rl) else none, lsc := lsc, hd := hd, hc := hc, lsm := leNat lsm
         src := meetFirst (lbInject .isp t.inst ispLb) ((List.range p.h).map pull) }

/-- Source lines that raster line y of every output needs, counted from the first (R182, R185, R186, R189, R193): each stage that reads a
neighbourhood reaches below, the blend of a quad and its chroma to the quad's lower line, and the last line has no line below it. -/
def ispNeed (p : Spb) (y : Nat) : Nat :=
  let dem := if p.cfa = 4 then 0 else 3
  let dpc := if bitOf p.stages 0 then (if p.cfa = 4 then 1 else 2) else 0
  let snr := if bitOf p.stages 1 then 3 else 0
  min p.h ((y + dem) / 2 * 2 + 2 + dpc + snr)

/-- Lines one task writes for raster line y, plane by plane (R190, R191, R195 to R198); a mask row is written up to its stride, its padding 0. -/
def ispLines (t : VTask) (i : IspIn) (tnr lsc : Plane Nat) (mv : Plane Bool) (rgb : Plane (List Nat)) (hd hc : Plane (List Int))
    (y : Nat) : Eng Unit := do
  let out := leAt i.c 2 1
  let rot := leAt i.c 3 1
  let a := fun (off k : Nat) => vaddr i.c off k rot 0 t.rotOut
  let put := fun (v : VAddr) (off : Nat) (b : List Byte) => writeLine1 t.part v ispWr off b
  let odd := y % 2 == 1
  if bitOf out 0 then do
    put (a 40 0) (y * i.p.hdStride) (lumaLine false hd y)
    if odd then put (a 40 0) ((i.p.h + y / 2) * i.p.hdStride) (chromaLine false hd (y / 2))
  if bitOf out 1 then do
    put (a 48 1) (y * i.p.hcStride) (lumaLine true hc y)
    if odd then put (a 48 1) ((i.p.h + y / 2) * i.p.hcStride) (chromaLine true hc (y / 2))
  if bitOf out 2 then put (a 56 2) (y * i.p.hvStride) (hvLine i.p rgb lsc y)
  if bitOf out 4 && bitOf out 5 && odd then
    put (a 72 4) (y / 2 * i.p.maskStride) (bitBytes i.p.maskStride ((List.range (i.p.w / 2)).map (fun x => mv.at_ x (y / 2))))
  if bitOf out 5 then
    put ⟨0, refBuf i.c t.seq + 0x1000⟩ (y * refStride i.p.w) ((List.range i.p.w).flatMap (fun x => natLe 2 (tnr.at_ x y)))

/-- The header of the reference written (R187). -/
def refHead (t : VTask) (i : IspIn) : List Byte :=
  let b := natLe 4 t.seq.toNat ++ natLe 2 i.hdr.stream ++ natLe 2 i.p.w ++ natLe 2 i.p.h ++ natLe 1 i.p.cfa ++ List.replicate 49 0
  b ++ natLe 4 (crc32 b)

/-- One frame: stages in the order of R181, heads, mask, reference and statistics, headers last (R190, R202). -/
def ispFrame (t : VTask) : Eng Unit := do
  let i ← ispRead t
  let out := leAt i.c 2 1
  let on := bitOf out 5
  let bl := blackStage i.p i.raw
  let dpc := if bitOf i.p.stages 0 then Plane.build bl.w bl.h (dpcAt i.p bl) else bl
  let fixed := fun (y : Nat) => if bitOf i.p.stages 0 then ((List.range bl.w).filter (fun x => bl.at_ x y != dpc.at_ x y)).length else 0
  let snr := if bitOf i.p.stages 1 then Plane.build dpc.w dpc.h (snrAt i.p dpc) else dpc
  let (tnr, mv) := tnrStage i.p snr i.ref on
  let lsc := if bitOf i.p.stages 2 then lscStage i.p i.lsc tnr else tnr
  let green := Plane.build lsc.w lsc.h (greenAt i.p lsc)
  let rgb := Plane.build lsc.w lsc.h (fun x y => ccmAt i.p (rgbAt i.p lsc green x y))
  let hd := if bitOf out 0 then yccPlane i.hd false rgb else ⟨0, 0, #[]⟩
  let hc := if bitOf out 1 then yccPlane i.hc (i.p.hcColour == 1) rgb else ⟨0, 0, #[]⟩
  let pgI := pg .isp t.inst
  if on && i.ref.isNone then Eng.modify (fun s => bump s (pgI + 0x804) 1)
  pipeline ((List.range i.p.h).map (fun y => (ispNeed i.p y, do
    Eng.modify (fun s => bump s (pgI + 0x808) (fixed y))
    ispLines t i tnr lsc mv rgb hd hc y))) i.src 0
  let q := Plane.build (i.p.w / 2) (i.p.h / 2) (skimQuad i.p lsc i.lsm)
  let sa := vaddr i.c 64 3 (leAt i.c 3 1) 0 t.rotOut
  let again ← Eng.as ispRd (engRead t.part (i.slot + 24) 4)
  Eng.need (leNat again == i.hdr.seq) ispOver
  if bitOf out 3 then writeLine1 t.part sa ispWr 0x40 (statsBody q mv)
  let room ← Eng.get (fun s => !bitOf out 3 || vaOk s t.part sa.a 64 .w)
  Eng.need room ispWr
  if on then Eng.as ispWr (engWrite t.part (refBuf i.c t.seq) (refHead t i))
  let lines := ((List.range i.p.h).filter (fun y => fld i.lsm (2 * y) 2 != 3)).length
  if bitOf out 3 then
    writeLine1 t.part sa ispWr 0 (statsHead i.hdr (b2n (on && i.ref.isNone) + 2 * b2n (!on)) lines (sumN ((List.range i.p.h).map fixed)) q mv)

/-- ISP_FRAME of an instance (R175 to R204). -/
def ispAct (s : State) (u : Nat) : State := runVis s .isp u ispBit ispFrame

/-- The commit check of an ISP page (R208): every VALID curve set is readable in the owning partition. -/
def ispCheck (s : State) (u : Nat) : Bool :=
  (List.range 16).all (fun k =>
    let lo := regN s (pg .isp u + 0x100 + 8 * k)
    !bitOf lo 0 || vaOk s (owner s .isp u) (fld lo 13 19 * 8192 + regN s (pg .isp u + 0x104 + 8 * k) % 65536 * 2 ^ 32) 8192 .r)

end Sys2Proof.Machine
end

