-- ==== Sys2Proof/Machine/Mover.lean ====
section
/-! DEFINITION. Stream engines, DMA channels and ladles: arming, moving, halting, resuming and cancelling (R423 to R457). -/

namespace Sys2Proof.Machine
open Sys2Proof

/-! ## Movers -/

/-- Key of a mover: streams of the cores' engines, streams of the vision engines, channels. -/
def movKey : Mover → Nat
  | .nc u k => u * 16 + k
  | .vs v k => 128 + v * 32 + k
  | .ch c => 256 + c

/-- The mover of a key. -/
def movOf (k : Nat) : Mover := if k < 128 then .nc (k / 16) (k % 16) else if k < 256 then .vs ((k - 128) / 32) (k % 32) else .ch (k - 256)

/-- Block type, instance and page of a mover. -/
def movBlk : Mover → Blk × Nat
  | .nc u _ => (.ncse, u)
  | .vs v _ => (.vse, v)
  | .ch _ => (.dma, 0)
def movPg (m : Mover) : Nat := pg (movBlk m).1 (movBlk m).2

/-- Does a mover exist: its engine is present and its number in range. -/
def movPresent (s : State) (m : Mover) : Bool :=
  present s (movBlk m).1 (movBlk m).2 && (match m with | .nc _ k => decide (k < 16) | .vs _ k => decide (k < 32) | .ch c => decide (c < 32))

/-- The partition that owns a mover (R26, R444, R456). -/
def movOwner (s : State) (m : Mover) : Option Nat :=
  match m with
  | .nc u _ => some (owner s .ncse u)
  | .vs v _ => some (owner s .vse v)
  | .ch c => let r := regN s (pg .dma 0 + 0x200 + 0x20 * c); if bitOf r 8 then some (r % 4) else none

/-- Spaces an engine may use (R411, R424). -/
def movSpaces (s : State) (m : Mover) : List Nat :=
  let rem := if (presentList s .fabp).isEmpty then [] else [4]
  match m with
  | .nc _ _ => [0, 1, 3] ++ rem
  | .vs _ _ => [0, 2, 3]
  | .ch _ => [0, 2, 3] ++ rem

/-- What a mover's accesses are made as. -/
def movCtx (m : Mover) (c : MovCmd) : MovCtx :=
  { key := movKey m, part := c.part, core := match m with | .nc u _ => some u | _ => none, spBase := c.spBase, spRows := c.spRows
    req := match m with | .nc u _ => .ncse u | .vs v _ => .vse v | .ch k => .dma k
    sign := if c.dual then c.task.map (fun r => (c.core, r)) else none }

/-! ## Descriptor lists -/

/-- The one pair of a DMA_COPY: UINT8 elements in address order (R444). -/
def copyPair (src dst len : Nat) : Desc × Desc :=
  let d := fun (b : Nat) (w : Bool) => ({ base := b, fmt := 1, space := 0, wrap := false, padWrite := w && false, swz := 0, fill := 0, dims := [⟨1, len, 0, 0⟩] } : Desc)
  (d src false, d dst true)

/-- Has a descriptor padding. -/
def Desc.padded (d : Desc) : Bool := d.dims.any (fun x => x.lo != 0 || x.hi != 0)

/-- W of BAYER_SPLIT and BAYER_MERGE: COUNT_0 of the side that is interleaved (R448). -/
def bayerW (mode : Nat) (rd wd : Desc) : Nat := (((if mode = 3 then rd else wd).dims.map (·.count)).head?).getD 0

/-- Bits of an element as a transfer moves it (R405, R408). -/
def elemBits (d : Desc) : Nat := if d.fmt = 2 then 4 else 8 * elemSize d.fmt d.space

/-- Is a reshuffle's requirement met (R448). -/
def reshuffleOk (mode planes : Nat) (rd wd : Desc) : Bool :=
  let n := rd.elems
  let m := wd.elems
  let w := fmtBits rd.fmt
  let v := fmtBits wd.fmt
  let bw := bayerW mode rd wd
  !rd.padded && !wd.padded && decide (n * elemBits rd ≤ 8 * 0x4_0000) &&
  (match mode with
    | 1 | 2 => decide (2 ≤ planes) && decide (planes ≤ 4) && n % planes == 0 && m == n
    | 3 | 4 => bw != 0 && bw % 2 == 0 && n % (2 * bw) == 0 && m == n
    | 5 => !isBk rd.fmt && (w == 8 || w == 16) && wd.fmt == 1 && n % 8 == 0 && m == n * w / 8
    | 6 => !isBk wd.fmt && rd.fmt == 1 && (v == 8 || v == 16) && m * v == n * 8 && m % 8 == 0
    | _ => false)

/-- Is a pair acceptable (R428). -/
def pairOk (stream : Bool) (c : MovCmd) (rd wd : Desc) : Bool :=
  let bk := isBk rd.fmt || isBk wd.fmt
  let widths := if bk then rd.fmt == wd.fmt else fmtBits rd.fmt == fmtBits wd.fmt
  if c.mode != 0 then !stream && !c.conv && (widths || c.mode == 5 || c.mode == 6) && reshuffleOk c.mode c.planes rd wd
  else rd.elems == wd.elems && (if c.conv then !bk else widths)

/-- Arm one entry of a list: the pair, or the cause it is refused with (R420, R428). -/
def armPair (s : State) (m : Mover) (c : MovCmd) (e : List Byte) : Except Nat (Desc × Desc) :=
  let sp := movSpaces s m
  match descFail sp false (if c.rotR then c.bufR else 0) (e.take 64) with
  | some k => .error k
  | none => match descFail sp true (if c.rotW then c.bufW else 0) (e.drop 64) with
    | some k => .error k
    | none =>
      let rd := (readDesc (e.take 64)).rotated c.rotR c.bufR
      let wd := (readDesc (e.drop 64)).rotated c.rotW c.bufW
      if pairOk (match m with | .ch _ => false | _ => true) c rd wd then .ok (rd, wd) else .error 0x12

/-- Read a batch of the list: 8 entries of 128 bytes at most (R427). -/
def listRead (x : MovCtx) (c : MovCmd) (i n : Nat) : Eng (List Byte) :=
  let a := c.list + 128 * i
  if c.listSp then do
    let k ← ownRow x (a / 512)
    let _ ← ownRow x ((a + 128 * n - 1) / 512)
    spWide k a (128 * n)
  else engRead c.part a (128 * n)

/-- Arm entries until one fails. -/
def armAll (s : State) (m : Mover) (c : MovCmd) : Nat → List (List Byte) → List (Desc × Desc) × Option (Nat × Nat × Nat)
  | _, [] => ([], none)
  | i, e :: r => match armPair s m c e with
    | .error k => ([], some (i, k, 0))
    | .ok p => let (l, b) := armAll s m c (i + 1) r; (p :: l, b)

/-- The 64-byte units that a descriptor needs of remote windows, from element k on: what it reads, and the bytes whose other nibble an INT4 write
keeps (R408, R483, R492). -/
def remUnits (wr : Bool) (d : Desc) (k : Nat) : List Nat :=
  if d.space != 4 || (wr && d.fmt != 2) then []
  else dedupN ((rangeFrom k (d.elems - k)).flatMap (fun n =>
    if isPad d n && !(if wr then d.padWrite else d.wrap) then []
    else
      let a := remAddr d (d.byteAt (elemAddr d n).toNat)
      rangeFrom (a / 64) ((a + elemSize d.fmt 4 - 1) / 64 - a / 64 + 1)))

/-- The units of a pair from element k on; a reshuffle reads its side whole. -/
def pairUnits (c : MovCmd) (p : Desc × Desc) (k : Nat) : List Nat :=
  remUnits false p.1 (if c.mode = 0 then k else 0) ++ remUnits true p.2 k

/-- Ask for the remote data of pairs, of the first from element e on; a refused peer is the fault of the pair (R490). -/
def askRemote (k : Nat) (c : MovCmd) : Nat → Nat → List (Desc × Desc) → State → Option (Nat × Nat × Nat) × State
  | _, _, [], s => (none, s)
  | i, e, p :: r, s =>
    match pairUnits c p e with
    | [] => askRemote k c (i + 1) 0 r s
    | us => match remCheck c.part (if p.1.space = 4 then p.1.base else p.2.base) s with
      | (.error x, t) => (some (i, x, 0), t)
      | (.ok _, t) => askRemote k c (i + 1) 0 r (forAll us (fun u t => remAsk k c.part (u * 64) 1 t) t)

/-- The command in the active slot; of a channel's task, only once the task is in the running slot, where LATEST_INPUT was taken (R110, R122,
R434). -/
def runCmd (s : State) (m : Mover) : Option MovCmd :=
  match (movAt s (movKey m)).active with
  | none => none
  | some c => match m, c.task with
    | .ch ch, some r =>
      let u := unitAt s .dma ch
      if u.run = some r ∧ u.done = none then some { c with bufR := bufOffset (taskEnt (graphAt s r.graph) r.idx) (u.src.getD r.seq) } else none
    | _, _ => some c

/-! ## Moving -/

/-- The bits of an element as a number. -/
def elemNat (b : List Byte) : Nat := leNat b

/-- An element from the read format to the write format (R428, R429). -/
def convElem (c : MovCmd) (rd wd : Desc) (b : List Byte) : List Byte :=
  if c.conv then natLe (elemSize wd.fmt 0) (elemConv wd.fmt (elemVal rd.fmt (elemNat b))) else b

/-- What a run of elements moved: bytes read, written, of the remote class, and in all, and remote writes in order. -/
structure Moved where
  rd : Nat := 0
  wr : Nat := 0
  rem : Nat := 0
  inB : Nat := 0
  outB : Nat := 0
  out : List (Nat × List Byte) := []
  deriving DecidableEq, Repr

/-- Bytes that element n adds to the counts: of two INT4 elements the even one (log entry 132). -/
def countedBytes (d : Desc) (n : Nat) : Nat := if d.fmt = 2 then 1 - n % 2 else elemSize d.fmt d.space

/-- Count bytes by class (R435): SPACE 0 and 2, or 3 and 4; SPACE 1 belongs to none. -/
def Moved.count (a : Moved) (write : Bool) (space n : Nat) : Moved :=
  let b := if write then { a with outB := a.outB + n } else { a with inB := a.inB + n }
  match space with
  | 0 | 2 => if write then { b with wr := b.wr + n } else { b with rd := b.rd + n }
  | 3 | 4 => { b with rem := b.rem + n }
  | _ => b

/-- The next address a mover generates meets an armed injection: UNMAPPED on a stream, an error response on a channel (R455, R456). -/
def injAddr (k : Nat) : Eng Unit := fun s =>
  let (b, n) := movBlk (movOf k)
  if injArmed s b n 2 then (.error (if k < 256 then 0x20 else 0x30), injUsed s b n 2) else (.ok (), s)

/-- The next write meets an armed buffer error: corrected and counted, or final (R442, R445, R455, R456). -/
def injBuf (k : Nat) : Eng Unit := fun s =>
  let (b, n) := movBlk (movOf k)
  let s1 := if injArmed s b n 0 then
      let t := raiseErr (injUsed s b n 0) b n (if k < 256 then 13 else 12) none
      if k < 256 then bump t (pg b n + 0x834) 1 else t
    else s
  if injArmed s1 b n 1 then (.error 0x31, injUsed s1 b n 1) else (.ok (), s1)

/-- Read an element as a mover does, and write one. -/
def movRead (x : MovCtx) (d : Desc) (n : Nat) : Eng (List Byte) := do
  if isPad d n && !d.wrap then readElem x d n
  else do
    injAddr x.key
    readElem x d n
def movWrite (x : MovCtx) (d : Desc) (n : Nat) (b : List Byte) : Eng (Option (Nat × List Byte)) := do
  if isPad d n && !d.padWrite then writeElem x d n b
  else do
    injAddr x.key
    injBuf x.key
    writeElem x d n b

/-- Move elements of a pair one by one from n: how far it came, the cause and side of a failure, what moved (R429, R439). -/
def runElems (x : MovCtx) (c : MovCmd) (rd wd : Desc) : Nat → Nat → Moved → State → Nat × Option (Nat × Bool) × Moved × State
  | 0, n, acc, s => (n, none, acc, s)
  | k + 1, n, acc, s =>
    match movRead x rd n s with
    | (.error e, t) => (n, some (e, false), acc, t)
    | (.ok b, t) =>
      let acc1 := if isPad rd n && !rd.wrap then acc else acc.count false rd.space (countedBytes rd n)
      match movWrite x wd n (convElem c rd wd b) t with
      | (.error e, u) => (n, some (e, true), acc1, u)
      | (.ok o, u) =>
        let acc2 := if isPad wd n && !wd.padWrite then acc1 else acc1.count true wd.space (countedBytes wd n)
        runElems x c rd wd k (n + 1) (match o with | some w => { acc2 with out := acc2.out ++ [w] } | none => acc2) u

/-- Read n elements from the first on. -/
def readAll (x : MovCtx) (rd : Desc) : Nat → Nat → List Nat → State → Except (Nat × Nat) (List Nat) × State
  | 0, _, acc, s => (.ok acc.reverse, s)
  | k + 1, n, acc, s => match movRead x rd n s with
    | (.error e, t) => (.error (n, e), t)
    | (.ok b, t) => readAll x rd k (n + 1) (elemNat b :: acc) t

/-- The output elements of a reshuffle (R448). -/
def reshuffle (mode planes : Nat) (rd wd : Desc) (inp : List Nat) : List Nat :=
  let n := inp.length
  let m := wd.elems
  let w := bayerW mode rd wd
  let q := if planes = 0 then 0 else n / planes
  let split := fun (i : Nat) =>
    let c := i / (n / 4)
    let r := i % (n / 4)
    let j := r / (w / 2)
    (2 * j + c / 2) * w + 2 * (r % (w / 2)) + c % 2
  let vb := fmtBits wd.fmt
  match mode with
  | 1 => (List.range m).map (fun i => nth 0 inp (i % planes * q + i / planes))
  | 2 => (List.range m).map (fun i => nth 0 inp (i % q * planes + i / q))
  | 3 => (List.range m).map (fun i => nth 0 inp (split i))
  | 4 =>
    let inv := (List.range n).foldl (fun (t : Tbl Nat) i => tset (fun _ => 0) t (split i) i) []
    (List.range m).map (fun i => nth 0 inp (tget (fun _ => 0) inv i))
  | 5 => (List.range m).map (fun i =>
      let b := i / (n / 8)
      let k := i % (n / 8)
      (List.range 8).foldl (fun a t => a + fld (nth 0 inp (8 * k + t)) b 1 * 2 ^ t) 0)
  | _ => (List.range m).map (fun i =>
      (List.range vb).foldl (fun a b => a + fld (nth 0 inp (b * (m / 8) + i / 8)) (i % 8) 1 * 2 ^ b) 0)

/-- Bytes of an element as movers hand it over: a BK element is its lane and its data. -/
def handedBytes (d : Desc) : Nat := if isBk d.fmt then 544 else elemSize d.fmt d.space

/-- Write elements from n on. -/
def writeAll (x : MovCtx) (wd : Desc) : Nat → List Nat → Moved → State → Nat × Option (Nat × Bool) × Moved × State
  | n, [], acc, s => (n, none, acc, s)
  | n, v :: r, acc, s => match movWrite x wd n (natLe (handedBytes wd) v) s with
    | (.error e, t) => (n, some (e, true), acc, t)
    | (.ok o, t) =>
      let acc1 := acc.count true wd.space (countedBytes wd n)
      writeAll x wd (n + 1) r (match o with | some w => { acc1 with out := acc1.out ++ [w] } | none => acc1) t

/-- What a turn of a pair came to: the next element, the failure it met (cause, write side, element), what moved, and what the channel's slot
holds of a reshuffle's output. -/
structure Turn where
  n : Nat
  err : Option (Nat × Bool × Nat) := none
  moved : Moved := {}
  buf : Option (List Nat) := none

/-- Move up to `k` elements of a pair from element n. A reshuffle reads its pair whole into the slot, permutes it there, and is written from its
output (R443, R447, R448). -/
def runPair (x : MovCtx) (c : MovCmd) (rd wd : Desc) (buf : Option (List Nat)) (k n : Nat) (s : State) : Turn × State :=
  if c.mode = 0 then
    let (i, e, a, t) := runElems x c rd wd (min k (rd.elems - n)) n {} s
    ({ n := i, err := e.map (fun y => (y.1, y.2, i)), moved := a }, t)
  else
    let write := fun (out : List Nat) (a : Moved) (t : State) =>
      let (i, e, b, u) := writeAll x wd n ((out.drop n).take k) a t
      (({ n := i, err := e.map (fun y => (y.1, y.2, i)), moved := b, buf := some out } : Turn), u)
    match buf with
    | some out => write out {} s
    | none => match readAll x rd rd.elems 0 [] s with
      | (.error (i, e), t) => ({ n := n, err := some (e, false, i), moved := Moved.count {} false rd.space ((i * elemBits rd + 7) / 8) }, t)
      | (.ok inp, t) => write (reshuffle c.mode c.planes rd wd inp) (Moved.count {} false rd.space ((rd.elems * elemBits rd + 7) / 8)) t

/-! ## Transfers that are not ordered -/

/-- A range of bytes of a physical memory: 0 HBM, 1 host memory, 2 a scratchpad's data, 3 its lanes, 4 the tile memory. -/
structure Span where
  mem : Nat
  a : Nat
  n : Nat
  deriving DecidableEq, Repr

/-- The bytes of this device that writing element n touches. -/
def spansOf (s : State) (g : Seg) (n : Nat) : List Span :=
  if isPad g.d n && !g.d.padWrite then []
  else
    let o := g.d.byteAt (elemAddr g.d n).toNat
    let k := elemSize g.d.fmt g.d.space
    let row := fun (c r : Nat) => ⟨2, 512 * rowHome s c r + o % 512, k⟩ :: (if isBk g.d.fmt then [⟨3, 32 * rowHome s c r, 32⟩] else [])
    match g.d.space with
    | 0 => (piecesOf o k).filterMap (fun p => match xlate s g.part p.1 .w with | .ok a => some ⟨min a.target 1, a.off, p.2⟩ | .error _ => none)
    | 1 => (match g.core with | some c => row c (swizzle g.d.swz (o / 512)) | none => [])
    | 2 => [⟨4, app s (vtmPg + 0x100 + 8 * g.part) * 0x1_0000 + o, k⟩]
    | 3 => (match logicalCore s g.part (fld g.d.base 29 3) with
      | some c => row c (swizzle g.d.swz (winBase s c (fld g.d.base 26 3) + o / 512))
      | none => [])
    | _ => []

/-- Bytes common to two ranges. -/
def Span.meet (x y : Span) : Option Span :=
  if x.mem = y.mem ∧ max x.a y.a < min (x.a + x.n) (y.a + y.n) then some ⟨x.mem, max x.a y.a, min (x.a + x.n) (y.a + y.n) - max x.a y.a⟩ else none

/-- Bytes of no defined value: each takes a free one (R415). -/
def scramble (x : Span) (s : State) : State :=
  let b := natLe x.n (freeVal s)
  let t := drawn s
  match x.mem with
  | 0 => { t with hbm := memWrite t.hbm x.a b }
  | 1 => { t with host := memWrite t.host x.a b }
  | 2 => { t with spad := memWrite t.spad x.a b }
  | 3 => { t with lane := memWrite t.lane x.a b }
  | _ => { t with tile := memWrite t.tile x.a b }

/-- A mover has written elements: bytes that a transfer not ordered with it has written too hold no defined value (R415). -/
def noteMoved (k : Nat) (g : Seg) (s : State) : State :=
  match s.flights.find? (fun f => f.live && f.key == k) with
  | none => s
  | some f =>
    let theirs := (s.flights.filter (fun x => f.rivals.contains x.id)).flatMap (fun x => x.segs.flatMap (fun y => (rangeFrom y.lo (y.hi - y.lo)).flatMap (spansOf s y)))
    let s1 := { s with flights := s.flights.map (fun x => if x.id == f.id then { x with segs := x.segs ++ [g] } else x) }
    if theirs.isEmpty then s1
    else forAll (((rangeFrom g.lo (g.hi - g.lo)).flatMap (spansOf s g)).flatMap (fun x => theirs.filterMap x.meet)) scramble s1

/-- A command becomes active on a mover: a transfer that is not ordered with those that run. -/
def openFlight (k : Nat) (s : State) : State :=
  let id := 1 + (s.flights.map (·.id)).foldl max 0
  let run := (s.flights.filter (·.live)).map (·.id)
  { s with flights := s.flights.map (fun f => if f.live then { f with rivals := f.rivals ++ [id] } else f) ++ [⟨id, k, true, run, []⟩] }

/-- The transfer of a mover is over; one that no running transfer ran together with is forgotten. -/
def closeFlight (k : Nat) (s : State) : State :=
  let l := s.flights.map (fun f => if f.live && f.key == k then { f with live := false } else f)
  { s with flights := l.filter (fun f => f.live || l.any (fun g => g.live && g.rivals.contains f.id)) }

/-- Join writes of consecutive addresses. -/
def joinRuns : List (Nat × List Byte) → List (Nat × List Byte)
  | [] => []
  | (a, b) :: r => match joinRuns r with
    | (a', b') :: q => if a + b.length = a' then (a, b ++ b') :: q else (a, b) :: (a', b') :: q
    | [] => [(a, b)]

/-- Count what moved on the mover's page (R455, R456), and send its remote writes. A channel counts every byte (log entry 132). -/
def account (s : State) (m : Mover) (p : Nat) (a : Moved) : State :=
  let g := movPg m
  let s1 := match m with
    | .ch _ => bump64 (bump64 s (g + 0x800) a.inB) (g + 0x808) a.outB
    | _ => bump64 (bump64 (bump64 s (g + 0x800) a.rd) (g + 0x808) a.wr) (g + 0x810) a.rem
  forAll (joinRuns a.out) (fun w t => remWrites (movKey m) p (w.2.length + 1) w.1 w.2 t) s1

/-- Elements that fill a burst on a write side: at least one. -/
def burstElems (bits : Nat) (wd : Desc) : Nat := max 1 (bits / elemBits wd)

/-- Elements of a pair on the side the position counts. -/
def pairLen (c : MovCmd) (rd wd : Desc) : Nat := if c.mode = 0 then rd.elems else wd.elems

/-- Move pairs below number `upTo` of the active command from the mover's position, at most `bits` bits where given. What failed is kept in the
mover, and the failing transfer's retries as long as it is the same one (R429, R445). -/
def runMov (m : Mover) (c : MovCmd) (upTo : Nat) : Nat → Option Nat → State → State
  | 0, _, s => s
  | f + 1, bits, s =>
    let k := movKey m
    let v := movAt s k
    match (v.descs.take upTo)[v.pair]? with
    | none => s
    | some (rd, wd) =>
      let x := movCtx m c
      let cap := match bits with | some b => burstElems b wd | none => pairLen c rd wd
      let (y, t) := runPair x c rd wd v.buf cap v.elem s
      let t1 := account t m c.part y.moved
      let kept := (x.sign.map (·.2.copy)) = some 1 ∧ wd.space ≠ 1
      let t2 := if y.n ≤ v.elem ∨ kept then t1 else noteMoved k ⟨c.part, x.core, wd, v.elem, y.n⟩ t1
      let u := movAt t2 k
      let moved := { u with
        elem := y.n, err := y.err, buf := y.buf, readBytes := u.readBytes + y.moved.inB, wroteBytes := u.wroteBytes + y.moved.outB
        retries := if y.err.isSome && y.n == v.elem then v.retries else 0 }
      if y.err.isSome then setMov t2 k moved
      else
        let whole := decide (pairLen c rd wd ≤ y.n)
        let t3 := setMov t2 k (if whole then { moved with pair := v.pair + 1, elem := 0, buf := none } else moved)
        match bits with
        | some b =>
          let left := b - (y.n - v.elem) * elemBits wd
          if whole && decide (0 < left) then runMov m c upTo f (some left) t3 else t3
        | none => runMov m c upTo f none t3

/-- Move the armed pairs below number `upTo`. -/
def runTo (m : Mover) (c : MovCmd) (upTo : Nat) (s : State) : State := runMov m c upTo ((movAt s (movKey m)).descs.length + 1) none s

/-- Has all the remote data of the armed pairs come. -/
def remReady (s : State) (k : Nat) : Bool := (movAt s k).asks.isEmpty

/-- Is a channel paced by a request line (R446). -/
def pacedCh (s : State) (m : Mover) : Bool := match m with | .ch c => bitOf (app s (pg .dma 0 + 0x204 + 0x20 * c)) 4 | _ => false

/-- Channels that hold a slot of the buffer (R443). -/
def slotHolders (s : State) : List Nat := (List.range 32).filter (fun c => (movAt s (256 + c)).slot)

/-- Free slots go to the channels that wait with a command, the one armed earliest first, ties to the lowest number (R443). -/
def grantSlots (s : State) : State :=
  let at_ := fun (c : Nat) => match (movAt s (256 + c)).active with | some x => x.armedAt | none => 0
  let wait := ((List.range 32).filter (fun c => (movAt s (256 + c)).active.isSome && !(movAt s (256 + c)).slot)).mergeSort (fun a b =>
    decide (at_ a < at_ b) || (decide (at_ a = at_ b) && decide (a ≤ b)))
  forAll (wait.take (16 - (slotHolders s).length)) (fun c t => setMov t (256 + c) { movAt t (256 + c) with slot := true }) s

/-- Does a mover hold what it needs to move: a channel, one of the 16 slots (R443). -/
def hasSlot (s : State) (m : Mover) : Bool := match m with | .ch c => (movAt s (256 + c)).slot | _ => true

/-- The command whose elements may move now: the mover is not halted and has met no failure it has not acted on, its remote data has come, and
a channel holds a slot (R439, R443). -/
def movable (s : State) (m : Mover) : Option MovCmd :=
  let v := movAt s (movKey m)
  if v.halted || v.err.isSome || !remReady s (movKey m) || !hasSlot s m then none else runCmd s m

/-- Move what may move, but for a paced channel, which moves in bursts alone (R446). -/
def advance (s : State) (m : Mover) (upTo : Nat) : State :=
  match movable s m with
  | some c => if pacedCh s m then s else runTo m c upTo s
  | none => s

/-- A batch arrives: the first at once, a later one when the first pair of the one before it starts, so once all before that pair has moved (R420,
R427, R429). -/
def fetchBatch (s0 : State) (m : Mover) : State :=
  let k := movKey m
  let first := ((movAt s0 k).descs.length - 1) / 8 * 8
  let s := if (movAt s0 k).pair < first ∧ (movAt s0 k).bad.isNone then advance s0 m first else s0
  let v := movAt s k
  match runCmd s m with
  | none => s
  | some c =>
    if v.halted || v.err.isSome || v.bad.isSome || c.copy.isSome || decide (c.pairs ≤ v.descs.length) || decide (v.pair < first) then s
    else
      let i := v.descs.length
      let n := min 8 (c.pairs - i)
      match listRead (movCtx m c) c i n s with
      | (.error e, t) => setMov t k { movAt t k with bad := some (i, e, 0xFFFFFFFF) }
      | (.ok b, t) =>
        let (ds, bad) := armAll t m c i (groups 128 8 b)
        let t0 := match m with
          | .ch _ => bump64 t (movPg m + 0x800) (128 * n)
          | _ => if c.listSp then t else bump64 t (movPg m + 0x800) (128 * n)
        let t1 := setMov t0 k { movAt t0 k with descs := v.descs ++ ds, bad := bad, got := i + n }
        let (bad2, t2) := askRemote k c i 0 ds t1
        match bad2 with
        | some x => setMov t2 k { movAt t2 k with bad := some x }
        | none => t2

/-! ## Slots -/

/-- A fresh mover for a command that becomes active. -/
def startCmd (c : Option MovCmd) : Mov :=
  match c with
  | none => {}
  | some c => { active := some c, descs := match c.copy with | some (a, b, n) => [copyPair a b n] | none => [] }

/-- Put a command, or none, into an emptied active slot: its transfer begins, and a channel's slot of the buffer is free for the next in line. -/
def nextCmd (s : State) (m : Mover) (c : Option MovCmd) : State :=
  let k := movKey m
  let s1 := setMov (closeFlight k s) k { startCmd c with cut := (movAt s k).cut }
  grantSlots (if c.isSome then openFlight k s1 else s1)

/-- Would an arm be refused (R432): both slots are taken. -/
def armFull (s : State) (k : Nat) : Bool := (movAt s k).shadow.isSome

/-- Arm a command into the active or shadow slot (R432). -/
def armCmd (s : State) (m : Mover) (c0 : MovCmd) : State :=
  let k := movKey m
  let v := movAt s k
  let c := { c0 with armedAt := s.time.toNat }
  if v.active.isNone then nextCmd s m (some c)
  else
    let s1 := setMov s k { v with shadow := some c }
    match m with
    | .ch _ => s1
    | _ => bump s1 (movPg m + 0x820) 1

/-- The active command has completed: its ticket, its task or its DMA_COPY is done, and the shadow becomes active (R430, R433). -/
def finishCmd (s : State) (m : Mover) (c : MovCmd) : State :=
  let s1 := nextCmd s m (movAt s (movKey m)).shadow
  match m with
  | .ch ch => if c.copy.isSome then pushFinal s1 c.handle stOk (blkCode .dma) else finishRun s1 .dma ch 0
  | _ => match c.task with
    | some r => emit (modCtx s1 c.core r (fun x => { x with sDone := x.sDone ++ [c.ticket] }))
        ⟨s1.time, 6, false, c.core, blkCode .nc, c.flow, c.layer, c.opId, c.phase, r.seq.toNat, c.ticket % 65536, c.stream, c.part, []⟩
    | none => s1

/-- Complete the active command if everything moves (R430); remote writes must be acknowledged first. -/
def completeCmd (s : State) (m : Mover) : State :=
  let k := movKey m
  let v := movAt s k
  match movable s m with
  | none => s
  | some c =>
    if v.bad.isSome || decide (v.descs.length < (if c.copy.isSome then 1 else c.pairs)) || (pacedCh s m && decide (v.pair < v.descs.length)) then s
    else
      let t := runTo m c v.descs.length s
      if (movAt t k).err.isNone && (movAt t k).remW.isEmpty then finishCmd t m c else t

/-! ## Faults -/

/-- Is a cause resumable (R440). -/
def resumable (c : Nat) : Bool := c == 0x20 || c == 0x21

/-- BLK_ERR_STAT bit of a cause on a stream engine's page and on the DMA page (R455, R456). -/
def causeErr (m : Mover) (c : Nat) : Option Nat :=
  let dma := match m with | .ch _ => 1 | _ => 0
  if c = 0x20 ∨ c = 0x21 then some 8
  else if c = 0x10 then (if dma = 1 then none else some 9)
  else if (1 ≤ c ∧ c ≤ 9) ∨ c = 0x11 ∨ c = 0x12 then some (10 - dma)
  else if c = 0x30 then some (11 - dma)
  else if c = 0x31 then some (14 - dma)
  else if c = 0x22 ∨ c = 0x23 ∨ c = 0x24 ∨ c = 0x25 ∨ c = 0x13 then some (12 - dma)
  else none

/-- Status a channel's task or DMA_COPY ends with (R450). -/
def dmaStatus (c : Nat) : Nat :=
  if c = 0x11 ∨ c = 0x13 then 0x0901
  else if (1 ≤ c ∧ c ≤ 9) ∨ c = 0x12 then 0x0902
  else if c = 0x20 ∨ c = 0x21 then 0x0903
  else if c = 0x30 ∨ c = 0x31 then 0x0904
  else 0x0905

/-- Count bytes read and not written (R438, R455, R456). -/
def discardBytes (s : State) (m : Mover) (n : Nat) : State :=
  match m with
  | .ch _ => bump64 s (movPg m + 0x81C) n
  | _ => bump64 s (movPg m + 0x818) n

/-- Remote data that has come and that no element written so far has used, in bytes. -/
def unusedRemote (v : Mov) : Nat :=
  match v.active with
  | none => 0
  | some c => 64 * (dedupN (((v.descs.drop v.pair).zipIdx).flatMap (fun x => pairUnits c x.1 (if x.2 = 0 then v.elem else 0)))).countP
      (fun u => !(tget (fun _ => ([] : List Byte)) v.remR u).isEmpty)

/-- Bytes that a mover has read and not written, the list entries of pairs not yet moved included (R438; log entry 132). -/
def unwritten (v : Mov) : Nat := v.readBytes - v.wroteBytes + unusedRemote v + 128 * (v.got - v.pair)

/-- The prefetched task of a channel whose command is cancelled with the fault of the one before it ends as it enters the running slot, with the
same status (R438, R442; log entry 133). -/
def cutTask (s : State) (ch : Nat) (r : TRef) (st : Nat) : State :=
  if (unitAt s .dma ch).run = some r then finishRun s .dma ch st
  else setMov s (256 + ch) { movAt s (256 + ch) with cut := some (r, st) }

/-- A fault becomes final: the rest of the active command and the shadow are cancelled, and the arming task ends (R438, R442, R445). -/
def finalFault (s : State) (m : Mover) (cause : Nat) : State :=
  let k := movKey m
  let v := movAt s k
  let (b, n) := movBlk m
  let p := ((v.active.map (·.part)).orElse (fun _ => movOwner s m)).getD 0
  let s1 := discardBytes s m (unwritten v)
  let s2 := grantSlots (setMov (closeFlight k s1) k { pair := v.pair, elem := v.elem, halted := v.halted, final := true, cause := v.cause, fltAddr := v.fltAddr, fltInfo := v.fltInfo })
  let s3 := raiseIrq s2 b n 9 (match m with | .ch _ => some p | _ => none)
  let s4 := if cause = 0x30 then (match m with | .ch _ => bump s3 (movPg m + 0x814) 1 | _ => s3) else s3
  forAll ([v.active, v.shadow].filterMap id) (fun c t => match m with
    | .ch ch => (match c.copy, c.task with
      | some _, _ => pushFinal t c.handle (dmaStatus cause) (blkCode .dma)
      | none, some r => cutTask t ch r (dmaStatus cause)
      | none, none => t)
    | _ => match c.task with
      | some r => endsWith t c.core r (if cause = 0x40 then 0x0801 else if cause = 0x41 then 0x0811 else 0x0708)
      | none => t) s4

/-- The cause that the fault registers show: an uncorrectable word answers with an error response (R383, R401, R440). -/
def shownCause (c : Nat) : Nat := if c = 0x40 ∨ c = 0x41 then 0x30 else c

/-- Record a halt at a position (R439): what was read beyond it is cancelled. A list's fault is recorded at its entry, in SPACE 0 or, for
LIST_SP, SPACE 1. -/
def haltAtPos (s : State) (m : Mover) (c : MovCmd) (pair elem cause : Nat) (write : Bool) : State :=
  let k := movKey m
  let v := movAt s k
  let (b, n) := movBlk m
  let side := (v.descs[pair]?).map (fun x => if write then x.2 else x.1)
  let a := match side with
    | some d => if d.space = 3 ∨ d.space = 4 then remAddr d (d.byteAt (elemAddr d elem).toNat) else (elemAddr d elem).toNat
    | none => c.list + 128 * pair
  let sp := match side with | some d => d.space | none => b2n c.listSp
  let lost := v.readBytes - v.wroteBytes + unusedRemote v
  let s1 := setMov (discardBytes s m lost) k { v with
    halted := true, cause := shownCause cause, pair := pair, elem := elem, haltAt := s.time, fltAddr := a, bad := none, err := none, buf := none
    readBytes := v.wroteBytes, asks := [], remR := [], fltInfo := b2n write + 2 * sp + 256 * c.opId }
  let ctx := match m with | .ch _ => some c.part | _ => none
  let s2 := match causeErr m (shownCause cause) with | some e => raiseErr s1 b n e ctx | none => s1
  let s3 := raiseIrq (match m with | .ch _ => s2 | _ => bump s2 (movPg m + 0x828) 1) b n 8 ctx
  let s4 := crumb s3 (ukey b n) 9 c.part (shownCause cause) c.opId (match c.task with | some r => r.seq.toNat | none => 0)
  if resumable cause && !v.final then s4 else finalFault s4 m cause

/-- Retries a channel allows (R445). -/
def retryMax (s : State) (ch : Nat) : Nat := fld (app s (pg .dma 0 + 0x204 + 0x20 * ch)) 0 3

/-- Is a failure one that is retried first (R445). -/
def retried (s : State) (m : Mover) (cause : Nat) : Bool :=
  match m with
  | .ch ch => cause == 0x30 && decide ((movAt s (256 + ch)).retries < retryMax s ch)
  | _ => false

/-- Halt at the element that fails, once every element before it is written and acknowledged (R439); a channel's bus errors are retried first
(R445). -/
def faultHalt (s0 : State) (m : Mover) : State :=
  let k := movKey m
  let s := advance s0 m (movAt s0 k).descs.length
  let v := movAt s k
  match runCmd s m with
  | none => s
  | some c =>
    if v.halted || !v.remW.isEmpty then s
    else match v.err, v.bad with
      | some (e, w, n), _ => if retried s m e then s else haltAtPos s m c v.pair n e w
      | none, some (i, e, o) => if v.pair = v.descs.length then haltAtPos s m c i o e false else s
      | none, none => s

/-- Reissue a transfer that met an error response (R445). -/
def dmaRetryAct (s0 : State) (ch : Nat) : State :=
  let k := 256 + ch
  let s := advance s0 (.ch ch) (movAt s0 k).descs.length
  let v := movAt s k
  match v.err with
  | some (e, _, _) =>
    if v.halted || !retried s (.ch ch) e then s
    else
      let t := bump (setMov s k { v with retries := v.retries + 1, err := none }) (pg .dma 0 + 0x810) 1
      advance t (.ch ch) v.descs.length
  | none => s

/-- Resume a halted stream or channel from its position: the reads of that element and every later one are issued again (R441). -/
def resumeMov (s : State) (m : Mover) : State :=
  let k := movKey m
  let v := movAt s k
  match v.active with
  | none => s
  | some c =>
    if !v.halted || v.final then s
    else
      let e := if v.elem = 0xFFFFFFFF ∨ (c.mode ≠ 0 ∧ v.fltInfo % 2 = 0) then 0 else v.elem
      let s1 := setMov s k { v with halted := false, cause := 0, retries := 0, elem := e }
      let (bad, s2) := askRemote k c v.pair e (v.descs.drop v.pair) s1
      let s3 := match bad with | some x => setMov s2 k { movAt s2 k with bad := some x } | none => s2
      match m with
      | .ch _ => s3
      | _ => bump s3 (movPg m + 0x82C) 1

/-- RESUME_TIMEOUT passes without a resume (R441). -/
def resumeExpire (s : State) (m : Mover) : State :=
  let v := movAt s (movKey m)
  let lim := match m with
    | .ch _ => fld (regN s (pg .dma 0 + 0x100)) 0 20
    | _ => fld (regN s (movPg m + 0x104)) 0 20
  if v.halted && !v.final && lim != 0 && decide (lim * 1000 ≤ (s.time - v.haltAt).toNat) then finalFault s m v.cause else s

/-- Cancel the DMA_COPY in a channel's active slot; the shadow becomes active (R438, R449). -/
def cancelCopy (s : State) (ch : Nat) : State := nextCmd (discardBytes s (.ch ch) (unwritten (movAt s (256 + ch)))) (.ch ch) (movAt s (256 + ch)).shadow

/-- CHc_CTL.STOP (R449). -/
def stopCh (s : State) (ch : Nat) : State :=
  match (movAt s (256 + ch)).active with
  | some c => if c.copy.isNone then s else pushFinal (cancelCopy s ch) c.handle stCancelled (blkCode .dma)
  | none => s

/-- The DMA_COPY commands of a partition are cancelled at its function-level reset, with no record (R88, R438). -/
def flrCopies (s : State) (p : Nat) : State :=
  let mine := fun (c : Option MovCmd) => match c with | some x => x.copy.isSome && x.part == p | none => false
  forAll (List.range 32) (fun ch t =>
    let v := movAt t (256 + ch)
    let t1 := if mine v.shadow then setMov t (256 + ch) { v with shadow := none } else t
    if mine v.active then cancelCopy t1 ch else t1) s

/-! ## Paced channels -/

/-- Level of a request line for a channel (R446). -/
def reqLine (s : State) (ch : Nat) : Bool :=
  let l := fld (app s (pg .dma 0 + 0x204 + 0x20 * ch)) 8 6
  let p := fld (regN s (pg .dma 0 + 0x200 + 0x20 * ch)) 0 2
  if l < 16 then bitOf (regN s (pg .dma 0 + 0x110 + 4 * p)) l
  else if l < 32 then fsyncPresent s (l - 16) && owner s .sctl (fsyncSctl (l - 16)) == p && fsyncHigh s (l - 16)
  else false

/-- One burst of a paced channel, or its wait while the line is low (R446, R447). -/
def burstAct (s : State) (ch : Nat) (held : Bool) : State :=
  let k := 256 + ch
  let v := movAt s k
  match movable s (.ch ch) with
  | none => s
  | some c =>
    if !pacedCh s (.ch ch) || decide (v.descs.length ≤ v.pair) then s
    else if !reqLine s ch then setMov s k { v with reqWait := true }
    else
      let bits := 512 * max 1 (fld (app s (pg .dma 0 + 0x204 + 0x20 * ch)) 16 16)
      let t := runMov (.ch ch) c v.descs.length (v.descs.length + 1) (some bits) s
      if (movAt t k).err.isSome then t
      else
        let t1 := setMov t k { movAt t k with reqWait := false }
        if held then t1 else bump t1 (pg .dma 0 + 0x818) 1

/-! ## Commands -/

/-- A DMA node's command names its channel (R426, R444). -/
def namedCh (b : List Byte) : Nat := leAt b 3 1

/-- A stream command or DMA task's command (R426). -/
def readMove (b : List Byte) (dma : Bool) : Option MovCmd :=
  let fl := leAt b 2 1
  if leAt b 0 2 != 1 || fl / 16 != 0 || !zeros b 5 8 || !zeros b 12 16 || !zeros b 24 32 || leAt b 8 4 == 0 ||
    decide (65535 < leAt b 8 4) || leAt b 16 8 % 64 != 0 || (!dma && (leAt b 3 1 != 0 || leAt b 4 1 / 16 != 0)) ||
    (dma && (bitOf fl 1 || decide (31 < leAt b 3 1))) then none
  else some {
    part := 0, conv := bitOf fl 0, listSp := bitOf fl 1, rotR := bitOf fl 2, rotW := bitOf fl 3, mode := leAt b 4 1 % 16,
    planes := leAt b 4 1 / 16, pairs := leAt b 8 4, list := leAt b 16 8 }

/-- A task that the channel refuses at once; the fault registers show it unless another command holds the channel (R444, R450). -/
def chRefuse (s : State) (ch cause : Nat) : State :=
  let k := 256 + ch
  let s1 := if (movAt s k).active.isNone then setMov s k { movAt s k with final := true, cause := cause } else s
  let s2 := match causeErr (.ch ch) cause with | some e => raiseErr s1 .dma 0 e (movOwner s (.ch ch)) | none => s1
  finishRun s2 .dma ch (dmaStatus cause)

/-- The command of a channel's task as it would be armed, or the cause it is refused with (R426, R444). A command that cannot be read ends the
task with the cause of the read (log entry 133). -/
def chCommand (s : State) (ch : Nat) (r : TRef) : Except Nat MovCmd :=
  let g := graphAt s r.graph
  let e := taskEnt g r.idx
  let n := nodeAt g r.node
  if e.cmdLen != 32 then .error 0x11
  else match vaRead s g.part e.cmdAddr 32 with
    | .error f => .error (failCause f)
    | .ok b => match readMove b true with
      | none => .error 0x11
      | some c =>
        if namedCh b != ch || movOwner s (.ch ch) != some g.part then .error 0x13
        else .ok { c with part := g.part, bufR := bufOffset e (inSeq s r), bufW := bufOffset e r.seq, task := some r, opId := n.opId, flow := n.flow }

/-- Does a channel hold the command of a task in a slot. -/
def chHolds (s : State) (ch : Nat) (r : TRef) : Bool :=
  [(movAt s (256 + ch)).active, (movAt s (256 + ch)).shadow].any (fun c => match c with | some c => c.task == some r | none => false)

/-- The sequencer arms a channel's running task, and then its prefetched task into the shadow slot; the command of a task that has left the channel
is dropped, and a task whose command was cancelled ends (R130, R434, R438). -/
def armUnit (s : State) (ch : Nat) : State :=
  let k := 256 + ch
  let u := unitAt s .dma ch
  let stale := match (movAt s k).shadow with
    | some c => (match c.task with | some r => u.run != some r && u.pre != some r | none => false)
    | none => false
  let s1 := if stale then setMov s k { movAt s k with shadow := none } else s
  match u.run with
  | none => s1
  | some r =>
    let s2 :=
      if u.done.isSome || chHolds s1 ch r then s1
      else match (movAt s1 k).cut with
        | some (q, st) => if q = r then finishRun (setMov s1 k { movAt s1 k with cut := none }) .dma ch st else s1
        | none => s1
    if (unitAt s2 .dma ch).done.isSome then s2
    else
      let s3 := if chHolds s2 ch r || armFull s2 k then s2
        else match chCommand s2 ch r with
          | .error c => chRefuse s2 ch c
          | .ok c => armCmd s2 (.ch ch) c
      match u.pre with
      | some q =>
        if !chHolds s3 ch r || chHolds s3 ch q || armFull s3 k then s3
        else match chCommand s3 ch q with
          | .error _ => s3
          | .ok c => armCmd s3 (.ch ch) c
      | none => s3

/-- Fetch every batch of the active command, until a check fails. -/
def fetchAll (m : Mover) : Nat → State → State
  | 0, s => s
  | n + 1, s => fetchAll m n (fetchBatch s m)

/-- MOVE: the channel's running task is armed if it is not, its list is fetched, and its elements move (R426, R427, R432, R444). -/
def moveAct (s : State) (ch : Nat) : State :=
  let m := Mover.ch ch
  let t := armUnit s ch
  let t1 := fetchAll m (match runCmd t m with | some c => c.pairs / 8 + 1 | none => 0) t
  advance t1 m (movAt t1 (256 + ch)).descs.length

end Sys2Proof.Machine
end

