-- ==== Sys2Proof/Machine/Ncore.lean ====
section
/-! DEFINITION. A neural core: the task command, contexts, accesses of task code, traps, ends, the two queues, rings and parking (R309 to R323, R339 to R345). -/

namespace Sys2Proof.Machine
open Sys2Proof

/-! ## Cores and contexts -/

/-- A neural core. -/
def coreAt (s : State) (u : Nat) : Core := tget (fun _ => {}) s.cores u

/-- Set it. -/
def setCore (s : State) (u : Nat) (c : Core) : State := { s with cores := tset (fun _ => {}) s.cores u c }

/-- The context that runs on a core; a core without one shows an empty context. -/
def cx (s : State) (u : Nat) : Ctx := (coreAt s u).ctx.getD {}

/-- Change it. -/
def modCx (s : State) (u : Nat) (f : Ctx → Ctx) : State :=
  let c := coreAt s u
  setCore s u { c with ctx := c.ctx.map f }

/-- Page of a core's control registers. -/
def ncPg (u : Nat) : Nat := pg .nc u

/-- SYS_REX_STAT.REX_ACTIVE: the four conditions of chapter 02 hold in the applied SYS_REX_CFG. -/
def rexActive (s : State) : Bool :=
  let c := app s 0x180
  bitOf c 0 && bitOf c 2 && bitOf c 3 && bitOf c 8

/-- The park area of a core as applied, if there is one (R339). -/
def parkArea (s : State) (u : Nat) : Option (Nat × Nat) :=
  let c := app s (ncPg u + 0x100)
  if bitOf c 31 then some (fld c 0 17, 2048) else none

/-- First row of a park slot's area (R339). -/
def parkRow (s : State) (u slot : Nat) : Nat := fld (app s (ncPg u + 0x100)) 0 17 + 1024 * slot

/-- The greatest t such that 1 to t are all in a list; fuel bounds it (R310). -/
def doneFrom (l : List Nat) : Nat → Nat → Nat
  | 0, t => t
  | f + 1, t => if l.contains (t + 1) then doneFrom l f (t + 1) else t

/-- Done counts of a context's queues (R310). -/
def mDoneCount (x : Ctx) : Nat := doneFrom x.mDone x.mDone.length 0
def sDoneCount (x : Ctx) : Nat := doneFrom x.sDone x.sDone.length 0

/-! ## The task command -/

/-- Fields of the task command (R311). -/
structure NcRun where
  ring : Option (Nat × Nat × Nat)
  base : Nat
  rows : Nat
  init : Nat
  entry : Nat
  a0 : Nat
  a1 : Nat
  deriving DecidableEq, Repr

/-- The command, if it keeps R311; SP_INIT lies within the window and the last 24 bytes are 0. -/
def readRun (b : List Byte) : Option NcRun :=
  let fl := leAt b 2 1
  let r := leAt b 3 1
  let base := leAt b 4 4
  let rows := leAt b 8 4
  let init := leAt b 12 4
  if leAt b 0 2 != 1 || decide (1 < fl) || (fl == 0 && r != 0) || (fl == 1 && (fld r 5 3 == 0 || decide (fld r 5 3 < fld r 2 3))) ||
    decide (spRows ≤ base) || rows == 0 || decide (spRows < base + rows) || decide (init < 512 * base) || decide (512 * (base + rows) ≤ init) ||
    leAt b 16 8 % 4 != 0 || !zeros b 40 64 then none
  else some ⟨if fl = 1 then some (fld r 0 2, fld r 2 3, fld r 5 3 + 1) else none, base, rows, init, leAt b 16 8, leAt b 24 8, leAt b 32 8⟩

/-- May the core run the command for a task (R312, R535). -/
def runOk (s : State) (u : Nat) (t : VTask) (k : NcRun) : Bool :=
  (match k.ring with
    | none => true
    | some (_, st, _) => t.node.bind == 1 && t.node.bindIdx == st && !t.node.dual) &&
  (match parkArea s u with
    | none => true
    | some a => !overlap a (k.base, k.rows))

/-- The context a task starts with (R313, R314). -/
def freshCtx (s : State) (t : VTask) (k : NcRun) : Ctx :=
  { task := t.ref, part := t.part, pc := BitVec.ofNat 64 k.entry
    x := tset (fun _ => 0) (tset (fun _ => 0) (tset (fun _ => 0) [] 2 (BitVec.ofNat 64 (2 ^ 63 + k.init))) 10 (BitVec.ofNat 64 k.a0)) 11 (BitVec.ofNat 64 k.a1)
    ids := t.node.opId + t.node.layer * 2 ^ 24 + t.node.phase * 2 ^ 40
    startAt := s.time, bufR := t.rotIn, bufW := t.rotOut, tile := t.ent.tile, flow := t.node.flow, seed := t.graph.seed
    rex := bitOf t.graph.img.flags 0, spBase := k.base, spRows := k.rows, ring := k.ring, dual := t.node.dual }

/-- NC_RUN: the running task's command is read and its context starts, or the task ends with NC_BAD_COMMAND (R311 to R313). -/
def ncRunAct (s : State) (u : Nat) : State :=
  match vtask s .nc u with
  | none => s
  | some t =>
    if (coreAt s u).ctx.isSome then s
    else
      let bad := finishRun (raiseErr s .nc u 9 none) .nc u 0x0701
      if t.ent.cmdLen != 64 then bad
      else match vaRead s t.part t.ent.cmdAddr 64 with
        | .error _ => bad
        | .ok b => match readRun b with
          | none => bad
          | some k =>
            if runOk s u t k then
              setCore s u { coreAt s u with ctx := some (freshCtx s t k), acc := [], tree := false, live := false, cover := [] }
            else setCore bad u { coreAt bad u with badRing := k.ring.map (·.1) }

/-! ## What stops an instruction -/

/-- Why an instruction does not retire: an exception of RISC-V with its tval, a status that ends the task, or a wait. -/
inductive Stop
  | trap (cause : Nat) (tval : Nat)
  | status (st : Nat)
  | stall
  deriving DecidableEq, Repr

/-- What task code does on a core. -/
abbrev Nx := ExceptT Stop (StateM State)

/-- Stop. -/
def Nx.stop {α : Type} (x : Stop) : Nx α := throw x

/-- Read something of the state; change it. -/
def Nx.get {α : Type} (f : State → α) : Nx α := fun s => (.ok (f s), s)
def Nx.modify (f : State → State) : Nx Unit := fun s => (.ok (), f s)

/-- Go on only if a condition holds. -/
def Nx.need (c : Bool) (x : Stop) : Nx Unit := fun s => (if c then .ok () else .error x, s)

/-- An engine's action whose cause of failure stops the instruction. -/
def Nx.lift {α : Type} (m : Eng α) (f : Nat → Stop) : Nx α := fun s =>
  match m s with
  | (.error e, t) => (.error (f e), t)
  | (.ok a, t) => (.ok a, t)

/-- Draw a free value. -/
def Nx.free : Nx Nat := fun s => (.ok (freeVal s), drawn s)

/-- Drop the unstarted commands of a task: all in the stream queue, and all but the started head of the matrix queue (R320). -/
def pruneTask (s : State) (u : Nat) (r : TRef) : State :=
  let c := coreAt s u
  setCore s u { c with mq := c.mq.filter (fun m => m.task != r || m.started), sq := c.sq.filter (fun m => m.task != r) }

/-- The running task will end with a status (R319, R320, R345). -/
def endCtx (s : State) (u st : Nat) : State :=
  pruneTask (endsWith s u (cx s u).task st) u (cx s u).task

/-- The running task ends by an exception (R319). -/
def trapCtx (s : State) (u cause tval : Nat) : State :=
  let a := ncPg u
  let s1 := setRegN (setReg64 (setReg64 s (a + 0x190) (a + 0x194) (cx s u).pc.toNat) (a + 0x198) (a + 0x19C) tval) (a + 0x188) (cause % 64)
  endCtx (raiseErr s1 .nc u 8 none) u 0x0702

/-! ## Registers of the context -/

/-- An integer register; x0 reads 0. -/
def xr (s : State) (u i : Nat) : DWord := if i = 0 then 0 else tget (fun _ => 0) (cx s u).x i

/-- The context with an integer register written; x0 discards it. -/
def setX (i : Nat) (v : DWord) (x : Ctx) : Ctx := if i = 0 then x else { x with x := tset (fun _ => 0) x.x i v }

/-- Read and write within the monad. -/
def Nx.x (u i : Nat) : Nx DWord := Nx.get (fun s => xr s u i)
def Nx.setX (u i : Nat) (v : DWord) : Nx Unit := Nx.modify (fun s => modCx s u (Machine.setX i v))

/-! ## Memory as task code sees it -/

/-- The three kinds of address of R317. -/
inductive CodeAddr
  | sp (o : Nat)
  | va (a : Nat)
  | bad
  deriving DecidableEq, Repr

/-- The kind of an address (R317). -/
def codeAddr (a : Nat) : CodeAddr :=
  if a / 2 ^ 26 = 0x20_0000_0000 then .sp (a % 2 ^ 26) else if a < 2 ^ 48 then .va a else .bad

/-- May task code touch n bytes at a scratchpad offset: within the window, off the park area (R339, R388). -/
def inWindow (s : State) (u o n : Nat) : Bool :=
  let x := cx s u
  decide (512 * x.spBase ≤ o) && decide (o + n ≤ 512 * (x.spBase + x.spRows)) &&
  (match parkArea s u with
    | none => true
    | some a => !overlap a (o / 512, (o + n - 1) / 512 - o / 512 + 1))

/-- Check it; a refused access is counted and is an access fault (R388, R402). -/
def needWindow (u o n cause tval : Nat) : Nx Unit := fun s =>
  if inWindow s u o n then (.ok (), s) else (.error (.trap cause tval), bump s (spc u + 0x81C) 1)

/-- The exception of a failed device-virtual access: page fault or access fault (R319). -/
def faultOf (page acc tval : Nat) (c : Nat) : Stop := .trap (if c = 0x30 then acc else page) tval

/-- Scratchpad failures of task code end the task (R383). -/
def spStop (_ : Nat) : Stop := .status 0x0801

/-- Read n bytes of narrow-view or device-virtual memory with no alignment rule. -/
def rawLoad (u a n : Nat) : Nx (List Byte) :=
  match codeAddr a with
  | .sp o => do
    needWindow u o n 5 a
    Nx.lift (spRead u o n) spStop
  | .va v => do
    let p ← Nx.get (fun s => (cx s u).part)
    Nx.lift (engRead p v n) (faultOf 13 5 a)
  | .bad => Nx.stop (.trap 5 a)

/-- A scalar load of n bytes (R317, R318). -/
def scalarLoad (u a n : Nat) : Nx Nat := do
  Nx.need (a % n == 0) (.trap 4 a)
  let b ← rawLoad u a n
  pure (leNat b)

/-- A store to device-virtual space: signed for a copy of a SAFETY_DUAL task, performed but for the checker (R536, R537). -/
def vaStore (u v : Nat) (b : List Byte) (a : Nat) : Nx Unit := fun s =>
  let x := cx s u
  match engWriteAll x.part v b s with
  | (.error e, t) => (.error (faultOf 15 7 a e), t)
  | (.ok _, t) =>
    if x.dual then (.ok (), signWrite u x.task v b (if x.task.copy = 1 then s else t)) else (.ok (), t)

/-- A scalar store of n bytes. -/
def scalarStore (u a n v : Nat) : Nx Unit := do
  Nx.need (a % n == 0) (.trap 6 a)
  match codeAddr a with
  | .sp o => do
    needWindow u o n 7 a
    Nx.lift (spWrite u o (natLe n v)) spStop
  | .va w => vaStore u w (natLe n v) a
  | .bad => Nx.stop (.trap 7 a)

/-- The scratchpad offset an atomic names: narrow view only (R318). -/
def amoAddr (u a n mis : Nat) : Nx Nat := do
  Nx.need (a % n == 0) (.trap mis a)
  match codeAddr a with
  | .sp o => do
    needWindow u o n 7 a
    pure o
  | _ => Nx.stop (.trap 7 a)

/-! ## Fetching and running one instruction -/

/-- Fetch the instruction at pc: its bits and its length in bytes (R317). -/
def fetchInsn (u : Nat) : Nx (Nat × Nat) := fun s =>
  let x := cx s u
  let half := fun (a : Nat) (t : State) =>
    if 2 ^ 48 ≤ a then ((Except.error (Stop.trap 1 a) : Except Stop Nat), t)
    else match meetRead t x.part a 2 .x with
      | (.ok b, r) => (.ok (leNat b), r)
      | (.error f, r) => (.error (faultOf 12 1 a (failCause f)), r)
  match half x.pc.toNat s with
  | (.error e, t) => (.error e, t)
  | (.ok lo, t) =>
    if lo % 4 != 3 then (.ok (lo, 2), t)
    else match half ((x.pc + 2).toNat) t with
      | (.error e, r) => (.error e, r)
      | (.ok hi, r) => (.ok (lo + 2 ^ 16 * hi, 4), r)

/-- An armed injection meets the line read: it is refetched (R346). -/
def icacheInject (s : State) (u : Nat) : State :=
  if injArmed s .nc u 0 then raiseErr (bump (injUsed s .nc u 0) (ncPg u + 0x818) 1) .nc u 11 none else s

/-- Which row of the command table an instruction belongs to. -/
inductive Kind
  | scalar
  | vector
  | custom (op : Nat)
  deriving DecidableEq, Repr

/-- The custom instruction of an encoding, in the order of R321. -/
def customOf (w : Nat) : Option Nat :=
  let f7 := fld w 25 7
  match fld w 0 7, fld w 12 3 with
  | 0x0B, 0 => if f7 < 4 then some f7 else none
  | 0x0B, 1 => if f7 = 0 then some 4 else none
  | 0x0B, 2 => if f7 = 0 then some 5 else none
  | 0x0B, 3 => if f7 = 0 then some 6 else none
  | 0x0B, 4 => if f7 = 0 then some 7 else none
  | 0x0B, 5 => if f7 = 0 then some 8 else none
  | 0x2B, 0 => if f7 = 0 then some 9 else none
  | 0x2B, 1 => if f7 = 0 then some 10 else none
  | _, _ => none

/-- The kind of an instruction. -/
def kindOf (w len : Nat) : Kind :=
  if len = 2 then .scalar
  else match customOf w with
    | some k => .custom k
    | none =>
      let op := fld w 0 7
      let wd := fld w 12 3
      if op = 0x57 ∨ ((op = 0x07 ∨ op = 0x27) ∧ (wd = 0 ∨ 5 ≤ wd)) then .vector else .scalar

/-- The instruction after which a context goes on: pc moves and the instruction is counted as retired (R315, R346). -/
def retire (s : State) (u : Nat) (pc : DWord) : State :=
  bump64 (modCx s u (fun x => { x with pc := pc, instret := x.instret + 1 })) (ncPg u + 0x810) 1

/-- Is a task running on a core and free to go on. -/
def ncActive (s : State) (u : Nat) : Bool :=
  match (coreAt s u).ctx, (unitAt s .nc u).run with
  | some x, some r => x.task == r && x.kill.isNone && (unitAt s .nc u).done.isNone
  | _, _ => false

/-- Run the instruction at pc if it is of a kind: its meaning answers the next pc, given bits and length (R313 to R322). -/
def ncInsn (k : Kind) (body : Nat → Nat → Nx DWord) (s : State) (u : Nat) : State :=
  if !ncActive s u then s
  else match fetchInsn u s with
    | (.error (.trap c v), t) => if k = .scalar then trapCtx t u c v else s
    | (.error _, _) => s
    | (.ok (w, n), t) =>
      if kindOf w n != k then s
      else match body w n (icacheInject t u) with
        | (.ok pc, t) => retire t u pc
        | (.error (.trap c v), t) => trapCtx t u c v
        | (.error (.status st), t) => endCtx t u st
        | (.error .stall, t) => t

/-- The instruction's own exception for what R316 and R322 do not admit: illegal instruction, with its bits in tval. -/
def illegal {α : Type} (w : Nat) : Nx α := Nx.stop (.trap 2 w)
def Nx.legal (w : Nat) (c : Bool) : Nx Unit := Nx.need c (.trap 2 w)

/-- The pc after an instruction of n bytes. -/
def nextPc (u n : Nat) : Nx DWord := Nx.get (fun s => (cx s u).pc + BitVec.ofNat 64 n)

/-! ## Waiting -/

/-- A crumb of the running task (R591). -/
def cxCrumb (s : State) (u ev : Nat) : State :=
  let x := cx s u
  crumb s (ukey .nc u) ev x.part 0 (x.ids % 2 ^ 24) x.task.seq.toNat

/-- Wait: the instruction does not retire, and the wait is dated from its first instant (R116, R323). -/
def waitOn {α : Type} (u : Nat) (w : Wait) : Nx α := fun s =>
  match (cx s u).wait with
  | some (o, _) => (.error .stall, if o == w then s else modCx s u (fun x => { x with wait := some (w, s.time) }))
  | none => (.error .stall, cxCrumb (modCx s u (fun x => { x with wait := some (w, s.time) })) u 0x0A)

/-- The wait, if there was one, is over; its cycles on the core are counted as stalled (R575). -/
def waitDone (u : Nat) : Nx Unit := fun s =>
  match (cx s u).wait with
  | some (_, t) =>
    let c := cntAt s .nc u
    let n := match c.enteredAt with
      | some e => unitCycles s .nc (countEnd s - (if e.toNat < t.toNat then t else e)).toNat
      | none => 0
    let s1 := gcCount (setCnt s .nc u { c with stall := satN 0xFFFF_FFFF (c.stall + n) }) 1 .nc u (cx s u).part n
    (.ok (), cxCrumb (modCx s1 u (fun x => { x with wait := none })) u 0x0B)
  | none => (.ok (), s)

/-- The ladle handle a task takes: the oldest of its sequence, or an ABORT handle (R452, R453). -/
def ladleHas (s : State) (l q : Nat) : Option Nat :=
  match (ladleAt s l).q.find? (fun h => fld h 32 31 == q % 2 ^ 31) with
  | some h => some h
  | none => if (ladleAt s l).aborted.contains (q % 2 ^ 31) then some (2 ^ 63 + mkLadle q 0xFFFFFFFF) else none

/-- Does what a context waits for hold (R341). -/
def waitMet (s : State) (u : Nat) (x : Ctx) : Bool :=
  match x.wait with
  | none => true
  | some (.stream t, _) => decide (t ≤ sDoneCount x)
  | some (.ladle l, _) => (ladleHas s l x.task.seq.toNat).isSome
  | some (.ring c v, _) => match x.ring with
    | none => true
    | some (id, _, _) =>
      (bitOf (regN s (ncPg u + 0x018)) 10 && (coreAt s u).overrun.contains id) ||
      (match (tget (fun _ => ([] : List RingSlot)) (coreAt s u).rings id).find? (fun k => k.tag == x.task.seq) with
        | none => false
        | some k => decide (v ≤ if c = 0 then k.c0 else k.c1))

/-- Mark parked tasks whose condition holds as eligible (R117, R341). -/
def refreshParks (s : State) : State :=
  { s with units := s.units.map (fun e =>
      if e.2.parks.isEmpty then e
      else
        let u := e.1 % 256
        (e.1, { e.2 with parks := e.2.parks.map (fun p =>
          match (coreAt s u).parked.find? (fun k => k.ctx.task == p.1) with
          | some k => (p.1, p.2.1, k.ctx.kill.isSome || waitMet s u k.ctx)
          | none => p) })) }

/-! ## The stream queue -/

/-- Logical streams of R424: a core's own engine, or a stream of a vision engine. -/
def streamMover (u k : Nat) : Mover := if k < 16 then .nc u k else .vs ((k - 16) / 4) (4 * u + (k - 16) % 4)

/-- A stream fault that is final at once, of the arming task (R424, R426, R434, R440); an engine of another partition records nothing. -/
def streamRefuse (s : State) (m : Mover) (u : Nat) (c : SCmd) (cause : Nat) : State :=
  let (b, n) := if cause = 0x13 then (.ncse, u) else movBlk m
  let s0 := if cause = 0x10 then bump s (movPg m + 0x824) 1
    else if cause = 0x11 ∧ (movAt s (movKey m)).active.isNone then setMov s (movKey m) { movAt s (movKey m) with final := true, cause := cause }
    else s
  let s1 := match causeErr m cause with | some e => raiseErr s0 b n e none | none => s0
  let s2 := crumb (raiseIrq s1 b n 9 none) (ukey b n) 9 (owner s .nc u) cause (c.ids % 2 ^ 24) c.task.seq.toNat
  pruneTask (endsWith s2 u c.task 0x0708) u c.task

/-- Take a command from the stream queue. -/
def dropSq (s : State) (u : Nat) : State := setCore s u { coreAt s u with sq := (coreAt s u).sq.drop 1 }

/-- The context of a task on a core, running or parked. -/
def taskCtx (s : State) (u : Nat) (r : TRef) : Option Ctx :=
  let c := coreAt s u
  match c.ctx.filter (fun x => x.task == r) with
  | some x => some x
  | none => (c.parked.find? (fun p => p.ctx.task == r)).map (·.ctx)

/-- STREAM_ARM: the command at the head of a core's stream queue is armed on the stream it names (R424, R426, R432, R434). -/
def streamArmAct (s : State) (m : Mover) : State :=
  match (List.range 8).find? (fun u => match (coreAt s u).sq with | c :: _ => streamMover u c.stream == m | [] => false) with
  | none => s
  | some u => match (coreAt s u).sq with
    | [] => s
    | c :: _ => match taskCtx s u c.task with
      | none => dropSq s u
      | some x =>
        if x.kill.isSome then pruneTask s u c.task
        else
          let s1 := dropSq s u
          if !movPresent s m || movOwner s m != some x.part then streamRefuse s1 m u c 0x13
          else if armFull s (movKey m) then streamRefuse s1 m u c 0x10
          else match readMove c.cmd false with
            | none => streamRefuse s1 m u c 0x11
            | some k =>
              if k.listSp && (match m with | .nc _ _ => false | _ => true) then streamRefuse s1 m u c 0x11
              else armCmd s1 m { k with
                part := x.part, bufR := x.bufR, bufW := x.bufW, task := some c.task, opId := c.ids % 2 ^ 24, flow := x.flow, ticket := c.ticket
                core := u, spBase := x.spBase, spRows := x.spRows, dual := x.dual, stream := c.stream
                layer := fld c.ids 24 16, phase := fld c.ids 40 8 }

/-! ## Rings -/

/-- Ring slots of a RING_ID on a core. -/
def ringSlots (s : State) (u id : Nat) : List RingSlot := tget (fun _ => []) (coreAt s u).rings id

/-- Set them. -/
def setRing (s : State) (u id : Nat) (l : List RingSlot) : State :=
  let c := coreAt s u
  setCore s u { c with rings := tset (fun _ => []) c.rings id l }

/-- Claim a slot for a sequence if none carries it and one is free; is there one (R343). -/
def ringClaim (s : State) (u id : Nat) (q : Word) : Bool × State :=
  let l := ringSlots s u id
  if l.any (fun k => k.tag == q) then (true, s)
  else if 2 ≤ l.length then (false, s)
  else (true, setRing s u id (l ++ [⟨q, 0, 0⟩]))

/-- Has ring id overrun on a core: RING_OVERRUN stands for it (R343). -/
def ringOver (s : State) (u id : Nat) : Bool := bitOf (regN s (ncPg u + 0x018)) 10 && (coreAt s u).overrun.contains id

/-- A signal reaches its target core (R343). -/
def ringArrive (s : State) (g : RingSig) : State :=
  let u := g.dst
  let s1 := bump s (ncPg u + 0x81C) 1
  let stale := match tget (fun _ => (none : Option Word)) (coreAt s u).ringEnd g.ring with
    | some q => g.seq == q || seqBelow g.seq q
    | none => false
  if stale then s1
  else match ringClaim s1 u g.ring g.seq with
    | (true, t) => setRing t u g.ring ((ringSlots t u g.ring).map (fun k =>
        if k.tag == g.seq then (if g.ctr = 0 then { k with c0 := (k.c0 + 1) % 65536 } else { k with c1 := (k.c1 + 1) % 65536 }) else k))
    | (false, t) =>
      let c := coreAt t u
      let old := if bitOf (regN t (ncPg u + 0x018)) 10 then c.overrun else []
      raiseErr (setCore t u { c with overrun := old.filter (· != g.ring) ++ [g.ring] }) .nc u 10 none

/-- May a signal take effect: the stream commands issued before it have completed (R344). -/
def sigReady (s : State) (g : RingSig) : Bool :=
  g.after == 0 || (match taskCtx s g.src g.task with | some x => decide (g.after ≤ sDoneCount x) | none => false)

/-- RING_SIGNAL_ARRIVE: the first signal to a core that is the oldest of its sender and may take effect (R344). -/
def ringSignalAct (s : State) (u : Nat) : State :=
  let first := fun (i : Nat) (g : RingSig) => (s.ringSigs.take i).all (fun o => !(o.src == g.src && o.dst == g.dst))
  match (List.range s.ringSigs.length).find? (fun i => match s.ringSigs[i]? with
    | some g => g.dst == u && first i g && sigReady s g
    | none => false) with
  | none => s
  | some i => match s.ringSigs[i]? with
    | none => s
    | some g => ringArrive { s with ringSigs := s.ringSigs.eraseIdx i } g

/-- A task of a ring has ended on a core: the slot of its sequence is free, and the sequence is the last ended there (R343). -/
def ringFree (s : State) (u id : Nat) (q : Word) : State :=
  let c := coreAt s u
  setCore s u { c with
    rings := tset (fun _ => []) c.rings id ((tget (fun _ => []) c.rings id).filter (fun k => k.tag != q))
    ringEnd := tset (fun _ => none) c.ringEnd id (some q) }

/-- What a ring's core forgets when a task of it ends: its slot, and signals that wait for what will never complete (R343, R344). -/
def ringTaskEnd (s : State) (u : Nat) (x : Ctx) : State :=
  let d := sDoneCount x
  let s1 := { s with ringSigs := (s.ringSigs.filter (fun g => g.task != x.task || decide (g.after ≤ d))).map (fun g =>
    if g.task == x.task then { g with after := 0 } else g) }
  match x.ring with
  | none => s1
  | some (id, _, _) => ringFree s1 u id x.task.seq

/-! ## The end of a core's task -/

/-- Has every command of a task that ran ended: nothing of it stands in the matrix queue or in a stream's slots (R320). -/
def ncQuiet (s : State) (u : Nat) (r : TRef) : Bool :=
  !(coreAt s u).mq.any (fun m => m.task == r) &&
  !s.movers.any (fun e => [e.2.active, e.2.shadow].any (fun c => match c with | some c => c.task == some r && c.core == u | none => false))

/-- TASK_END of a neural core: a context that was ended has its started commands run out, then the task ends with its status
(R119, R310, R320, R343). -/
def ncTaskEnd (s : State) (u : Nat) : State :=
  match (unitAt s .nc u).run with
  | none => s
  | some r => match (unitAt s .nc u).done with
    | some st =>
      let s1 := match (coreAt s u).badRing with
        | some id => ringFree (setCore s u { coreAt s u with badRing := none }) u id r.seq
        | none => s
      taskEnd s1 .nc u r st 0
    | none => match (coreAt s u).ctx with
      | none => s
      | some x => match x.kill with
        | none => s
        | some st =>
          let s1 := pruneTask s u r
          if !ncQuiet s1 u r || !ladleRoom s1 (graphAt s1 r.graph) r.node st then s
          else
            let s2 := ringTaskEnd s1 u x
            taskEnd (setCore s2 u { coreAt s2 u with ctx := none }) .nc u r st x.sig

/-! ## The decision to park -/

/-- Applied STALL_YIELD in ns (R116). -/
def stallYield (s : State) : Nat := fld (app s (fgsPg + 0x100)) 0 8 * 100

/-- Is the running task of a core to be parked (R116, R323, R339). -/
def parkDue (s : State) (u : Nat) : Bool :=
  let c := coreAt s u
  ncActive s u && stallYield s != 0 && decide (c.parked.length < 2) && (unitAt s .nc u).pre.isSome && (!c.live || (parkArea s u).isSome) &&
  (match c.ctx with
    | none => false
    | some x => !waitMet s u x && (match x.wait with | some (_, t) => decide (stallYield s ≤ (s.time - t).toNat) | none => false))

/-- The matrix unit's next command starts: the first of the running task, unless one runs or the task is to be parked (R309, R340). -/
def startMatrix (s : State) (u : Nat) : State :=
  let c := coreAt s u
  if c.mq.any (·.started) || parkDue s u then s
  else match c.ctx with
    | none => s
    | some x => match c.mq.findIdx? (fun m => m.task == x.task) with
      | none => s
      | some i => setCore s u { c with mq := c.mq.zipIdx.map (fun y => if y.2 = i then { y.1 with started := true } else y.1) }

/-- May the running task be parked now: no started matrix command of it is left; those not started wait with it (R340). -/
def parkable (s : State) (u : Nat) : Bool :=
  parkDue s u && (match (coreAt s u).ctx with | none => false | some x => !(coreAt s u).mq.any (fun m => m.task == x.task && m.started))

/-! ## The accumulator file in raw form -/

/-- The accumulator (i, j) (R355). -/
def accAt (c : Core) (i j : Nat) : Nat := tget (fun _ => 0) c.acc (256 * i + j)

/-- The 544 bytes of one raw row: 32 accumulators of 17 bytes; in TREE mode the binary32 value and zeros (R330, R363). -/
def rawRow (c : Core) (k : Nat) : List Byte :=
  (List.range 32).flatMap (fun j => natLe 17 (accAt c (k / 8) (32 * (k % 8) + j)))

/-- Accumulator entries of a raw row read back. -/
def rawVals (b : List Byte) : List Nat := (List.range 32).map (fun j => leAt b (17 * j) 17)

/-- Write the whole file to 1,024 rows from a row (R330). -/
def writeFile (u row : Nat) (c : Core) : Eng Unit :=
  Eng.each (List.range 1024) (fun k => let b := rawRow c k; rowWrite u (row + k) (b.take 512) (b.drop 512))

/-- Read 1,024 rows from a row: the entries by accumulator number. -/
def readFile (u row : Nat) : Eng (List Nat) := do
  let l ← Eng.forM (List.range 1024) (fun k => do
    let b ← rowRead u (row + k) true
    pure (rawVals (b.1 ++ b.2)))
  pure l.flatten

/-- A file from its entries in order. -/
def fileOf (l : List Nat) : Tbl Nat :=
  ((List.range l.length).zip l).foldr (fun e t => if e.2 = 0 then t else e :: t) []

/-! ## Parking -/

/-- The lowest free park slot. -/
def freePark (c : Core) : Nat := if c.parked.any (fun p => p.slot == 0) then 1 else 0

/-- Accumulator reads meet armed injections (R335, R347). -/
def accInject (u : Nat) : Eng Unit := fun s =>
  let s1 := if injArmed s .ncm u 0 then raiseErr (bump (injUsed s .ncm u 0) (pg .ncm u + 0x814) 1) .ncm u 8 none else s
  if injArmed s1 .ncm u 1 then (.error 0x0704, raiseErr (injUsed s1 .ncm u 1) .ncm u 9 none) else (.ok (), s1)

/-- Save a live file to a park slot: its accumulators are read (R335, R339). -/
def saveFile (u k : Nat) : Eng Unit := fun s =>
  if (coreAt s u).live then (do accInject u; writeFile u (parkRow s u k) (coreAt s u) : Eng Unit) s else (.ok (), s)

/-- PARK: the waiting task leaves the running slot with its context; a live file is saved and cleared (R116, R339, R340). A file that cannot be
read ends the task in place of parking it (R335; log entry 135). -/
def parkAct (s : State) (u : Nat) : State :=
  let c := coreAt s u
  match c.ctx, parkable s u, saveFile u (freePark c) s with
  | some _, true, (.error st, t) => endCtx t u st
  | some x, true, (.ok _, s1) =>
    let k := freePark c
    let s2 := setCore s1 u { coreAt s1 u with
      ctx := none, acc := [], tree := false, live := false, cover := []
      parked := (coreAt s1 u).parked ++ [⟨x, k, c.live, c.tree, c.cover⟩] }
    let s3 := bump (if c.live then bump s2 (ncPg u + 0x80C) 1 else s2) (ncPg u + 0x808) 1
    let w := unitAt s3 .nc u
    let s4 := modTask (setUnit s3 .nc u { w with run := none, parks := w.parks ++ [(x.task, k, false)] }) x.task (fun t => { t with at_ := .parked (ukey .nc u) })
    let s5 := bump s4 (fgsCnt x.part 0x18) 1
    let s6 := gcCount (unitTrace (unitCrumb s5 3 .nc u x.task k) 3 .nc u x.task x.tile k) 6 .nc u x.part 1
    let s7 := setCnt s6 .nc (u + 16 * (k + 1)) (cntStopped s6 .nc u)
    cntLeave s7 .nc u x.part
  | _, _, _ => s

/-- RESUME: the first eligible parked task takes the empty running slot; its file is read back (R117, R341, R383). -/
def resumeAct (s : State) (u : Nat) : State :=
  let s0 := refreshParks s
  let w := unitAt s0 .nc u
  if w.run.isSome || tasterHolds s0 w then s
  else match w.parks.find? (fun p => p.2.2) with
    | none => s
    | some (r, k, _) => match (coreAt s0 u).parked.find? (fun p => p.ctx.task == r) with
      | none => s
      | some p =>
        let (file, s1) := if p.saved then (match readFile u (parkRow s0 u k) s0 with
            | (.ok l, t) => (some (fileOf l), t)
            | (.error _, t) => (none, t))
          else (some [], s0)
        let c := coreAt s1 u
        let x := { p.ctx with kill := match file with | some _ => p.ctx.kill | none => (match p.ctx.kill with | some (k + 1) => some (k + 1) | _ => some 0x0801) }
        let s2 := setCore s1 u { c with
          ctx := some x, parked := c.parked.filter (fun q => q.ctx.task != r)
          acc := file.getD [], tree := p.tree, live := p.saved, cover := p.cover }
        let w2 := unitAt s2 .nc u
        let s3 := modTask (setUnit s2 .nc u { w2 with run := some r, done := none, parks := w2.parks.filter (fun q => q.1 != r) }) r
          (fun t => { t with at_ := .running (ukey .nc u) })
        let s4 := cntEnter s3 .nc u (cntAt s3 .nc (u + 16 * (k + 1)))
        startMatrix (unitTrace (unitCrumb s4 4 .nc u r k) 4 .nc u r x.tile k) u

end Sys2Proof.Machine
end

