-- ==== Sys2Proof/Machine/Matrix.lean ====
section
/-! DEFINITION. The matrix unit: multiply-accumulate, drain, raw store and raw add on the accumulator file (R324 to R335, R355 to R372). -/

namespace Sys2Proof.Machine
open Sys2Proof

/-! ## Operands -/

/-- Groups of R324 by format code: 0 W8, 1 W4, 2 W6, 3 W16. -/
def fmtGroup (f : Nat) : Option Nat :=
  if f ≤ 1 ∨ f = 3 ∨ f = 4 ∨ f = 8 then some 0
  else if f = 2 ∨ f = 5 then some 1
  else if f = 6 ∨ f = 7 then some 2
  else if f = 9 ∨ f = 10 then some 3
  else none

/-- Elements per row of a group (R324). -/
def groupElems : Nat → Nat
  | 0 => 512
  | 1 => 1024
  | 2 => 640
  | _ => 256

/-- Cycles with a K step applied for K steps of a group (R324, R333). -/
def groupCycles (g k : Nat) : Nat := if g = 1 then ceilDiv k 2 else if g = 3 then 4 * k else k

/-- The code of element k of a row (R352, R353). -/
def rowElem (g : Nat) (d : List Byte) (k : Nat) : Nat :=
  match g with
  | 0 => leAt d k 1
  | 1 => fld (leAt d (k / 2) 1) (4 * (k % 2)) 4
  | 2 => fld (leAt d (3 * (k / 4)) 3) (6 * (k % 4)) 6
  | _ => leAt d (2 * k) 2

/-- An operand element as m times 2^q, and whether it was replaced (R351, R357, R358). -/
structure Operand where
  m : Int
  q : Int
  repl : Bool
  deriving DecidableEq, Repr

/-- The element of a format with its block's scale code (R351, R357). -/
def operand (f c sc : Nat) : Operand :=
  let ofF := fun (x : Flt) (e : Int) => match x with
    | .fin n m q => (⟨if n then -(m : Int) else m, q + e, false⟩ : Operand)
    | .inf n => ⟨if n then -57344 else 57344, 0, true⟩
    | .nan _ => ⟨0, 0, true⟩
  let e : Int := (sc : Int) - 127
  match f with
  | 0 => ⟨sext c 8, 0, false⟩
  | 1 => ⟨c % 256, 0, false⟩
  | 2 => ⟨sext c 4, 0, false⟩
  | 3 => ofF (fdec fE4M3 c) 0
  | 4 => ofF (fdec fE5M2 c) 0
  | _ =>
    if sc = 0xFF then ⟨0, 0, true⟩
    else match f with
      | 5 => ofF (fdec fE2M1 c) e
      | 6 => ofF (fdec fE3M2 c) e
      | 7 => ofF (fdec fE2M3 c) e
      | _ => ⟨sext c 8, e - 6, false⟩

/-- What one product adds in units of 2^-56, with underflow and overflow (R358). -/
def product (a b : Operand) : Int × Bool × Bool :=
  let m := a.m * b.m
  let q := a.q + b.q
  let ovf := if q ≤ 79 then decide (2 ^ (79 - q).toNat ≤ m.natAbs) else decide (m ≠ 0)
  if -56 ≤ q then (m * 2 ^ (q + 56).toNat, false, ovf)
  else
    let sh : Nat := 2 ^ (-56 - q).toNat
    let k : Nat := m.natAbs / sh
    (if m < 0 then -(k : Int) else k, decide (m.natAbs % sh ≠ 0), ovf)

/-! ## The multiply-accumulate -/

/-- The MMA block (R325). -/
structure Mma where
  a : Nat
  b : Nat
  k : Nat
  fa : Nat
  fb : Nat
  zero : Bool
  m : Nat
  n : Nat
  base : Nat
  deriving DecidableEq, Repr

/-- Its fields, if they keep R325. -/
def readMma (b : List Byte) : Option Mma :=
  let x : Mma := ⟨leAt b 0 4, leAt b 4 4, leAt b 8 4, leAt b 12 1, leAt b 13 1, bitOf (leAt b 14 1) 0, leAt b 16 2, leAt b 18 2, leAt b 20 4⟩
  if decide (x.a < spRows) && decide (x.b < spRows) && decide (1 ≤ x.k) && decide (x.k < 2 ^ 20) && decide (leAt b 14 1 ≤ 1) &&
    leAt b 15 1 == 0 && decide (1 ≤ x.m) && decide (x.m ≤ 128) && decide (1 ≤ x.n) && decide (x.n ≤ 256) && zeros b 24 32 then some x else none

/-- The group of an MMA, if its formats keep R324. -/
def Mma.group (x : Mma) : Option Nat :=
  match fmtGroup x.fa, fmtGroup x.fb with
  | some g, some h => if g = h ∧ (g ≠ 3 ∨ x.fa = x.fb) then some g else none
  | _, _ => none

/-- Rows [r, r + n) lie in the window of a task (R388). -/
def rowsIn (s : State) (u : Nat) (x : Ctx) (r n : Nat) : Bool :=
  decide (x.spBase ≤ r) && decide (r + n ≤ x.spBase + x.spRows) &&
  (match parkArea s u with | none => true | some a => !overlap a (r, n))

/-- They must; a refused access is counted (R327, R388). -/
def needRows (u : Nat) (x : Ctx) (r n : Nat) : Eng Unit := fun s =>
  if rowsIn s u x r n then (.ok (), s) else (.error 0x0703, bump s (spc u + 0x81C) 1)

/-- Rows of an operand: `cnt` rows to the chunk, element k of output line i (R326). -/
def operandRows (u r cnt chunks : Nat) (bk : Bool) : Eng (Array (List Byte × List Byte)) := do
  let l ← Eng.forM (rangeFrom r (cnt * chunks)) (fun k => rowRead u k bk)
  pure l.toArray

/-- Element at reduction position p of line i. -/
def lineElem (g cnt : Nat) (rows : Array (List Byte × List Byte)) (i p : Nat) : Nat × Nat :=
  let e := groupElems g
  let row := rows.getD (p / e * cnt + i) ([], [])
  (rowElem g row.1 (p % e), leAt row.2 (p % e / 32) 1)

/-- Count on the matrix page. -/
def ncmBump (u o n : Nat) : Eng Unit := Eng.modify (fun s => bump s (pg .ncm u + o) n)
def ncmBump64 (u o n : Nat) : Eng Unit := Eng.modify (fun s => bump64 s (pg .ncm u + o) n)

/-- The file after values were put at (i, j) for i below m and j below n. -/
def fillAcc (t : Tbl Nat) (m n : Nat) (f : Nat → Nat → Nat) : Tbl Nat :=
  (List.range m).foldl (fun t i => (List.range n).foldl (fun t j => tset (fun _ => 0) t (256 * i + j) (f i j)) t) t

/-- An MMA of an exact group: sums of products, and the counts of R358 (R327, R357, R359). -/
def mmaExact (u : Nat) (x : Mma) (g : Nat) (ra rb : Array (List Byte × List Byte)) (c : Core) : Eng Core := do
  let a : Array (Array Operand) := Array.ofFn (n := x.m) (fun i => Array.ofFn (n := x.k) (fun p =>
    let e := lineElem g x.m ra i.val p.val
    operand x.fa e.1 e.2))
  let b : Array (Array Operand) := Array.ofFn (n := x.n) (fun j => Array.ofFn (n := x.k) (fun p =>
    let e := lineElem g x.n rb j.val p.val
    operand x.fb e.1 e.2))
  let zero : Operand := ⟨0, 0, false⟩
  let el := fun (t : Array (Array Operand)) (i p : Nat) => (t.getD i #[]).getD p zero
  let special := fun (t : Array (Array Operand)) => t.foldl (fun k r => r.foldl (fun k o => k + b2n o.repl) k) 0
  let dot := fun (i j : Nat) => (List.range x.k).foldl (fun (acc : Int × Nat × Nat) p =>
    let r := product (el a i p) (el b j p)
    (acc.1 + r.1, acc.2.1 + b2n r.2.1, acc.2.2 + b2n r.2.2)) (0, 0, 0)
  let sums : Array (Array (Int × Nat × Nat)) := Array.ofFn (n := x.m) (fun i => Array.ofFn (n := x.n) (fun j => dot i.val j.val))
  let at_ := fun (i j : Nat) => (sums.getD i #[]).getD j (0, 0, 0)
  let tot := fun (f : Int × Nat × Nat → Nat) => sums.foldl (fun k r => r.foldl (fun k v => k + f v) k) 0
  ncmBump64 u (0x900 + 8 * x.fa) (x.m * x.n * x.k)
  ncmBump u 0x980 (tot (fun v => v.2.1))
  ncmBump u 0x984 (tot (fun v => v.2.2))
  ncmBump u 0x988 (special a + special b)
  pure { c with acc := fillAcc c.acc x.m x.n (fun i j => trunc ((accAt c i j : Int) + (at_ i j).1) 136) }

/-- A product of two 16-bit elements rounded to binary32 (R361). -/
def leaf16 (f a b : Nat) : Nat := (ffma (if f = 9 then fFP16 else fBF16) fFP32 .rne a b 0x80000000).1

/-- A range of positions joined to those an accumulator covers (R362). -/
def joinRange (r : Nat × Nat) (l : List (Nat × Nat)) : List (Nat × Nat) :=
  match l.find? (fun x => decide (x.1 ≤ r.2) && decide (r.1 ≤ x.2)) with
  | some x => l.map (fun y => if y = x then (min x.1 r.1, max x.2 r.2) else y)
  | none => l ++ [r]

/-- An MMA of the W16 group: the tree's root, taken or added (R360 to R362); `fresh` says that it sets the mode. -/
def mmaTree (u : Nat) (x : Mma) (ra rb : Array (List Byte × List Byte)) (fresh : Bool) (c : Core) : Eng Core := do
  let root := fun (i j : Nat) => (treeRoot add32 x.base ((List.range x.k).map (fun p =>
    some (leaf16 x.fa (lineElem 3 x.m ra i p).1 (lineElem 3 x.n rb j p).1)))).getD 0
  ncmBump64 u (0x900 + 8 * x.fa) (x.m * x.n * x.k)
  pure { c with
    acc := fillAcc c.acc x.m x.n (fun i j => if fresh then root i j else add32 (accAt c i j) (root i j))
    cover := (List.range x.m).foldl (fun t i => (List.range x.n).foldl (fun t j =>
      let k := 256 * i + j
      tset (fun _ => []) t k (if fresh then [(x.base, x.base + x.k)] else joinRange (x.base, x.base + x.k) (tget (fun _ => []) c.cover k))) t) c.cover }

/-- NC.MMA runs (R325 to R327, R356). -/
def mmaRun (u : Nat) (t : Ctx) (b : List Byte) : Eng Unit := do
  match readMma b with
  | none => Eng.fail 0x0703
  | some x => match x.group with
    | none => Eng.fail 0x0703
    | some g => do
      let chunks := ceilDiv x.k (groupElems g)
      needRows u t x.a (x.m * chunks)
      needRows u t x.b (x.n * chunks)
      let c ← Eng.get (fun s => coreAt s u)
      let fresh := x.zero || !c.live
      Eng.need (fresh || c.tree == decide (g = 3)) 0x0703
      let ra ← operandRows u x.a x.m chunks (isBk x.fa)
      let rb ← operandRows u x.b x.n chunks (isBk x.fb)
      if fresh then pure () else accInject u
      let c1 : Core := if fresh then { c with acc := if x.zero then [] else c.acc, tree := decide (g = 3), cover := [] } else c
      let c2 ← if g = 3 then mmaTree u x ra rb fresh c1 else mmaExact u x g ra rb c1
      ncmBump u 0x800 1
      ncmBump64 u 0x808 (groupCycles g x.k)
      Eng.modify (fun s => setCore s u { coreAt s u with acc := c2.acc, tree := c2.tree, cover := c2.cover, live := true })

/-! ## The drain -/

/-- The drain block (R328). -/
structure Drain where
  row : Nat
  stride : Nat
  fmt : Nat
  sr : Bool
  release : Bool
  col : Nat
  shift : Int
  m : Nat
  n : Nat
  tensor : Nat
  rowStep : Nat
  base : Nat
  deriving DecidableEq, Repr

/-- Data bytes a drained row takes for its N columns (R328). -/
def Drain.bytes (x : Drain) : Nat :=
  match x.fmt with
  | 0 | 1 | 2 => x.n
  | 3 | 4 => 2 * x.n
  | 5 => 4 * x.n
  | 6 => 32 * ceilDiv x.n 32
  | _ => 16 * ceilDiv x.n 32

/-- Its fields, if they keep R328. -/
def readDrain (b : List Byte) : Option Drain :=
  let fl := leAt b 7 1
  let x : Drain := ⟨leAt b 0 4, leAt b 4 2, leAt b 6 1, bitOf fl 0, bitOf fl 1, leAt b 8 1, sext (leAt b 9 1) 8, leAt b 10 2, leAt b 12 2,
    leAt b 16 4, leAt b 20 4, leAt b 24 8⟩
  if decide (x.row < spRows) && decide (1 ≤ x.stride) && decide (x.stride ≤ 1024) && (x.fmt != 5 || decide (2 ≤ x.stride)) && decide (x.fmt ≤ 7) &&
    decide (fl ≤ 3) && decide (x.col ≤ 7) && decide (-64 ≤ x.shift) && decide (x.shift ≤ 63) && decide (1 ≤ x.m) && decide (x.m ≤ 128) &&
    decide (1 ≤ x.n) && decide (x.n ≤ 256) && leAt b 14 2 == 0 && (if x.fmt = 5 then x.col == 0 else decide (64 * x.col + x.bytes ≤ 512))
  then some x else none

/-- An element drained: its code, and whether it overflowed, saturated or drew bits. -/
structure Drained where
  code : Nat
  ovf : Bool := false
  sat : Bool := false
  drew : Bool := false
  deriving DecidableEq, Repr

/-- Round a magnitude between two candidates F and C, all in one unit, by the bits drawn (R368): does it become the hi candidate. -/
def srHi (neg : Bool) (v lo hi bits : Nat) : Bool :=
  decide (bits < (if neg then hi - v else v - lo) * 2 ^ 32 / (hi - lo))

/-- Round m times 2^e to a whole number of 2^q within limits (R365, R368): INT8, and the elements of BK8. -/
def drainInt (q : Int) (lo hi : Int) (sr : Option Nat) (neg : Bool) (m : Nat) (e : Int) : Drained :=
  let c := fun (v : Int) => trunc v 8
  let sg : Int := if neg then -1 else 1
  let u := min e q
  let v := m * 2 ^ (e - u).toNat
  let one := 2 ^ (q - u).toNat
  let fl := v / one
  let beyond := if neg then decide ((-lo).toNat * one < v) else decide (hi.toNat * one < v)
  if beyond then ⟨c (if neg then lo else hi), false, true, false⟩
  else if v % one = 0 then ⟨c (sg * fl), false, false, false⟩
  else match sr with
    | none => ⟨c (sg * ((roundAt .rne neg m e q).1 : Nat)), false, false, false⟩
    | some bits =>
      let up := srHi neg v (fl * one) ((fl + 1) * one) bits
      ⟨c (sg * ((if up != neg then fl + 1 else fl : Nat) : Int)), false, false, true⟩

/-- Round m times 2^e to a floating format's finite values (R365, R368). -/
def drainFlt (f : FFmt) (sr : Option Nat) (neg : Bool) (m : Nat) (e : Int) : Drained :=
  let val := fun (c : Nat) => match fdec f c with | .fin _ k q => (k, q) | _ => (0, 0)
  let beyond := decide (fcmpVal (.fin false m e) (fdec f f.maxFin) = 1)
  let (fl, ix) := magCode f .rtz neg m e
  if m = 0 then ⟨0, false, false, false⟩
  else if beyond then ⟨signed f neg f.maxFin, false, true, false⟩
  else if !ix then ⟨signed f neg fl, false, false, false⟩
  else match sr with
    | none => ⟨signed f neg (magCode f .rne neg m e).1, false, false, false⟩
    | some bits =>
      let (kl, ql) := val fl
      let (kh, qh) := val (fl + 1)
      let u := min e (min ql qh)
      let up := srHi neg (m * 2 ^ (e - u).toNat) (kl * 2 ^ (ql - u).toNat) (kh * 2 ^ (qh - u).toNat) bits
      ⟨signed f neg (if up != neg then fl + 1 else fl), false, false, true⟩

/-- The floating format of an OUT_FMT (R328), or of the elements of BK4. -/
def outFmt : Nat → Option FFmt
  | 1 => some fE4M3
  | 2 => some fE5M2
  | 3 => some fFP16
  | 4 => some fBF16
  | 5 => some fFP32
  | 7 => some fE2M1
  | _ => none

/-- One value drained to an element, after any block scale: `big` says that the unscaled value reached 2^79 (R364 to R366, R369). -/
def drainElem (fmt : Nat) (sr : Option Nat) (big : Bool) (x : Flt) : Drained :=
  match outFmt fmt, x with
  | some f, .fin neg m e => if big then ⟨signed f neg f.maxFin, true, false, false⟩ else drainFlt f sr neg m e
  | some f, y => ⟨fconv f y, false, false, false⟩
  | none, .fin neg m e =>
    if fmt = 6 then (if big then ⟨if neg then 0x81 else 0x7F, true, false, false⟩ else drainInt (-6) (-127) 127 sr neg m e)
    else if big then ⟨if neg then 0x80 else 0x7F, true, false, false⟩ else drainInt 0 (-128) 127 sr neg m e
  | none, .inf neg => ⟨if neg then 0x80 else 0x7F, false, false, false⟩
  | none, .nan _ => ⟨0, false, false, false⟩

/-- The value of an accumulator after SHIFT (R364). -/
def drainVal (c : Core) (sh : Int) (i j : Nat) : Flt :=
  if c.tree then (match fdec fFP32 (accAt c i j % 2 ^ 32) with
    | .fin n m e => .fin n m (e + sh)
    | y => y)
  else ofInt false (sext (accAt c i j) 136) (sh - 56)

/-- Does a value reach the threshold of R364. -/
def isBig : Flt → Bool
  | .fin _ m e => if m = 0 then false else decide (79 ≤ msbExp m e)
  | _ => false

/-- The exponent of a block (R366), or none where it holds a NaN or an infinity. -/
def blockExp (emax : Int) (l : List Flt) : Option Int :=
  if l.any (fun v => match v with | .fin _ _ _ => false | _ => true) then none
  else
    let es := l.filterMap (fun v => match v with | .fin _ m e => if m = 0 then none else some (msbExp m e) | _ => none)
    match es with
    | [] => some (-127)
    | a :: r => some (clampI (-127) 127 (r.foldl max a - emax))

/-- A value divided by 2^e. -/
def scaleFlt (e : Int) : Flt → Flt
  | .fin n m q => .fin n m (q - e)
  | y => y

/-- The elements and scale codes of output row i (R364 to R368). -/
def drainRow (c : Core) (seed : Nat) (x : Drain) (i : Nat) : List Drained × List Nat :=
  let v := fun (j : Nat) => drainVal c x.shift i j
  let sr := fun (j : Nat) => if x.sr then some (srBits seed x.tensor ((x.base + i * x.rowStep + j) % 2 ^ 64)) else none
  if x.fmt < 6 then ((List.range x.n).map (fun j => drainElem x.fmt (sr j) (isBig (v j)) (v j)), [])
  else
    let blk := fun (b : Nat) => (rangeFrom (32 * b) 32).filter (fun j => decide (j < x.n))
    let exps := (List.range (ceilDiv x.n 32)).map (fun b => blockExp (if x.fmt = 7 then 2 else 0) ((blk b).map v))
    (((List.range exps.length).zip exps).flatMap (fun y => (rangeFrom (32 * y.1) 32).map (fun j =>
      match y.2 with
      | some e => if j < x.n then drainElem x.fmt (sr j) (isBig (v j)) (scaleFlt e (v j)) else ⟨0, false, false, false⟩
      | none => ⟨0, decide (j < x.n) && isBig (v j), false, false⟩)),
     exps.map (fun e => match e with | some k => (k + 127).toNat | none => 0xFF))

/-- The bytes of drained elements (R353). -/
def drainBytes (fmt : Nat) (l : List Drained) : List Byte :=
  match fmt with
  | 3 | 4 => l.flatMap (fun d => natLe 2 d.code)
  | 5 => l.flatMap (fun d => natLe 4 d.code)
  | 7 => (groups 2 l.length l).map (fun p => BitVec.ofNat 8 ((nth ⟨0, false, false, false⟩ p 0).code % 16 + 16 * ((nth ⟨0, false, false, false⟩ p 1).code % 16)))
  | _ => l.map (fun d => BitVec.ofNat 8 d.code)

/-- Write one output row: data, the second row of FP32, and scale lanes (R328, R384). -/
def drainWrite (u : Nat) (x : Drain) (i : Nat) (d : List Byte) (scales : List Nat) : Eng Unit := do
  let r := x.row + i * x.stride
  spWrite u (512 * r + 64 * x.col) (d.take 512)
  if d.length ≤ 512 then pure () else spWrite u (512 * (r + 1)) (d.drop 512)
  Eng.each ((List.range scales.length).zip scales) (fun e => laneWrite u r (e.1 + 64 * x.col / (if x.fmt = 6 then 32 else 16)) [BitVec.ofNat 8 e.2])

/-- Clear the file: it is no longer live (R329, R331). -/
def releaseFile (u : Nat) : Eng Unit := Eng.modify (fun s => setCore s u { coreAt s u with acc := [], live := false, cover := [] })

/-- NC.MDRAIN runs (R328, R329, R364 to R368, R372). -/
def drainRun (u : Nat) (t : Ctx) (b : List Byte) : Eng Unit := do
  match readDrain b with
  | none => Eng.fail 0x0703
  | some x => do
    Eng.each (List.range x.m) (fun i => needRows u t (x.row + i * x.stride) (if 512 < x.bytes then 2 else 1))
    accInject u
    let c ← Eng.get (fun s => coreAt s u)
    let rows := (List.range x.m).map (drainRow c t.seed x)
    if x.release then releaseFile u else pure ()
    Eng.each ((List.range x.m).zip rows) (fun r => drainWrite u x r.1 (drainBytes x.fmt r.2.1) r.2.2)
    let cnt := fun (f : Drained → Bool) => rows.foldl (fun k r => r.1.foldl (fun k d => k + b2n (f d)) k) 0
    ncmBump u (0x960 + 4 * x.fmt) (x.m * x.n)
    ncmBump u 0x98C (cnt (·.ovf))
    ncmBump u 0x990 (cnt (·.sat))
    ncmBump u 0x994 (cnt (·.drew))
    ncmBump u 0x804 1

/-! ## Raw rows -/

/-- The raw block's row and RELEASE, if it keeps R330. -/
def readRaw (b : List Byte) : Option (Nat × Bool) :=
  if leAt b 0 4 < spRows && decide (leAt b 4 1 ≤ 1) && zeros b 5 32 then some (leAt b 0 4, bitOf (leAt b 4 1) 0) else none

/-- NC.MRAWST runs (R330, R363). -/
def rawStoreRun (u : Nat) (t : Ctx) (b : List Byte) : Eng Unit := do
  match readRaw b with
  | none => Eng.fail 0x0703
  | some (r, rel) => do
    needRows u t r 1024
    accInject u
    let c ← Eng.get (fun s => coreAt s u)
    writeFile u r c
    if rel then releaseFile u else pure ()
    ncmBump u 0x804 1

/-- NC.MRAWADD runs (R330, R355, R363). -/
def rawAddRun (u : Nat) (t : Ctx) (b : List Byte) : Eng Unit := do
  match readRaw b with
  | none => Eng.fail 0x0703
  | some (r, _) => do
    needRows u t r 1024
    let c ← Eng.get (fun s => coreAt s u)
    let l ← readFile u r
    if c.live then accInject u else pure ()
    let tree := c.live && c.tree
    let vals := ((List.range l.length).zip l).map (fun e =>
      let v := tget (fun _ => 0) c.acc e.1
      if tree then add32 v (e.2 % 2 ^ 32) else (v + e.2) % 2 ^ 136)
    Eng.modify (fun s => setCore s u { coreAt s u with acc := fileOf vals, tree := tree, live := true })

/-! ## The queue -/

/-- Issue a matrix command from a narrow address: its block is read and its ticket given; a full queue stalls (R309, R310, R321, R322). -/
def matrixIssue (u kind w len : Nat) : Nx DWord := do
  Nx.legal w (fld w 20 5 == 0)
  let full ← Nx.get (fun s => decide (16 ≤ (coreAt s u).mq.length))
  Nx.need (!full) .stall
  let a ← Nx.x u (fld w 15 5)
  match codeAddr a.toNat with
  | .sp o => do
    needWindow u o 32 5 a.toNat
    let b ← Nx.lift (spRead u o 32) spStop
    Nx.modify (fun s =>
      let x := cx s u
      let s1 := modCx s u (fun y => setX (fld w 7 5) (BitVec.ofNat 64 (y.mIssued + 1)) { y with mIssued := y.mIssued + 1 })
      startMatrix (setCore s1 u { coreAt s1 u with mq := (coreAt s1 u).mq ++ [⟨kind, b, x.mIssued + 1, x.task, x.ids, false⟩] }) u)
    nextPc u len
  | _ => illegal w

/-- The status of a matrix command's failure (R383, R345). -/
def matStatus (c : Nat) : Nat := if c = 0x40 then 0x0801 else c

/-- MATRIX_COMMAND_COMPLETE: the command that has started completes, or ends its task, whose other commands are discarded; the next then starts
(R309, R310, R320, R332, R334). -/
def matrixAct (s0 : State) (u : Nat) : State :=
  let s := startMatrix s0 u
  match (coreAt s u).mq.find? (·.started) with
  | none => s
  | some c =>
    let s1 := setCore s u { coreAt s u with mq := (coreAt s u).mq.erase c }
    match taskCtx s u c.task with
    | none => startMatrix s1 u
    | some t =>
      let run := match c.kind with | 0 => mmaRun | 1 => drainRun | 2 => rawStoreRun | _ => rawAddRun
      match run u t c.blk s1 with
      | (.ok _, s2) =>
        let s3 := modCtx s2 u c.task (fun y => { y with mDone := y.mDone ++ [c.ticket] })
        startMatrix (emit s3 ⟨s3.time, 5, (cntAt s3 .nc u).isPartial, u, blkCode .nc, t.flow, fld c.ids 24 16, fld c.ids 0 24, fld c.ids 40 8, c.task.seq.toNat, c.ticket % 65536, 0x0B, t.part, []⟩) u
      | (.error e, s2) => pruneTask (endsWith s2 u c.task (matStatus e)) u c.task

/-! ## The other custom instructions -/

/-- NC.SE (R321, R322, R426). -/
def seIssue (u w len : Nat) : Nx DWord := do
  let k ← Nx.x u (fld w 20 5)
  Nx.legal w (decide (k.toNat < 32))
  let full ← Nx.get (fun s => decide (16 ≤ (coreAt s u).sq.length))
  Nx.need (!full) .stall
  let a ← Nx.x u (fld w 15 5)
  let b ← rawLoad u a.toNat 32
  Nx.modify (fun s =>
    let x := cx s u
    let s1 := modCx s u (fun y => setX (fld w 7 5) (BitVec.ofNat 64 (y.sIssued + 1)) { y with sIssued := y.sIssued + 1 })
    setCore s1 u { coreAt s1 u with sq := (coreAt s1 u).sq ++ [⟨b, k.toNat, x.sIssued + 1, x.ids, x.task⟩] })
  nextPc u len

/-- NC.WAIT (R321 to R323). -/
def waitInsn (u w len : Nat) : Nx DWord := do
  let q ← Nx.x u (fld w 15 5)
  let t ← Nx.x u (fld w 20 5)
  let x ← Nx.get (fun s => cx s u)
  Nx.legal w (fld w 7 5 == 0 && decide (q.toNat ≤ 1) && decide (t.toNat ≤ if q = 0 then x.mIssued else x.sIssued))
  if q = 0 then Nx.need (decide (t.toNat ≤ mDoneCount x)) .stall
  else if t.toNat ≤ sDoneCount x then waitDone u
  else waitOn u (.stream t.toNat)
  nextPc u len

/-- A ladle read meets armed injections: corrected, or delivered as the ABORT handle of its sequence (R457). -/
def ladleRead (l h : Nat) (s : State) : Nat × State :=
  let s1 := if injArmed s .ladle l 0 then raiseErr (injUsed s .ladle l 0) .ladle l 8 none else s
  if injArmed s1 .ladle l 1 then (2 ^ 63 + fld h 32 31 * 2 ^ 32 + 0xFFFFFFFF, raiseErr (injUsed s1 .ladle l 1) .ladle l 9 none) else (h, s1)

/-- Take a handle from a ladle, counted and noted (R452, R453, R457). -/
def ladleTake (l h : Nat) (s : State) : Nat × State :=
  let x := ladleAt s l
  if x.q.contains h then
    let s1 := bump (setLadle s l { x with q := x.q.erase h }) (pg .ladle l + 0x804) 1
    let (v, s2) := ladleRead l h s1
    let s3 := if bitOf v 63 then bump s2 (pg .ladle l + 0x808) 1 else s2
    (v, crumb s3 (ukey .ladle l) 0x14 (graphAt s3 ((x.bound).getD 0)).part 0 0 (fld h 32 31))
  else (h, bump s (pg .ladle l + 0x808) 1)

/-- NC.LPOP (R321 to R323, R452, R453). -/
def lpopInsn (u w len : Nat) : Nx DWord := do
  Nx.legal w (fld w 20 5 == 0)
  let i ← Nx.x u (fld w 15 5)
  let x ← Nx.get (fun s => cx s u)
  let g ← Nx.get (fun s => graphAt s x.task.graph)
  Nx.legal w ((edgesOf g.img (nodeAt g x.task.node)).any (fun e => e.kind == 1 && e.ladle == i.toNat))
  match boundTo g .ladle i.toNat with
  | none => illegal w
  | some l => do
    let h ← Nx.get (fun s => ladleHas s l x.task.seq.toNat)
    match h with
    | some v => do
      waitDone u
      let v2 ← (fun s => let r := ladleTake l v s; (.ok r.1, r.2) : Nx Nat)
      Nx.setX u (fld w 7 5) (BitVec.ofNat 64 v2)
      nextPc u len
    | none => do
      if x.wait.isNone then Nx.modify (fun s => bump s (pg .ladle l + 0x810) 1) else pure ()
      waitOn u (.ladle l)

/-- NC.RSIG (R321, R322, R342 to R344). -/
def rsigInsn (u w len : Nat) : Nx DWord := do
  let a ← Nx.x u (fld w 15 5)
  let x ← Nx.get (fun s => cx s u)
  Nx.legal w (fld w 7 5 == 0 && fld w 20 5 == 0 && decide (a.toNat < 4) && x.ring.isSome)
  match x.ring with
  | none => illegal w
  | some (id, st, n) => do
    let k := if bitOf a.toNat 0 then (st + n - 1) % n else (st + 1) % n
    Nx.modify (fun s => match boundTo (graphAt s x.task.graph) .nc k with
      | some d => { s with ringSigs := s.ringSigs ++ [⟨u, d, id, x.task.seq, fld a.toNat 1 1, x.sIssued, x.task⟩] }
      | none => s)
    nextPc u len

/-- NC.RWAIT (R321 to R323, R343). -/
def rwaitInsn (u w len : Nat) : Nx DWord := do
  let a ← Nx.x u (fld w 15 5)
  let v ← Nx.x u (fld w 20 5)
  let x ← Nx.get (fun s => cx s u)
  Nx.legal w (fld w 7 5 == 0 && decide (a.toNat < 2) && decide (v.toNat ≤ 65535) && x.ring.isSome)
  match x.ring with
  | none => illegal w
  | some (id, _, _) => do
    let ovf ← Nx.get (fun s => ringOver s u id)
    Nx.need (!ovf) (.status 0x0706)
    let ok ← (fun s => let r := ringClaim s u id x.task.seq; (.ok r.1, r.2) : Nx Bool)
    let k ← Nx.get (fun s => (ringSlots s u id).find? (fun k => k.tag == x.task.seq))
    match k with
    | some k => if ok && decide (v.toNat ≤ if a = 0 then k.c0 else k.c1) then waitDone u else waitOn u (.ring a.toNat v.toNat)
    | none => waitOn u (.ring a.toNat v.toNat)
    nextPc u len

/-- NC.FENCE (R321, R322): the vector unit has nothing outstanding, since its instructions complete where they stand. -/
def fenceInsn (u w len : Nat) : Nx DWord := do
  let a ← Nx.x u (fld w 15 5)
  let x ← Nx.get (fun s => cx s u)
  Nx.legal w (fld w 7 5 == 0 && fld w 20 5 == 0 && decide (a.toNat < 8))
  Nx.need ((!bitOf a.toNat 0 || mDoneCount x == x.mIssued) && (!bitOf a.toNat 1 || sDoneCount x == x.sIssued)) .stall
  nextPc u len

/-- NC.END retires and ends the task (R320 to R322). -/
def endInsn (u w len : Nat) : Nx DWord := do
  let a ← Nx.x u (fld w 15 5)
  Nx.legal w (fld w 7 5 == 0 && fld w 20 5 == 0)
  if a = 0 then Nx.modify (fun s => endCtx s u 0)
  else Nx.modify (fun s => endCtx (setReg64 s (ncPg u + 0x198) (ncPg u + 0x19C) a.toNat) u 0x0707)
  nextPc u len

/-- The custom instruction of a kind (R321). -/
def customInsn (u op w len : Nat) : Nx DWord :=
  match op with
  | 0 | 1 | 2 | 3 => matrixIssue u op w len
  | 4 => seIssue u w len
  | 5 => waitInsn u w len
  | 6 => lpopInsn u w len
  | 7 => rsigInsn u w len
  | 8 => rwaitInsn u w len
  | 9 => fenceInsn u w len
  | _ => endInsn u w len

/-- Run the instruction at pc of a core if it is the custom instruction `op`. -/
def ncCustom (op : Nat) (s : State) (u : Nat) : State := ncInsn (.custom op) (customInsn u op) s u

end Sys2Proof.Machine
end

