-- ==== Sys2Proof/Machine/Riscv.lean ====
section
/-! DEFINITION. The scalar control core: RV64I, M, A, C, Zicsr and Zifencei in user mode (R315 to R319; encodings and effects are those of the
RISC-V unprivileged specification the rules name, log entry 15). -/

namespace Sys2Proof.Machine
open Sys2Proof

/-! ## Compressed instructions -/

/-- Words of the 32-bit formats. -/
def encR (f7 rs2 rs1 f3 rd op : Nat) : Nat := f7 * 2 ^ 25 + rs2 * 2 ^ 20 + rs1 * 2 ^ 15 + f3 * 2 ^ 12 + rd * 2 ^ 7 + op
def encI (imm : Int) (rs1 f3 rd op : Nat) : Nat := trunc imm 12 * 2 ^ 20 + rs1 * 2 ^ 15 + f3 * 2 ^ 12 + rd * 2 ^ 7 + op
def encS (imm rs2 rs1 f3 : Nat) : Nat := imm / 32 * 2 ^ 25 + rs2 * 2 ^ 20 + rs1 * 2 ^ 15 + f3 * 2 ^ 12 + imm % 32 * 2 ^ 7 + 0x23
def encU (imm : Int) (rd op : Nat) : Nat := trunc imm 20 * 2 ^ 12 + rd * 2 ^ 7 + op
def encB (imm : Int) (rs1 f3 : Nat) : Nat :=
  let i := trunc imm 13
  fld i 12 1 * 2 ^ 31 + fld i 5 6 * 2 ^ 25 + rs1 * 2 ^ 15 + f3 * 2 ^ 12 + fld i 1 4 * 2 ^ 8 + fld i 11 1 * 2 ^ 7 + 0x63
def encJ (imm : Int) (rd : Nat) : Nat :=
  let i := trunc imm 21
  fld i 20 1 * 2 ^ 31 + fld i 1 10 * 2 ^ 21 + fld i 11 1 * 2 ^ 20 + fld i 12 8 * 2 ^ 12 + rd * 2 ^ 7 + 0x6F

/-- Signed 6-bit immediate of the CI format. -/
def ciImm (w : Nat) : Int := sext (fld w 2 5 + 32 * fld w 12 1) 6

/-- Quadrant 0 of the C extension. -/
def expand0 (w : Nat) : Option Nat :=
  let rd := 8 + fld w 2 3
  let rs := 8 + fld w 7 3
  let i4 := fld w 5 6 / 2
  let ow := fld w 6 1 * 4 + fld w 10 3 * 8 + fld w 5 1 * 64
  let od := fld w 10 3 * 8 + fld w 5 2 * 64
  let _ := i4
  match fld w 13 3 with
  | 0 =>
    let im := fld w 11 2 * 16 + fld w 7 4 * 64 + fld w 6 1 * 4 + fld w 5 1 * 8
    if im = 0 then none else some (encI im 2 0 rd 0x13)
  | 2 => some (encI ow rs 2 rd 0x03)
  | 3 => some (encI od rs 3 rd 0x03)
  | 6 => some (encS ow rd rs 2)
  | 7 => some (encS od rd rs 3)
  | _ => none

/-- Quadrant 1. -/
def expand1 (w : Nat) : Option Nat :=
  let rd := fld w 7 5
  let r1 := 8 + fld w 7 3
  let r2 := 8 + fld w 2 3
  let im := ciImm w
  let sh := fld w 2 5 + 32 * fld w 12 1
  let bo : Int := sext (fld w 3 2 * 2 + fld w 10 2 * 8 + fld w 2 1 * 32 + fld w 5 2 * 64 + fld w 12 1 * 256) 9
  let jo : Int := sext (fld w 3 3 * 2 + fld w 11 1 * 16 + fld w 2 1 * 32 + fld w 7 1 * 64 + fld w 6 1 * 128 + fld w 9 2 * 256 +
    fld w 8 1 * 1024 + fld w 12 1 * 2048) 12
  match fld w 13 3 with
  | 0 => some (encI im rd 0 rd 0x13)
  | 1 => if rd = 0 then none else some (encI im rd 0 rd 0x1B)
  | 2 => some (encI im 0 0 rd 0x13)
  | 3 =>
    if rd = 2 then
      let a : Int := sext (fld w 6 1 * 16 + fld w 2 1 * 32 + fld w 5 1 * 64 + fld w 3 2 * 128 + fld w 12 1 * 512) 10
      if a = 0 then none else some (encI a 2 0 2 0x13)
    else if im = 0 then none else some (encU im rd 0x37)
  | 4 => match fld w 10 2 with
    | 0 => some (encI sh r1 5 r1 0x13)
    | 1 => some (encI (sh + 0x400) r1 5 r1 0x13)
    | 2 => some (encI im r1 7 r1 0x13)
    | _ => match fld w 12 1, fld w 5 2 with
      | 0, 0 => some (encR 0x20 r2 r1 0 r1 0x33)
      | 0, 1 => some (encR 0 r2 r1 4 r1 0x33)
      | 0, 2 => some (encR 0 r2 r1 6 r1 0x33)
      | 0, _ => some (encR 0 r2 r1 7 r1 0x33)
      | _, 0 => some (encR 0x20 r2 r1 0 r1 0x3B)
      | _, 1 => some (encR 0 r2 r1 0 r1 0x3B)
      | _, _ => none
  | 5 => some (encJ jo 0)
  | 6 => some (encB bo r1 0)
  | _ => some (encB bo r1 1)

/-- Quadrant 2. -/
def expand2 (w : Nat) : Option Nat :=
  let rd := fld w 7 5
  let rs2 := fld w 2 5
  let lw := fld w 4 3 * 4 + fld w 12 1 * 32 + fld w 2 2 * 64
  let ld := fld w 5 2 * 8 + fld w 12 1 * 32 + fld w 2 3 * 64
  let sw := fld w 9 4 * 4 + fld w 7 2 * 64
  let sd := fld w 10 3 * 8 + fld w 7 3 * 64
  match fld w 13 3 with
  | 0 => some (encI (fld w 2 5 + 32 * fld w 12 1 : Nat) rd 1 rd 0x13)
  | 2 => if rd = 0 then none else some (encI lw 2 2 rd 0x03)
  | 3 => if rd = 0 then none else some (encI ld 2 3 rd 0x03)
  | 4 =>
    if fld w 12 1 = 0 then
      (if rs2 = 0 then (if rd = 0 then none else some (encI 0 rd 0 0 0x67)) else some (encR 0 rs2 0 0 rd 0x33))
    else if rs2 = 0 then (if rd = 0 then some 0x0010_0073 else some (encI 0 rd 0 1 0x67))
    else some (encR 0 rs2 rd 0 rd 0x33)
  | 6 => some (encS sw rs2 2 2)
  | 7 => some (encS sd rs2 2 3)
  | _ => none

/-- The 32-bit instruction a compressed one stands for; none where it is illegal. -/
def expandC (w : Nat) : Option Nat :=
  if w = 0 then none
  else match w % 4 with
    | 0 => expand0 w
    | 1 => expand1 w
    | _ => expand2 w

/-! ## Arithmetic -/

/-- Sign-extend the low word. -/
def sx32 (v : DWord) : DWord := (v.truncate 32).signExtend 64

/-- OP and OP-IMM on 64 bits: funct3, alternate form, operands. -/
def aluOp (f3 : Nat) (alt : Bool) (a b : DWord) : DWord :=
  match f3 with
  | 0 => if alt then a - b else a + b
  | 1 => a <<< (b.toNat % 64)
  | 2 => if a.slt b then 1 else 0
  | 3 => if a.ult b then 1 else 0
  | 4 => a ^^^ b
  | 5 => if alt then a.sshiftRight (b.toNat % 64) else a >>> (b.toNat % 64)
  | 6 => a ||| b
  | _ => a &&& b

/-- OP-32 and OP-IMM-32. -/
def aluOpW (f3 : Nat) (alt : Bool) (a b : DWord) : DWord :=
  let x := a.truncate 32
  let k := b.toNat % 32
  match f3 with
  | 0 => sx32 (if alt then a - b else a + b)
  | 1 => (x <<< k).signExtend 64
  | _ => if alt then (x.sshiftRight k).signExtend 64 else (x >>> k).signExtend 64

/-- Division and remainder of w-bit values with the results of division by zero and of overflow. -/
def divOp (w : Nat) (sgn rem : Bool) (a b : Nat) : Nat :=
  if b = 0 then (if rem then a else 2 ^ w - 1)
  else if sgn then trunc (if rem then (sext a w).tmod (sext b w) else (sext a w).tdiv (sext b w)) w
  else if rem then a % b else a / b

/-- The M extension on 64 bits. -/
def mulOp (f3 : Nat) (a b : DWord) : DWord :=
  match f3 with
  | 0 => a * b
  | 1 => BitVec.ofInt 64 (a.toInt * b.toInt / 2 ^ 64)
  | 2 => BitVec.ofInt 64 (a.toInt * (b.toNat : Int) / 2 ^ 64)
  | 3 => BitVec.ofNat 64 (a.toNat * b.toNat / 2 ^ 64)
  | k => BitVec.ofNat 64 (divOp 64 (k % 2 = 0) (decide (6 ≤ k)) a.toNat b.toNat)

/-- The M extension on words. -/
def mulOpW (f3 : Nat) (a b : DWord) : DWord :=
  match f3 with
  | 0 => sx32 (a * b)
  | k => (BitVec.ofNat 32 (divOp 32 (k % 2 = 0) (decide (6 ≤ k)) (a.toNat % 2 ^ 32) (b.toNat % 2 ^ 32))).signExtend 64

/-- Is a branch taken. -/
def branchOn (f3 : Nat) (a b : DWord) : Bool :=
  match f3 with
  | 0 => a == b
  | 1 => a != b
  | 4 => a.slt b
  | 5 => !a.slt b
  | 6 => a.ult b
  | _ => !a.ult b

/-- What an AMO stores, from memory and register, on w bits. -/
def amoOp (f5 w a b : Nat) : Nat :=
  match f5 with
  | 0x01 => b
  | 0x00 => (a + b) % 2 ^ w
  | 0x04 => a ^^^ b
  | 0x0C => a &&& b
  | 0x08 => a ||| b
  | 0x10 => if sext a w ≤ sext b w then a else b
  | 0x14 => if sext b w ≤ sext a w then a else b
  | 0x18 => min a b
  | _ => max a b

/-! ## Control and status registers -/

/-- vcsr from its two fields. -/
def vcsrOf (x : Ctx) : Nat := x.vxsat + 2 * x.vxrm

/-- Read a CSR (R314, R315); an absent one is an illegal instruction. -/
def csrRead (u n w : Nat) : Nx Nat := do
  let x ← Nx.get (fun s => cx s u)
  let rex ← Nx.get (fun s => rexActive s)
  match n with
  | 0x001 => pure (x.fcsr % 32)
  | 0x002 => pure (x.fcsr / 32 % 8)
  | 0x003 => pure x.fcsr
  | 0x008 => pure x.vstart
  | 0x009 => pure x.vxsat
  | 0x00A => pure x.vxrm
  | 0x00F => pure (vcsrOf x)
  | 0x800 => pure x.ids
  | 0xC20 => pure x.vl
  | 0xC21 => pure (if x.vill then 2 ^ 63 else x.vtype)
  | 0xC22 => pure 256
  | 0xCC0 => pure x.task.seq.toNat
  | 0xCC1 => pure x.bufW
  | 0xCC2 => pure (x.flow % 65536 + x.tile % 2 ^ 32 * 65536)
  | 0xCC3 => pure x.seed
  | _ =>
    if decide (0xC00 ≤ n) && decide (n ≤ 0xC1F) then do
      Nx.legal w (!x.rex && !rex)
      match n with
      | 0xC00 => Nx.free
      | 0xC01 => Nx.get now
      | 0xC02 => pure x.instret
      | _ => pure 0
    else illegal w

/-- Write a CSR; one that is absent or read-only is an illegal instruction. -/
def csrWrite (u n w v : Nat) : Nx Unit :=
  let put := fun (f : Ctx → Ctx) => Nx.modify (fun s => modCx s u f)
  match n with
  | 0x001 => put (fun x => { x with fcsr := x.fcsr / 32 * 32 + v % 32 })
  | 0x002 => put (fun x => { x with fcsr := x.fcsr % 32 + v % 8 * 32 })
  | 0x003 => put (fun x => { x with fcsr := v % 256 })
  | 0x008 => put (fun x => { x with vstart := v % 2048 })
  | 0x009 => put (fun x => { x with vxsat := v % 2 })
  | 0x00A => put (fun x => { x with vxrm := v % 4 })
  | 0x00F => put (fun x => { x with vxsat := v % 2, vxrm := v / 2 % 4 })
  | 0x800 => put (fun x => { x with ids := v % 2 ^ 48 })
  | _ => illegal w

/-- The Zicsr instructions. -/
def csrInsn (u w len : Nat) : Nx DWord := do
  let n := fld w 20 12
  let f3 := fld w 12 3
  let rs := fld w 15 5
  let src ← if 4 ≤ f3 then pure (BitVec.ofNat 64 rs) else Nx.x u rs
  let wr := f3 % 4 == 1 || rs != 0
  Nx.legal w (!(wr && decide (0xC00 ≤ n)))
  let old ← if f3 % 4 = 1 ∧ fld w 7 5 = 0 then pure 0 else csrRead u n w
  let new := match f3 % 4 with
    | 1 => src.toNat
    | 2 => old ||| src.toNat
    | _ => old &&& (~~~src).toNat
  if wr then csrWrite u n w new else pure ()
  Nx.setX u (fld w 7 5) (BitVec.ofNat 64 old)
  nextPc u len

/-! ## Atomics -/

/-- LR, SC and the AMOs, on narrow-view addresses (R318). -/
def amoInsn (u w len : Nat) : Nx DWord := do
  let f5 := fld w 27 5
  let n := if fld w 12 3 = 2 then 4 else 8
  let rd := fld w 7 5
  let a ← Nx.x u (fld w 15 5)
  let b ← Nx.x u (fld w 20 5)
  let sx := fun (v : Nat) => BitVec.ofInt 64 (sext v (8 * n))
  Nx.legal w ((fld w 12 3 == 2 || fld w 12 3 == 3) && [0, 1, 2, 3, 4, 8, 12, 16, 20, 24, 28].contains f5 && (f5 != 2 || fld w 20 5 == 0))
  let o ← amoAddr u a.toNat n (if f5 = 2 then 4 else 6)
  match f5 with
  | 2 => do
    let v ← Nx.lift (spRead u o n) spStop
    Nx.modify (fun s => modCx s u (fun x => setX rd (sx (leNat v)) { x with resv := some (o, n) }))
  | 3 => do
    let r ← Nx.get (fun s => (cx s u).resv)
    if r = some (o, n) then Nx.lift (spWrite u o (natLe n b.toNat)) spStop else pure ()
    Nx.modify (fun s => modCx s u (fun x => setX rd (if r = some (o, n) then 0 else 1) { x with resv := none }))
  | _ => do
    let v ← Nx.lift (spRead u o n) spStop
    Nx.lift (spWrite u o (natLe n (amoOp f5 (8 * n) (leNat v) (b.toNat % 2 ^ (8 * n))))) spStop
    Nx.setX u rd (sx (leNat v))
  nextPc u len

/-! ## One instruction -/

/-- Immediates. -/
def immI (w : Nat) : DWord := BitVec.ofInt 64 (sext (fld w 20 12) 12)
def immS (w : Nat) : DWord := BitVec.ofInt 64 (sext (fld w 7 5 + 32 * fld w 25 7) 12)
def immB (w : Nat) : DWord :=
  BitVec.ofInt 64 (sext (fld w 8 4 * 2 + fld w 25 6 * 32 + fld w 7 1 * 2048 + fld w 31 1 * 4096) 13)
def immU (w : Nat) : DWord := BitVec.ofInt 64 (sext (fld w 12 20 * 4096) 32)
def immJ (w : Nat) : DWord :=
  BitVec.ofInt 64 (sext (fld w 21 10 * 2 + fld w 20 1 * 2048 + fld w 12 8 * 4096 + fld w 31 1 * 2 ^ 20) 21)

/-- Is an OP-IMM shift's upper field legal, for 6-bit or 5-bit amounts. -/
def shiftOk (w f3 k : Nat) : Bool :=
  let hi := fld w (20 + k) (12 - k)
  if f3 = 1 then hi == 0 else hi == 0 || hi == 2 ^ (10 - k)

/-- One 32-bit scalar instruction; `raw` holds the bits fetched, for tval. -/
def scalar32 (u w raw len : Nat) : Nx DWord := do
  let rd := fld w 7 5
  let f3 := fld w 12 3
  let f7 := fld w 25 7
  let pc ← Nx.get (fun s => (cx s u).pc)
  let a ← Nx.x u (fld w 15 5)
  let b ← Nx.x u (fld w 20 5)
  let done := fun (v : DWord) => (do
    Nx.setX u rd v
    nextPc u len : Nx DWord)
  match fld w 0 7 with
  | 0x37 => done (immU w)
  | 0x17 => done (pc + immU w)
  | 0x6F => do
    Nx.setX u rd (pc + BitVec.ofNat 64 len)
    pure (pc + immJ w)
  | 0x67 => do
    Nx.legal raw (f3 == 0)
    Nx.setX u rd (pc + BitVec.ofNat 64 len)
    pure ((a + immI w) &&& ~~~1)
  | 0x63 => do
    Nx.legal raw (f3 != 2 && f3 != 3)
    if branchOn f3 a b then pure (pc + immB w) else nextPc u len
  | 0x03 => do
    Nx.legal raw (f3 != 7)
    let n := 2 ^ (f3 % 4)
    let v ← scalarLoad u (a + immI w).toNat n
    done (if 4 ≤ f3 then BitVec.ofNat 64 v else BitVec.ofInt 64 (sext v (8 * n)))
  | 0x23 => do
    Nx.legal raw (decide (f3 < 4))
    scalarStore u (a + immS w).toNat (2 ^ f3) b.toNat
    nextPc u len
  | 0x13 => do
    Nx.legal raw (!(f3 == 1 || f3 == 5) || shiftOk w f3 6)
    done (aluOp f3 (f3 == 5 && bitOf w 30) a (immI w))
  | 0x1B => do
    Nx.legal raw (f3 == 0 || ((f3 == 1 || f3 == 5) && shiftOk w f3 5))
    done (aluOpW f3 (f3 == 5 && bitOf w 30) a (immI w))
  | 0x33 => do
    Nx.legal raw (f7 == 0 || f7 == 1 || (f7 == 0x20 && (f3 == 0 || f3 == 5)))
    done (if f7 = 1 then mulOp f3 a b else aluOp f3 (f7 == 0x20) a b)
  | 0x3B => do
    Nx.legal raw ((f7 == 0 && (f3 == 0 || f3 == 1 || f3 == 5)) || (f7 == 1 && (f3 == 0 || decide (4 ≤ f3))) || (f7 == 0x20 && (f3 == 0 || f3 == 5)))
    done (if f7 = 1 then mulOpW f3 a b else aluOpW f3 (f7 == 0x20) a b)
  | 0x0F => do
    Nx.legal raw (f3 == 0 || f3 == 1)
    nextPc u len
  | 0x2F => amoInsn u w len
  | 0x73 => match f3 with
    | 0 => if w = 0x73 then Nx.stop (.trap 8 0) else if w = 0x0010_0073 then Nx.stop (.trap 3 pc.toNat) else illegal raw
    | 4 => illegal raw
    | _ => csrInsn u w len
  | _ => illegal raw

/-- One scalar instruction of either length. -/
def scalarInsn (u w len : Nat) : Nx DWord :=
  if len = 2 then (match expandC w with
    | some v => scalar32 u v w 2
    | none => illegal w)
  else scalar32 u w w 4

/-- SCALAR_INSTRUCTION: the instruction at pc of a core, if it is a scalar one or none the core knows. -/
def scalarAct (s : State) (u : Nat) : State := ncInsn .scalar (scalarInsn u) s u

end Sys2Proof.Machine
end

