-- ==== Sys2Proof/Machine/RvvElem.lean ====
section
/-! DEFINITION. Element operations of the vector unit: integer, fixed-point and floating-point (R336, R370; effects are those of RVV 1.0, log entry 15). -/

namespace Sys2Proof.Machine
open Sys2Proof

/-- What an element operation answers: the result, and flags: bits 4 to 0 those of fflags, bit 5 vxsat. -/
abbrev ERes := Nat × Nat

/-- An element operation: old destination, vs2 and vs1 elements. -/
abbrev EOp := Nat → Nat → Nat → ERes

/-- A result without flags. -/
def plain (f : Nat → Nat → Nat) : EOp := fun _ a b => (f a b, 0)

/-! ## Fixed point -/

/-- roundoff of RVV 1.0 under vxrm: v shifted right by d. -/
def roundoff (rm : Nat) (v : Int) (d : Nat) : Int :=
  if d = 0 then v
  else
    let q := v / (2 ^ d : Nat)
    let low := (v % (2 ^ d : Nat)).toNat
    let half := 2 ^ (d - 1)
    let r := match rm with
      | 0 => decide (half ≤ low)
      | 1 => decide (half < low) || (low == half && q % 2 == 1)
      | 2 => false
      | _ => decide (low ≠ 0) && q % 2 == 0
    if r then q + 1 else q

/-- A value clipped to a signed or unsigned width, with vxsat. -/
def clip (sgn : Bool) (w : Nat) (v : Int) : ERes :=
  let lo : Int := if sgn then -(2 ^ (w - 1) : Nat) else 0
  let hi : Int := if sgn then (2 ^ (w - 1) : Nat) - 1 else (2 ^ w : Nat) - 1
  (trunc (clampI lo hi v) w, if v < lo ∨ hi < v then 32 else 0)

/-! ## Integer operations by funct6 -/

/-- Single-width operations of OPI (funct6), for SEW w and vxrm. -/
def opiElem (w rm f6 : Nat) : Option EOp :=
  let m := 2 ^ w
  let s := fun (x : Nat) => sext x w
  match f6 with
  | 0x00 => some (plain (fun a b => (a + b) % m))
  | 0x02 => some (plain (fun a b => (a + m - b) % m))
  | 0x03 => some (plain (fun a b => (b + m - a) % m))
  | 0x04 => some (plain (fun a b => min a b))
  | 0x05 => some (plain (fun a b => if s a ≤ s b then a else b))
  | 0x06 => some (plain (fun a b => max a b))
  | 0x07 => some (plain (fun a b => if s b ≤ s a then a else b))
  | 0x09 => some (plain (fun a b => a &&& b))
  | 0x0A => some (plain (fun a b => a ||| b))
  | 0x0B => some (plain (fun a b => a ^^^ b))
  | 0x20 => some (fun _ a b => clip false w ((a : Int) + b))
  | 0x21 => some (fun _ a b => clip true w (s a + s b))
  | 0x22 => some (fun _ a b => clip false w ((a : Int) - b))
  | 0x23 => some (fun _ a b => clip true w (s a - s b))
  | 0x25 => some (plain (fun a b => (a * 2 ^ (b % w)) % m))
  | 0x27 => some (fun _ a b => clip true w (roundoff rm (s a * s b) (w - 1)))
  | 0x28 => some (plain (fun a b => a / 2 ^ (b % w)))
  | 0x29 => some (plain (fun a b => trunc (s a / (2 ^ (b % w) : Nat)) w))
  | 0x2A => some (plain (fun a b => trunc (roundoff rm a (b % w)) w))
  | 0x2B => some (plain (fun a b => trunc (roundoff rm (s a) (b % w)) w))
  | _ => none

/-- Narrowing operations of OPI: vs2 has 2 SEW. -/
def narrowElem (w rm f6 : Nat) : Option EOp :=
  let s := fun (x : Nat) => sext x (2 * w)
  match f6 with
  | 0x2C => some (plain (fun a b => (a / 2 ^ (b % (2 * w))) % 2 ^ w))
  | 0x2D => some (plain (fun a b => trunc (s a / (2 ^ (b % (2 * w)) : Nat)) w))
  | 0x2E => some (fun _ a b => clip false w (roundoff rm a (b % (2 * w))))
  | 0x2F => some (fun _ a b => clip true w (roundoff rm (s a) (b % (2 * w))))
  | _ => none

/-- Comparisons of OPI. -/
def cmpElem (w f6 : Nat) : Option (Nat → Nat → Bool) :=
  let s := fun (x : Nat) => sext x w
  match f6 with
  | 0x18 => some (fun a b => a == b)
  | 0x19 => some (fun a b => a != b)
  | 0x1A => some (fun a b => decide (a < b))
  | 0x1B => some (fun a b => decide (s a < s b))
  | 0x1C => some (fun a b => decide (a ≤ b))
  | 0x1D => some (fun a b => decide (s a ≤ s b))
  | 0x1E => some (fun a b => decide (b < a))
  | 0x1F => some (fun a b => decide (s b < s a))
  | _ => none

/-- Single-width operations of OPM. -/
def opmElem (w rm f6 : Nat) : Option EOp :=
  let m := 2 ^ w
  let s := fun (x : Nat) => sext x w
  match f6 with
  | 0x08 => some (plain (fun a b => trunc (roundoff rm ((a : Int) + b) 1) w))
  | 0x09 => some (plain (fun a b => trunc (roundoff rm (s a + s b) 1) w))
  | 0x0A => some (plain (fun a b => trunc (roundoff rm ((a : Int) - b) 1) w))
  | 0x0B => some (plain (fun a b => trunc (roundoff rm (s a - s b) 1) w))
  | 0x20 => some (plain (fun a b => divOp w false false a b))
  | 0x21 => some (plain (fun a b => divOp w true false a b))
  | 0x22 => some (plain (fun a b => divOp w false true a b))
  | 0x23 => some (plain (fun a b => divOp w true true a b))
  | 0x24 => some (plain (fun a b => a * b / m))
  | 0x25 => some (plain (fun a b => a * b % m))
  | 0x26 => some (plain (fun a b => trunc (s a * (b : Int) / (m : Nat)) w))
  | 0x27 => some (plain (fun a b => trunc (s a * s b / (m : Nat)) w))
  | 0x29 => some (fun d a b => (trunc ((b * d : Nat) + (a : Int)) w, 0))
  | 0x2B => some (fun d a b => (trunc ((a : Int) - (b * d : Nat)) w, 0))
  | 0x2D => some (fun d a b => (trunc ((b * a : Nat) + (d : Int)) w, 0))
  | 0x2F => some (fun d a b => (trunc ((d : Int) - (b * a : Nat)) w, 0))
  | _ => none

/-- Widening operations of OPM: the destination has 2 SEW, and vs2 too where `wide2` says so. -/
def wideElem (w f6 : Nat) : Option (Bool × EOp) :=
  let s := fun (x : Nat) => sext x w
  let t := fun (v : Int) => trunc v (2 * w)
  let one := fun (f : Nat → Nat → Int) => some (false, plain (fun a b => t (f a b)))
  let two := fun (f : Nat → Nat → Int) => some (true, plain (fun a b => t (f a b)))
  match f6 with
  | 0x30 => one (fun a b => (a : Int) + b)
  | 0x31 => one (fun a b => s a + s b)
  | 0x32 => one (fun a b => (a : Int) - b)
  | 0x33 => one (fun a b => s a - s b)
  | 0x34 => two (fun a b => (a : Int) + b)
  | 0x35 => two (fun a b => (a : Int) + s b)
  | 0x36 => two (fun a b => (a : Int) - b)
  | 0x37 => two (fun a b => (a : Int) - s b)
  | 0x38 => one (fun a b => (a : Int) * b)
  | 0x3A => one (fun a b => s a * b)
  | 0x3B => one (fun a b => s a * s b)
  | 0x3C => some (false, fun d a b => (t ((d : Int) + (b : Int) * a), 0))
  | 0x3D => some (false, fun d a b => (t ((d : Int) + s b * s a), 0))
  | 0x3E => some (false, fun d a b => (t ((d : Int) + (b : Int) * s a), 0))
  | 0x3F => some (false, fun d a b => (t ((d : Int) + s b * (a : Int)), 0))
  | _ => none

/-- Integer reductions: accumulator and element. -/
def redElem (w f6 : Nat) : Option (Nat → Nat → Nat) :=
  let s := fun (x : Nat) => sext x w
  match f6 with
  | 0 => some (fun a b => (a + b) % 2 ^ w)
  | 1 => some (fun a b => a &&& b)
  | 2 => some (fun a b => a ||| b)
  | 3 => some (fun a b => a ^^^ b)
  | 4 => some min
  | 5 => some (fun a b => if s a ≤ s b then a else b)
  | 6 => some max
  | 7 => some (fun a b => if s b ≤ s a then a else b)
  | _ => none

/-! ## Floating point -/

/-- The format of a SEW (R336). -/
def sewFmt (w : Nat) : Option FFmt := if w = 16 then some fFP16 else if w = 32 then some fFP32 else none

/-- Is a code a NaN. -/
def isNan (f : FFmt) (a : Nat) : Bool := match fdec f a with | .nan _ => true | _ => false

/-- minimumNumber and maximumNumber, with -0 below +0. -/
def fminmax (f : FFmt) (mx : Bool) (a b : Nat) : ERes :=
  let fl := snanFlag f [a, b]
  if isNan f a && isNan f b then (cnan f, fl)
  else if isNan f a then (b, fl)
  else if isNan f b then (a, fl)
  else
    let c := fcmpVal (fdec f a) (fdec f b)
    let lt := decide (c < 0) || (c == 0 && bitOf a (f.eb + f.mb))
    (if lt != mx then a else b, fl)

/-- Comparisons: equal, less or equal, less, not equal; the ordered ones signal on any NaN. -/
def fcmpOp (f : FFmt) (f6 a b : Nat) : Bool × Nat :=
  let nan := isNan f a || isNan f b
  let c := fcmpVal (fdec f a) (fdec f b)
  let quiet := snanFlag f [a, b]
  let sig := if nan then ffNV else 0
  match f6 with
  | 0x18 => (!nan && c == 0, quiet)
  | 0x19 => (!nan && decide (c ≤ 0), sig)
  | 0x1B => (!nan && decide (c < 0), sig)
  | _ => (nan || c != 0, quiet)

/-- fclass of a code. -/
def fclass (f : FFmt) (a : Nat) : Nat :=
  let sub := fun (n : Bool) (m : Nat) => if m = 0 then (if n then 8 else 16) else if a % 2 ^ (f.eb + f.mb) < 2 ^ f.mb then (if n then 4 else 32) else (if n then 2 else 64)
  match fdec f a with
  | .inf n => if n then 1 else 128
  | .nan _ => if isSnan f a then 256 else 512
  | .fin n m _ => sub n m

/-- Entry i of the reciprocal table: the value at the middle of the i-th of 128 intervals, rounded to 7 bits. -/
def rec7Entry (i : Nat) : Nat := ((255 - 2 * i) * 256 + (257 + 2 * i)) / (2 * (257 + 2 * i))

/-- Entry i of the reciprocal square root table. -/
def rsq7Entry (i : Nat) : Nat := (Nat.sqrt (4 * (if i < 64 then 2 ^ 22 else 2 ^ 23) / (129 + 2 * (i % 64))) + 1) / 2 - 128

/-- Exponent and fraction of a non-zero finite code, a subnormal normalised with its exponent below 1. -/
def normParts (f : FFmt) (a : Nat) : Int × Nat :=
  let mag := a % 2 ^ (f.eb + f.mb)
  let e := mag / 2 ^ f.mb
  let m := mag % 2 ^ f.mb
  if e ≠ 0 then (e, m)
  else
    let k := f.mb - lg2 m
    (1 - (k : Int), m * 2 ^ k % 2 ^ f.mb)

/-- vfrec7. -/
def frec7 (f : FFmt) (md : Rm) (a : Nat) : ERes :=
  match fdec f a with
  | .nan _ => (cnan f, snanFlag f [a])
  | .inf n => (signed f n 0, 0)
  | .fin n 0 _ => (signed f n f.infCode, ffDZ)
  | .fin n _ _ =>
    let (e, m) := normParts f a
    if e < -1 then
      let fin := match md with | .rtz => true | .rdn => !n | .rup => n | _ => false
      (signed f n (if fin then f.maxFin else f.infCode), ffOF ||| ffNX)
    else
      let sig := rec7Entry (m / 2 ^ (f.mb - 7)) * 2 ^ (f.mb - 7)
      let o := 2 * f.bias - 1 - e
      if 0 < o then (signed f n (o.toNat * 2 ^ f.mb + sig), 0)
      else (signed f n ((2 ^ f.mb + sig) / 2 ^ (1 - o).toNat), 0)

/-- vfrsqrt7. -/
def frsqrt7 (f : FFmt) (a : Nat) : ERes :=
  match fdec f a with
  | .nan _ => (cnan f, snanFlag f [a])
  | .fin n 0 _ => (signed f n f.infCode, ffDZ)
  | .inf false => (0, 0)
  | .inf true => (cnan f, ffNV)
  | .fin true _ _ => (cnan f, ffNV)
  | .fin false _ _ =>
    let (e, m) := normParts f a
    let sig := rsq7Entry ((e % 2).toNat * 64 + m / 2 ^ (f.mb - 6)) * 2 ^ (f.mb - 7)
    (((3 * f.bias - 1 - e) / 2).toNat * 2 ^ f.mb + sig, 0)

/-- A multiply-add with signs: sp negates the product, sc the addend. -/
def fmaSigned (f g : FFmt) (md : Rm) (sp sc : Bool) (a b c : Nat) : ERes :=
  ffma f g md (if sp then fneg f a else a) b (if sc then fneg g c else c)

/-- Single-width vector-vector operations of OPF. -/
def opfElem (f : FFmt) (md : Rm) (f6 : Nat) : Option EOp :=
  let sb := 2 ^ (f.eb + f.mb)
  match f6 with
  | 0x00 => some (fun _ a b => fadd f md a b)
  | 0x02 => some (fun _ a b => fadd f md a (fneg f b))
  | 0x04 => some (fun _ a b => fminmax f false a b)
  | 0x06 => some (fun _ a b => fminmax f true a b)
  | 0x08 => some (plain (fun a b => a % sb + b / sb * sb))
  | 0x09 => some (plain (fun a b => a % sb + (1 - b / sb) * sb))
  | 0x0A => some (plain (fun a b => a ^^^ (b / sb * sb)))
  | 0x20 => some (fun _ a b => fdiv f md a b)
  | 0x24 => some (fun _ a b => fmul f md a b)
  | 0x28 => some (fun d a b => fmaSigned f f md false false d b a)
  | 0x29 => some (fun d a b => fmaSigned f f md true true d b a)
  | 0x2A => some (fun d a b => fmaSigned f f md false true d b a)
  | 0x2B => some (fun d a b => fmaSigned f f md true false d b a)
  | 0x2C => some (fun d a b => fmaSigned f f md false false b a d)
  | 0x2D => some (fun d a b => fmaSigned f f md true true b a d)
  | 0x2E => some (fun d a b => fmaSigned f f md false true b a d)
  | 0x2F => some (fun d a b => fmaSigned f f md true false b a d)
  | _ => none

/-- Widen a code exactly. -/
def fwiden (a : Nat) : ERes := ftof fFP16 fFP32 .rne a

/-- Widening vector-vector operations of OPF from SEW 16, vs2 wide where said. -/
def opfWide (md : Rm) (f6 : Nat) : Option (Bool × EOp) :=
  let bin := fun (neg wide2 : Bool) (op : Nat → Nat → ERes) => some (wide2, (fun _ a b =>
    let x := if wide2 then (a, 0) else fwiden a
    let y := fwiden b
    let r := op x.1 (if neg then fneg fFP32 y.1 else y.1)
    (r.1, x.2 ||| y.2 ||| r.2) : EOp))
  let mac := fun (f : FFmt) (sp sc : Bool) => some (false, (fun d a b => fmaSigned f fFP32 md sp sc b a d : EOp))
  match f6 with
  | 0x30 => bin false false (fadd fFP32 md)
  | 0x32 => bin true false (fadd fFP32 md)
  | 0x34 => bin false true (fadd fFP32 md)
  | 0x36 => bin true true (fadd fFP32 md)
  | 0x38 => bin false false (fmul fFP32 md)
  | 0x3B => mac fBF16 false false
  | 0x3C => mac fFP16 false false
  | 0x3D => mac fFP16 true true
  | 0x3E => mac fFP16 false true
  | 0x3F => mac fFP16 true false
  | _ => none

/-- A conversion to another format rounding to odd. -/
def ftofOdd (f g : FFmt) (a : Nat) : ERes :=
  let r := ftof f g .rtz a
  if r.2 &&& ffNX = 0 then r else (r.1 ||| 1, r.2)

/-- A float code to an integer of w bits. -/
def fToInt (f : FFmt) (md : Rm) (sgn : Bool) (w a : Nat) : ERes := let r := ftoi md sgn w (fdec f a); (trunc r.1 w, r.2)

/-- An integer of w bits to a float code. -/
def intToF (f : FFmt) (md : Rm) (sgn : Bool) (w a : Nat) : ERes := itof f md (if sgn then sext a w else a)

/-- The conversions of VFUNARY0 by the vs1 field: source width, destination width, operation (R336, R370). -/
def convElemV (w : Nat) (md : Rm) (k : Nat) : Option (Nat × Nat × (Nat → ERes)) :=
  let t := k % 8
  let md2 := if 6 ≤ t then Rm.rtz else md
  let sgn := t % 2 == 1
  match k / 8, t with
  | 0, 2 | 0, 3 => (sewFmt w).map (fun f => (w, w, intToF f md sgn w))
  | 0, 4 | 0, 5 => none
  | 0, _ => (sewFmt w).map (fun f => (w, w, fToInt f md2 sgn w))
  | 1, 2 | 1, 3 => if w ≤ 16 then (sewFmt (2 * w)).map (fun f => (w, 2 * w, intToF f md sgn w)) else none
  | 1, 4 => if w = 16 then some (16, 32, fwiden) else none
  | 1, 5 => if w = 16 then some (16, 32, ftof fBF16 fFP32 .rne) else none
  | 1, _ => (sewFmt w).map (fun f => (w, 2 * w, fToInt f md2 sgn (2 * w)))
  | 2, 2 | 2, 3 => (sewFmt w).map (fun f => (2 * w, w, intToF f md sgn (2 * w)))
  | 2, 4 => if w = 16 then some (32, 16, ftof fFP32 fFP16 md) else none
  | 2, 5 => if w = 16 then some (32, 16, ftofOdd fFP32 fFP16) else none
  | 2, _ => if w ≤ 16 then (sewFmt (2 * w)).map (fun f => (2 * w, w, fToInt f md2 sgn w)) else none
  | 3, 5 => if w = 16 then some (32, 16, ftof fFP32 fBF16 md) else none
  | _, _ => none

end Sys2Proof.Machine
end

