-- ==== Sys2Proof/Machine/Rvv.lean ====
section
/-! DEFINITION. The vector unit: configuration, operand groups, arithmetic, reductions, masks, permutations and memory instructions (R336 to R338,
R370, R371; effects are those of RVV 1.0, log entry 15; what RVV leaves agnostic or open is a free value, log entry 17). -/

namespace Sys2Proof.Machine
open Sys2Proof

/-- Bits of a vector register (R336). -/
def vlenBits : Nat := 2048

/-- SEW of a vtype, LMUL times 8 (0 where reserved), and whether the two go together (R336). -/
def vtSew (t : Nat) : Nat := 8 * 2 ^ fld t 3 3
def vtLmul8 (t : Nat) : Nat := match t % 8 with | 0 => 8 | 1 => 16 | 2 => 32 | 3 => 64 | 5 => 1 | 6 => 2 | 7 => 4 | _ => 0
def vtOk (t : Nat) : Bool := decide (t < 256) && decide (fld t 3 3 ≤ 3) && decide (vtSew t ≤ 8 * vtLmul8 t)
def vlMax (t : Nat) : Nat := vtLmul8 t * vlenBits / (8 * vtSew t)

/-- Element i of a register group. -/
def vget (v : Tbl Nat) (r eew i : Nat) : Nat := fld (tget (fun _ => 0) v ((r + i * eew / vlenBits) % 32)) (i * eew % vlenBits) eew

/-- The registers with an element replaced. -/
def vput (v : Tbl Nat) (r eew i x : Nat) : Tbl Nat :=
  let k := (r + i * eew / vlenBits) % 32
  tset (fun _ => 0) v k (setFld (tget (fun _ => 0) v k) (i * eew % vlenBits) eew x)

/-- Mask bit i of a register. -/
def vbit (v : Tbl Nat) (r i : Nat) : Bool := bitOf (tget (fun _ => 0) v r) i

/-- What an instruction works under: the registers, vl, vstart, SEW, LMUL times 8, tail and mask policy, whether it is unmasked, vxrm,
the rounding mode, and free bits for what RVV calls agnostic. -/
structure VEnv where
  v : Tbl Nat
  vl : Nat
  vstart : Nat
  w : Nat
  lm : Nat
  ta : Bool
  ma : Bool
  vm : Bool
  rm : Nat
  frm : Nat
  free : Nat
  agn : Nat
  deriving DecidableEq, Repr

/-- Is element i active. -/
def VEnv.act (e : VEnv) (i : Nat) : Bool := e.vm || vbit e.v 0 i

/-- EMUL times 8 of an EEW; 0 where it is no multiple. -/
def VEnv.emul (e : VEnv) (eew : Nat) : Nat := e.lm * eew / e.w

/-- Registers of a group. -/
def nregs (em : Nat) : Nat := max 1 (em / 8)

/-- A group operand: its first register, EEW and EMUL times 8. -/
structure Grp where
  r : Nat
  eew : Nat
  em : Nat
  deriving DecidableEq, Repr

/-- The group of a register at an EEW. -/
def VEnv.grp (e : VEnv) (r eew : Nat) : Grp := ⟨r, eew, e.emul eew⟩

/-- A single register read or written as scalar or mask. -/
def one (r eew : Nat) : Grp := ⟨r, eew, 8⟩

/-- Is a group legal: EEW at most 64, EMUL from 1/8 to 8, the first register aligned. -/
def Grp.ok (g : Grp) : Bool := decide (g.eew ≤ 64) && decide (1 ≤ g.em) && decide (g.em ≤ 64) && g.r % nregs g.em == 0

/-- Do two groups share a register. -/
def Grp.meets (a b : Grp) : Bool := decide (a.r < b.r + nregs b.em) && decide (b.r < a.r + nregs a.em)

/-- May a destination overlap a source: by EEW, as RVV 1.0 gives. -/
def Grp.mayOverlap (d s : Grp) : Bool :=
  !d.meets s || d.eew == s.eew || (decide (d.eew < s.eew) && d.r == s.r) ||
  (decide (s.eew < d.eew) && decide (8 ≤ s.em) && s.r + nregs s.em == d.r + nregs d.em)

/-- The rules of a destination and sources: groups legal, overlaps allowed, v0 apart where it masks. -/
def VEnv.groupsOk (e : VEnv) (d : Grp) (srcs : List Grp) : Bool :=
  d.ok && srcs.all Grp.ok && srcs.all (d.mayOverlap ·) && (e.vm || (!d.meets (one 0 1) && srcs.all (fun s => !s.meets (one 0 1))))

/-- The rules of a mask destination: it may be v0. -/
def VEnv.maskOk (e : VEnv) (d : Nat) (srcs : List Grp) : Bool :=
  srcs.all Grp.ok && srcs.all ((one d 1).mayOverlap ·) && (e.vm || srcs.all (fun s => !s.meets (one 0 1)))

/-- Elements to the end of a group's tail. -/
def Grp.tail (g : Grp) : Nat := nregs g.em * vlenBits / g.eew

/-- All ones of an EEW. -/
def ones (eew : Nat) : Nat := 2 ^ eew - 1

/-- Write the body elements of a destination group; inactive and tail elements keep their value or become all ones as agnostic ones may. -/
def VEnv.write (e : VEnv) (d : Grp) (vl : Nat) (f : Nat → Nat) : Tbl Nat :=
  if vl ≤ e.vstart then e.v
  else (List.range d.tail).foldl (fun t i =>
    if i < e.vstart then t
    else if i < vl then
      (if e.act i then vput t d.r d.eew i (f i) else if e.ma && bitOf e.agn i then vput t d.r d.eew i (ones d.eew) else t)
    else if e.ta && bitOf e.agn i then vput t d.r d.eew i (ones d.eew) else t) e.v

/-- Write a mask destination; its tail is always agnostic. -/
def VEnv.writeMask (e : VEnv) (d : Nat) (f : Nat → Bool) : Tbl Nat :=
  if e.vl ≤ e.vstart then e.v
  else (List.range vlenBits).foldl (fun t i =>
    let put := fun (b : Bool) => vput t d 1 i (b2n b)
    if i < e.vstart then t
    else if i < e.vl then (if e.act i then put (f i) else if e.ma && bitOf e.agn i then put true else t)
    else if bitOf e.agn i then put (bitOf e.agn (i + 2048)) else t) e.v

/-- Write element 0 of a register as a scalar result. -/
def VEnv.writeScalar (e : VEnv) (r eew x : Nat) : Tbl Nat :=
  if e.vl ≤ e.vstart then e.v
  else (List.range (vlenBits / eew)).foldl (fun t i =>
    if i = 0 then vput t r eew 0 x else if e.ta && bitOf e.agn i then vput t r eew i (ones eew) else t) e.v

/-- Active body elements. -/
def VEnv.actives (e : VEnv) : List Nat := (rangeFrom e.vstart (e.vl - e.vstart)).filter e.act

/-- Flags of the active body elements. -/
def VEnv.flags (e : VEnv) (f : Nat → ERes) : Nat := e.actives.foldl (fun k i => k ||| (f i).2) 0

/-! ## Results -/

/-- What an instruction leaves: registers, flags, and an integer register. -/
structure VRes where
  v : Tbl Nat
  fl : Nat := 0
  x : Option (Nat × DWord) := none

/-- Map an element operation over a destination. -/
def VEnv.map (e : VEnv) (d : Grp) (f : Nat → ERes) : VRes := { v := e.write d e.vl (fun i => (f i).1), fl := e.flags f }

/-- The scalar or vector second operand: vs1 by element, or a scalar cut to SEW. -/
inductive Op1
  | vec (r : Nat)
  | scal (x : Int)

/-- Its element at an EEW. -/
def Op1.at_ (o : Op1) (v : Tbl Nat) (eew i : Nat) : Nat :=
  match o with
  | .vec r => vget v r eew i
  | .scal x => trunc x eew

/-- The groups it reads. -/
def Op1.grps (o : Op1) (g : Nat → Grp) : List Grp := match o with | .vec r => [g r] | .scal _ => []

/-- Is it a vector. -/
def Op1.isVec : Op1 → Bool
  | .vec _ => true
  | .scal _ => false

/-- A result if a condition holds, else an illegal instruction. -/
def okIf (c : Bool) (r : VRes) : Option VRes := if c then some r else none

/-! ## OPI -/

/-- Carry and borrow forms: vadc, vmadc, vsbc, vmsbc. -/
def opiCarry (e : VEnv) (f6 vd vs2 : Nat) (o : Op1) : Option VRes :=
  let w := e.w
  let a := fun (i : Nat) => (vget e.v vs2 w i : Int)
  let b := fun (i : Nat) => (o.at_ e.v w i : Int)
  let c := fun (i : Nat) => (if e.vm then 0 else b2n (vbit e.v 0 i) : Nat)
  let srcs := e.grp vs2 w :: o.grps (e.grp · w)
  let u := { e with vm := true }
  match f6 with
  | 0x10 => okIf (!e.vm && e.groupsOk (e.grp vd w) srcs) { v := u.write (e.grp vd w) e.vl (fun i => trunc (a i + b i + c i) w) }
  | 0x12 => okIf (!e.vm && e.groupsOk (e.grp vd w) srcs) { v := u.write (e.grp vd w) e.vl (fun i => trunc (a i - b i - c i) w) }
  | 0x11 => okIf (e.maskOk vd srcs) { v := u.writeMask vd (fun i => decide (2 ^ w ≤ a i + b i + c i)) }
  | _ => okIf (e.maskOk vd srcs) { v := u.writeMask vd (fun i => decide (a i - b i - c i < 0)) }

/-- Slides and gathers of OPI by an offset or index vector. -/
def opiPerm (e : VEnv) (f6 vd vs2 : Nat) (o : Op1) : Option VRes :=
  let w := e.w
  let d := e.grp vd w
  let s := e.grp vs2 w
  let vmax := e.lm * vlenBits / (8 * w)
  let src := fun (k : Nat) => if k < vmax then vget e.v vs2 w k else 0
  let off := match o with | .scal x => trunc x 64 | .vec _ => 0
  let gather := fun (g : Grp) => okIf (e.groupsOk d [s, g] && !d.meets s && !d.meets g) { v := e.write d e.vl (fun i => src (vget e.v g.r g.eew i)) }
  match f6, o with
  | 0x0C, .vec r => gather (e.grp r w)
  | 0x0C, .scal _ => okIf (e.groupsOk d [s] && !d.meets s) { v := e.write d e.vl (fun _ => src off) }
  | 0x0E, .vec r => gather (e.grp r 16)
  | 0x0E, .scal _ =>
    let from_ := { e with vstart := max e.vstart off }
    okIf (e.groupsOk d [s] && !d.meets s)
      { v := if e.vl ≤ e.vstart then e.v else if e.vl ≤ from_.vstart then ({ e with vm := true } : VEnv).write d e.vl (fun i => vget e.v vd w i)
          else from_.write d e.vl (fun i => vget e.v vs2 w (i - off)) }
  | _, .scal _ => okIf (e.groupsOk d [s]) { v := e.write d e.vl (fun i => if i + off < vmax then vget e.v vs2 w (i + off) else 0) }
  | _, _ => none

/-- Widening integer reductions. -/
def opiRed (e : VEnv) (f6 vd vs1 vs2 : Nat) : Option VRes :=
  let w := e.w
  let x := fun (a : Nat) => if f6 = 0x31 then trunc (sext a w) (2 * w) else a
  let r := e.actives.foldl (fun k i => (k + x (vget e.v vs2 w i)) % 2 ^ (2 * w)) (vget e.v vs1 (2 * w) 0)
  okIf (decide (w ≤ 32) && (e.grp vs2 w).ok && e.vstart == 0 && (e.vm || !(e.grp vs2 w).meets (one 0 1))) { v := e.writeScalar vd (2 * w) r }

/-- vmv1r to vmv8r. -/
def opiWhole (e : VEnv) (vd vs2 k : Nat) : Option VRes :=
  let n := k + 1
  let evl := n * vlenBits / e.w
  okIf (e.vm && [0, 1, 3, 7].contains k && vd % n == 0 && vs2 % n == 0)
    { v := if evl ≤ e.vstart then e.v else (rangeFrom e.vstart (evl - e.vstart)).foldl (fun t i => vput t vd e.w i (vget e.v vs2 e.w i)) e.v }

/-- The OPI instructions: `k` says which operand form, 0 vv, 3 vi, 4 vx; `imm` is the immediate field. -/
def opiInsn (e : VEnv) (k f6 vd vs2 imm : Nat) (o : Op1) : Option VRes :=
  let w := e.w
  let d := e.grp vd w
  let s := e.grp vs2 w
  let vx := k != 0
  let noI := k != 3
  let srcs := s :: o.grps (e.grp · w)
  let form := match f6 with
    | 0x03 | 0x0F | 0x1E | 0x1F => vx
    | 0x02 | 0x04 | 0x05 | 0x06 | 0x07 | 0x12 | 0x13 | 0x1A | 0x1B | 0x22 | 0x23 => noI
    | 0x30 | 0x31 => k == 0
    | _ => true
  if !form then none
  else if f6 = 0x27 ∧ k = 3 then opiWhole e vd vs2 imm
  else if f6 = 0x27 ∧ w = 64 then none
  else if f6 = 0x17 then
    (if e.vm then okIf (vs2 == 0 && e.groupsOk d (o.grps (e.grp · w))) { v := e.write d e.vl (fun i => o.at_ e.v w i) }
     else okIf (e.groupsOk d srcs) { v := ({ e with vm := true } : VEnv).write d e.vl (fun i => if vbit e.v 0 i then o.at_ e.v w i else vget e.v vs2 w i) })
  else if 0x10 ≤ f6 ∧ f6 ≤ 0x13 then opiCarry e f6 vd vs2 o
  else if f6 = 0x0C ∨ f6 = 0x0E ∨ f6 = 0x0F then opiPerm e f6 vd vs2 o
  else if f6 = 0x30 ∨ f6 = 0x31 then (match o with | .vec r => opiRed e f6 vd r vs2 | .scal _ => none)
  else match cmpElem w f6 with
    | some c => okIf (e.maskOk vd srcs) { v := e.writeMask vd (fun i => c (vget e.v vs2 w i) (o.at_ e.v w i)) }
    | none => match narrowElem w e.rm f6 with
      | some f =>
        okIf (decide (w ≤ 32) && e.groupsOk d (e.grp vs2 (2 * w) :: o.grps (e.grp · w)))
          (e.map d (fun i => f 0 (vget e.v vs2 (2 * w) i) (match o with | .vec r => vget e.v r w i | .scal x => trunc x (2 * w))))
      | none => match opiElem w e.rm f6 with
        | some f => okIf (e.groupsOk d srcs) (e.map d (fun i => f 0 (vget e.v vs2 w i) (o.at_ e.v w i)))
        | none => none

/-! ## OPM -/

/-- Mask-register logic. -/
def maskLogic (f6 : Nat) (a b : Bool) : Bool :=
  match f6 with
  | 0x18 => a && !b
  | 0x19 => a && b
  | 0x1A => a || b
  | 0x1B => a != b
  | 0x1C => a || !b
  | 0x1D => !(a && b)
  | 0x1E => !(a || b)
  | _ => a == b

/-- vmsbf, vmsof, vmsif, viota and vid. -/
def opmMaskUnary (e : VEnv) (vd vs1 vs2 : Nat) : Option VRes :=
  let w := e.w
  let d := e.grp vd w
  let on := fun (i : Nat) => e.act i && vbit e.v vs2 i
  let first := (List.range e.vl).find? on
  let set := fun (f : Nat → Bool) =>
    okIf (e.vstart == 0 && vd != vs2 && (e.vm || vd != 0)) { v := e.writeMask vd f }
  match vs1 with
  | 1 => set (fun i => match first with | some k => decide (i < k) | none => true)
  | 2 => set (fun i => match first with | some k => i == k | none => false)
  | 3 => set (fun i => match first with | some k => decide (i ≤ k) | none => true)
  | 16 => okIf (e.vstart == 0 && d.ok && !d.meets (one vs2 1) && (e.vm || !d.meets (one 0 1)))
      { v := e.write d e.vl (fun i => ((List.range i).filter on).length % 2 ^ w) }
  | 17 => okIf (vs2 == 0 && d.ok && (e.vm || !d.meets (one 0 1))) { v := e.write d e.vl (fun i => i % 2 ^ w) }
  | _ => none

/-- vmv.x.s, vcpop and vfirst. -/
def opmToX (e : VEnv) (rd vs1 vs2 : Nat) : Option VRes :=
  let on := (List.range e.vl).filter (fun i => e.act i && vbit e.v vs2 i)
  match vs1 with
  | 0 => okIf e.vm { v := e.v, x := some (rd, BitVec.ofInt 64 (sext (vget e.v vs2 e.w 0) e.w)) }
  | 16 => okIf (e.vstart == 0) { v := e.v, x := some (rd, BitVec.ofNat 64 on.length) }
  | 17 => okIf (e.vstart == 0) { v := e.v, x := some (rd, match on.head? with | some k => BitVec.ofNat 64 k | none => -1) }
  | _ => none

/-- Elements packed by a mask. -/
def opmCompress (e : VEnv) (vd vs1 vs2 : Nat) : Option VRes :=
  let w := e.w
  let d := e.grp vd w
  let idx := (List.range e.vl).filter (fun i => vbit e.v vs1 i)
  okIf (e.vm && e.vstart == 0 && e.groupsOk d [e.grp vs2 w] && !d.meets (e.grp vs2 w) && !d.meets (one vs1 1))
    { v := if e.vl = 0 then e.v
        else (List.range d.tail).foldl (fun t i => match idx[i]? with
          | some k => vput t vd w i (vget e.v vs2 w k)
          | none => if e.ta && bitOf e.free i then vput t vd w i (ones w) else t) e.v }

/-- The OPM instructions: `mvx` for the form with an integer register. -/
def opmInsn (e : VEnv) (mvx : Bool) (f6 vd vs1 vs2 : Nat) (o : Op1) : Option VRes :=
  let w := e.w
  let d := e.grp vd w
  let s := e.grp vs2 w
  let srcs := s :: o.grps (e.grp · w)
  if f6 < 8 then
    (if mvx then none
     else match redElem w f6 with
       | some f => okIf (s.ok && e.vstart == 0 && (e.vm || !s.meets (one 0 1)))
           { v := e.writeScalar vd w (e.actives.foldl (fun k i => f k (vget e.v vs2 w i)) (vget e.v vs1 w 0)) }
       | none => none)
  else if f6 = 0x0E ∨ f6 = 0x0F then
    (if !mvx then none
     else if f6 = 0x0E then okIf (e.groupsOk d [s] && !d.meets s) { v := e.write d e.vl (fun i => if i = 0 then o.at_ e.v w 0 else vget e.v vs2 w (i - 1)) }
     else okIf (e.groupsOk d [s]) { v := e.write d e.vl (fun i => if i + 1 = e.vl then o.at_ e.v w 0 else vget e.v vs2 w (i + 1)) })
  else if f6 = 0x10 then
    (if mvx then okIf (e.vm && vs2 == 0) { v := e.writeScalar vd w (o.at_ e.v w 0) } else opmToX e vd vs1 vs2)
  else if f6 = 0x12 then
    (let n := match vs1 / 2 with | 1 => 8 | 2 => 4 | 3 => 2 | _ => 0
     if mvx || n = 0 || decide (w / n < 8) then none
     else
       let x := fun (a : Nat) => if vs1 % 2 = 1 then trunc (sext a (w / n)) w else a
       okIf (e.groupsOk d [e.grp vs2 (w / n)]) { v := e.write d e.vl (fun i => x (vget e.v vs2 (w / n) i)) })
  else if f6 = 0x14 then (if mvx then none else opmMaskUnary e vd vs1 vs2)
  else if f6 = 0x17 then (if mvx then none else opmCompress e vd vs1 vs2)
  else if 0x18 ≤ f6 ∧ f6 ≤ 0x1F then
    (if mvx then none else okIf e.vm { v := e.writeMask vd (fun i => maskLogic f6 (vbit e.v vs2 i) (vbit e.v vs1 i)) })
  else if w = 64 ∧ (f6 = 0x24 ∨ f6 = 0x26 ∨ f6 = 0x27) then none
  else if f6 = 0x3E ∧ !mvx then none
  else match opmElem w e.rm f6 with
    | some f => okIf (e.groupsOk d srcs) (e.map d (fun i => f (vget e.v vd w i) (vget e.v vs2 w i) (o.at_ e.v w i)))
    | none => match wideElem w f6 with
      | some (two, f) =>
        let d2 := e.grp vd (2 * w)
        let w2 := if two then 2 * w else w
        okIf (decide (w ≤ 32) && e.groupsOk d2 (e.grp vs2 w2 :: o.grps (e.grp · w)))
          (e.map d2 (fun i => f (vget e.v vd (2 * w) i) (vget e.v vs2 w2 i) (o.at_ e.v w i)))
      | none => none

/-! ## OPF -/

/-- A rounding mode of frm. -/
def rmOf (k : Nat) : Option Rm := match k with | 0 => some .rne | 1 => some .rtz | 2 => some .rdn | 3 => some .rup | 4 => some .rmm | _ => none

/-- Ordered sum from the scalar, one element after another (R371). -/
def sumOrdered (f : FFmt) (md : Rm) (l : List Nat) (a : Nat) : ERes :=
  l.foldl (fun (k : ERes) x => let r := fadd f md k.1 x; (r.1, k.2 ||| r.2)) (a, 0)

/-- The tree of R360 over values with their flags, kept above the code. -/
def sumTree (f : FFmt) (md : Rm) (base : Nat) (l : List (Option Nat)) : ERes :=
  let op := fun (x y : Nat) => let r := fadd f md (x % 2 ^ 32) (y % 2 ^ 32); r.1 + 2 ^ 32 * (x / 2 ^ 32 ||| y / 2 ^ 32 ||| r.2)
  match treeRoot op base l with
  | some r => (r % 2 ^ 32, r / 2 ^ 32)
  | none => (0, 0)

/-- Add values in an order and grouping that the digits of a number choose: two of them at a time, until one is left (R371). -/
def sumInOrder (f : FFmt) (md : Rm) : Nat → Nat → List Nat → Nat → ERes
  | 0, _, l, fl => (l.headD 0, fl)
  | n + 1, free, l, fl =>
    if l.length ≤ 1 then (l.headD 0, fl)
    else
      let i := free % l.length
      let r := l.eraseIdx i
      let k := free / l.length
      let j := k % r.length
      let x := fadd f md (nth 0 l i) (nth 0 r j)
      sumInOrder f md n (k / r.length) (r.eraseIdx j ++ [x.1]) (fl ||| x.2)

/-- An unordered sum: the tree under VRED_FIXED; otherwise the order and grouping are free (R371). -/
def sumUnordered (fixed : Bool) (free : Nat) (f : FFmt) (md : Rm) (l : List (Nat × Nat)) (a : Nat) : ERes :=
  match l.head?, l.getLast? with
  | some lo, some hi =>
    if fixed then
      let vals := (rangeFrom lo.1 (hi.1 + 1 - lo.1)).map (fun i => (l.find? (fun p => p.1 == i)).map (·.2))
      let r := sumTree f md lo.1 vals
      let q := fadd f md a r.1
      (q.1, r.2 ||| q.2)
    else sumInOrder f md (l.length + 1) free (a :: l.map (·.2)) 0
  | _, _ => (a, 0)

/-- Floating reductions (R371). -/
def opfRed (e : VEnv) (fixed : Bool) (md : Rm) (f6 vd vs1 vs2 : Nat) : Option VRes :=
  let w := e.w
  let s := e.grp vs2 w
  let ok := s.ok && e.vstart == 0 && (e.vm || !s.meets (one 0 1))
  let vals := e.actives.map (fun i => (i, vget e.v vs2 w i))
  let put := fun (eew : Nat) (r : ERes) => okIf ok { v := e.writeScalar vd eew r.1, fl := if e.vl = 0 then 0 else r.2 }
  match sewFmt w with
  | none => none
  | some f =>
    let a := vget e.v vs1 w 0
    match f6 with
    | 0x01 => put w (sumUnordered fixed e.free f md vals a)
    | 0x03 => put w (sumOrdered f md (vals.map (·.2)) a)
    | 0x05 | 0x07 => put w (vals.foldl (fun (k : ERes) x => let r := fminmax f (f6 == 0x07) k.1 x.2; (r.1, k.2 ||| r.2)) (a, 0))
    | _ =>
      if w ≠ 16 then none
      else
        let a2 := vget e.v vs1 32 0
        let wide := vals.map (fun x => (x.1, (fwiden x.2).1))
        let wf := vals.foldl (fun k x => k ||| (fwiden x.2).2) 0
        let r := if f6 = 0x31 then sumUnordered fixed e.free fFP32 md wide a2 else sumOrdered fFP32 md (wide.map (·.2)) a2
        put 32 (r.1, r.2 ||| wf)

/-- The OPF vector-vector instructions; every frm above 4 is illegal (R336, R370). -/
def opfInsn (e : VEnv) (fixed : Bool) (f6 vd vs1 vs2 : Nat) : Option VRes :=
  match rmOf e.frm with
  | none => none
  | some md =>
    let w := e.w
    let d := e.grp vd w
    let s := e.grp vs2 w
    let srcs := [s, e.grp vs1 w]
    if f6 = 0x01 ∨ f6 = 0x03 ∨ f6 = 0x05 ∨ f6 = 0x07 ∨ f6 = 0x31 ∨ f6 = 0x33 then opfRed e fixed md f6 vd vs1 vs2
    else if f6 = 0x12 then
      (match convElemV w md vs1 with
        | some (a, b, f) => okIf (e.groupsOk (e.grp vd b) [e.grp vs2 a]) (e.map (e.grp vd b) (fun i => f (vget e.v vs2 a i)))
        | none => none)
    else match sewFmt w with
      | none => none
      | some f =>
        if f6 = 0x13 then
          (let un := fun (g : Nat → ERes) => okIf (e.groupsOk d [s]) (e.map d (fun i => g (vget e.v vs2 w i)))
           match vs1 with
           | 0 => un (fsqrt f md)
           | 4 => un (frsqrt7 f)
           | 5 => un (frec7 f md)
           | 16 => un (fun a => (fclass f a, 0))
           | _ => none)
        else if f6 = 0x18 ∨ f6 = 0x19 ∨ f6 = 0x1B ∨ f6 = 0x1C then
          okIf (e.maskOk vd srcs) {
            v := e.writeMask vd (fun i => (fcmpOp f f6 (vget e.v vs2 w i) (vget e.v vs1 w i)).1)
            fl := e.flags (fun i => (0, (fcmpOp f f6 (vget e.v vs2 w i) (vget e.v vs1 w i)).2)) }
        else match opfElem f md f6 with
          | some op => okIf (e.groupsOk d srcs) (e.map d (fun i => op (vget e.v vd w i) (vget e.v vs2 w i) (vget e.v vs1 w i)))
          | none => match opfWide md f6 with
            | some (two, op) =>
              let w2 := if two then 32 else 16
              okIf (w == 16 && e.groupsOk (e.grp vd 32) [e.grp vs2 w2, e.grp vs1 16])
                (e.map (e.grp vd 32) (fun i => op (vget e.v vd 32 i) (vget e.v vs2 w2 i) (vget e.v vs1 16 i)))
            | none => none

/-! ## The environment -/

/-- What a vector instruction works under: a free value drawn, and the choice for agnostic elements, which for replay-exact work depends on the
task's own registers alone (R35, R36). -/
def vEnv (u w : Nat) : Nx VEnv := do
  let x ← Nx.get (fun s => cx s u)
  let exact ← Nx.get (fun s => x.rex || rexActive s)
  let n ← Nx.get (fun s => if exact then 0 else s.free + 1)
  let k ← Nx.free
  pure { v := x.v, vl := x.vl, vstart := x.vstart, w := vtSew x.vtype, lm := vtLmul8 x.vtype, ta := bitOf x.vtype 6, ma := bitOf x.vtype 7, vm := bitOf w 25,
         rm := x.vxrm, frm := x.fcsr / 32, free := k, agn := Config.agnostic w x.vl x.vtype x.v n }

/-- Does a vector instruction read the register file: a mask, a source register, or, of a whole register or element 0, whatever vl is; loads
without a mask, vmv.v.x, vmv.v.i, vmv.s.x and vid.v read none (R338, R347). -/
def vReads (x : Ctx) (w : Nat) : Bool :=
  let body := decide (x.vstart < x.vl)
  let vm := bitOf w 25
  let f6 := fld w 26 6
  match fld w 0 7 with
  | 0x07 => (body && !vm) || (body && bitOf w 26)
  | 0x27 => body || (fld w 26 2 == 0 && fld w 20 5 == 8)
  | _ => match fld w 12 3 with
    | 3 | 4 => if f6 = 0x17 then body && !vm else if f6 = 0x27 ∧ fld w 12 3 = 3 then true else body
    | 2 => if f6 = 0x10 then true else if f6 = 0x14 ∧ fld w 15 5 = 17 then body && !vm else body
    | 6 => if f6 = 0x10 then false else body
    | 7 => false
    | _ => body

/-- A register read meets armed injections (R338, R347). -/
def vrfInject (u : Nat) : Nx Unit := fun s =>
  let s1 := if injArmed s .ncv u 0 then raiseErr (bump (injUsed s .ncv u 0) (pg .ncv u + 0x808) 1) .ncv u 8 none else s
  if injArmed s1 .ncv u 1 then (.error (.status 0x0705), raiseErr (injUsed s1 .ncv u 1) .ncv u 9 none) else (.ok (), s1)

/-- Keep a result: registers, accrued flags, an integer register; vstart becomes 0. -/
def vKeep (u : Nat) (r : VRes) : Nx Unit := Nx.modify (fun s => modCx s u (fun x =>
  let y := { x with v := r.v, fcsr := x.fcsr ||| r.fl % 32, vxsat := x.vxsat ||| r.fl / 32 % 2, vstart := 0 }
  match r.x with
  | some (i, v) => setX i v y
  | none => y))

/-- The vset instructions. -/
def vsetInsn (u w len : Nat) : Nx DWord := do
  let x ← Nx.get (fun s => cx s u)
  let rs1 := fld w 15 5
  let rd := fld w 7 5
  let a ← Nx.x u rs1
  let b ← Nx.x u (fld w 20 5)
  Nx.legal w (!(bitOf w 31 && !bitOf w 30 && fld w 25 6 != 0))
  let t := if !bitOf w 31 then fld w 20 11 else if bitOf w 30 then fld w 20 10 else b.toNat
  let imm := bitOf w 31 && bitOf w 30
  let keep := !imm && rs1 == 0 && rd == 0
  let ok := vtOk t && (!keep || (!x.vill && vlMax t == vlMax x.vtype))
  let m := vlMax t
  let avl := if imm then rs1 else if rs1 != 0 then a.toNat else 2 ^ 64 - 1
  let vl := if keep then x.vl else if avl ≤ m then avl else if 2 * m ≤ avl then m
    else ceilDiv avl 2 + Config.vlPick avl m % (m - ceilDiv avl 2 + 1)
  let res := if ok then vl else 0
  Nx.modify (fun s => modCx s u (fun y => setX rd (BitVec.ofNat 64 res) { y with
    vl := res, vtype := if ok then t else 0, vill := !ok, vstart := 0 }))
  nextPc u len

/-! ## Memory -/

/-- The scratchpad offset of an element, checked (R337, R388). -/
def elemPlace (u a n mis acc : Nat) : Nx Nat := do
  Nx.need (a % n == 0) (.trap mis a)
  match codeAddr a with
  | .sp o => do
    needWindow u o n acc a
    pure o
  | _ => Nx.stop (.trap acc a)

/-- One element loaded, or stored; `cov` lists words that its access covers whole. -/
def elemLoad (u a n : Nat) : Nx Nat := do
  let o ← elemPlace u a n 4 5
  let b ← Nx.lift (spRead u o n) spStop
  pure (leNat b)
def elemStoreV (u a n v : Nat) (cov : List Nat) : Nx Unit := do
  let o ← elemPlace u a n 6 7
  Nx.lift (spPut u o cov (natLe n v)) spStop

/-- Load the fields of elements in order: the values read by (element, field), and where a trap stopped it. -/
def loadAll (u n : Nat) (addr : Nat → Nat → Nat) : List (Nat × Nat) → State → List ((Nat × Nat) × Nat) × Option (Nat × Stop) × State
  | [], s => ([], none, s)
  | (i, j) :: r, s => match elemLoad u (addr i j) n s with
    | (.error e, t) => ([], some (i, e), t)
    | (.ok v, t) => let (l, st, z) := loadAll u n addr r t; (((i, j), v) :: l, st, z)

/-- A vector access: evl elements of `nf` fields of data width `dw` bits, at addresses by element and field. -/
structure VAcc where
  evl : Nat
  nf : Nat
  dw : Nat
  em : Nat
  addr : Nat → Nat → Nat
  fof : Bool := false
  ta : Bool

/-- The (element, field) pairs an access makes, in order. -/
def VAcc.pairs (k : VAcc) (e : VEnv) : List (Nat × Nat) :=
  ((rangeFrom e.vstart (k.evl - e.vstart)).filter e.act).flatMap (fun i => (List.range k.nf).map (fun j => (i, j)))

/-- Write under the mask of another environment, which stays as it was when fields of a segment are written one by one. -/
def VEnv.writeWith (e m : VEnv) (d : Grp) (vl : Nat) (f : Nat → Nat) : Tbl Nat :=
  if vl ≤ e.vstart then e.v
  else (List.range d.tail).foldl (fun t i =>
    if i < e.vstart then t
    else if i < vl then (if m.act i then vput t d.r d.eew i (f i) else if e.ma && bitOf e.agn i then vput t d.r d.eew i (ones d.eew) else t)
    else if e.ta && bitOf e.agn i then vput t d.r d.eew i (ones d.eew) else t) e.v

/-- Perform a load: a fault-only-first load that stops past element 0 trims vl. -/
def vLoad (u : Nat) (e : VEnv) (k : VAcc) (vd : Nat) : Nx Unit := fun s =>
  let (l, st, t) := loadAll u (k.dw / 8) k.addr (k.pairs e) s
  let go := fun (vl : Nat) (l : List ((Nat × Nat) × Nat)) (t : State) =>
    let tab := l.foldl (fun (m : Tbl Nat) p => tset (fun _ => 0) m (p.1.1 * 8 + p.1.2) p.2) []
    let v := (List.range k.nf).foldl (fun (v : Tbl Nat) j =>
      ({ e with v := v, ta := k.ta } : VEnv).writeWith e ⟨vd + j * nregs k.em, k.dw, k.em⟩ vl (fun i => tget (fun _ => 0) tab (i * 8 + j))) e.v
    modCx t u (fun x => { x with v := v, vstart := 0, vl := if k.fof then vl else x.vl })
  match st with
  | none => (.ok (), go k.evl l t)
  | some (i, e2) => match k.fof && i != 0, e2 with
    | true, .trap _ _ => (.ok (), go i (l.filter (fun p => p.1.1 != i)) t)
    | _, _ => (.error e2, t)

/-- The words, by number, that one access of a vector store covers whole: the elements from its first on that lie in the first's row, to 256
bytes (R376, R384). -/
def rowWords (n : Nat) (l : List Nat) : List Nat :=
  match l with
  | [] => []
  | a :: _ =>
    let o := fun (b : Nat) => b % spBytes
    let run := ((l.take (256 / n)).takeWhile (fun b => o b / 512 == o a / 512)).map o
    (dedupN (run.map (· / 8))).filter (fun w => (List.range 8).all (fun i => run.any (fun b => decide (b ≤ 8 * w + i) && decide (8 * w + i < b + n))))

/-- Perform a store, element by element; a run of elements in one row is one access. -/
def vStore (u : Nat) (e : VEnv) (k : VAcc) (vs3 : Nat) : List Nat → Nat → List (Nat × Nat) → Nx Unit
  | _, _, [] => Nx.modify (fun s => modCx s u (fun x => { x with vstart := 0 }))
  | cov, row, (i, j) :: r => do
    let a := k.addr i j
    let cov1 := if a / 512 = row then cov else rowWords (k.dw / 8) (a :: r.map (fun p => k.addr p.1 p.2))
    elemStoreV u a (k.dw / 8) (vget e.v (vs3 + j * nregs k.em) k.dw i) cov1
    vStore u e k vs3 cov1 (a / 512) r

/-- The access a vector load or store names, or none where its encoding is not one of RVV 1.0's for this unit (R336, R337). -/
def vAccess (e : VEnv) (load vill : Bool) (w base stride : Nat) : Option VAcc :=
  let eew := match fld w 12 3 with | 0 => 8 | 5 => 16 | 6 => 32 | _ => 64
  let nf := fld w 29 3 + 1
  let vd := fld w 7 5
  let um := fld w 20 5
  let em := e.emul eew
  let n := nregs em
  let data := fun (g : Nat) (m : Nat) => (⟨vd, g, m⟩ : Grp).ok && decide (nf * nregs m ≤ 8) && decide (vd + nf * nregs m ≤ 32)
  let clear := fun (m : Nat) => e.vm || !load || !((⟨vd, 1, 8 * (nf * nregs m)⟩ : Grp).meets (one 0 1))
  let clearS := fun (m : Nat) => e.vm || load || !((⟨vd, 1, 8 * (nf * nregs m)⟩ : Grp).meets (one 0 1))
  let b := eew / 8
  let wrap := fun (a : Int) => trunc a 64
  if bitOf w 28 then none
  else match fld w 26 2 with
    | 0 => match um with
      | 0 => if !vill && data eew em && clear em && clearS em then
          some { evl := e.vl, nf := nf, dw := eew, em := em, addr := fun i j => wrap (base + (i * nf + j) * b : Nat), ta := e.ta } else none
      | 16 => if !vill && load && data eew em && clear em then
          some { evl := e.vl, nf := nf, dw := eew, em := em, addr := fun i j => wrap (base + (i * nf + j) * b : Nat), fof := true, ta := e.ta } else none
      | 11 => if !vill && e.vm && nf = 1 && eew = 8 then
          some { evl := ceilDiv e.vl 8, nf := 1, dw := 8, em := 8, addr := fun i _ => wrap (base + i : Nat), ta := true } else none
      | 8 => if e.vm && [1, 2, 4, 8].contains nf && vd % nf = 0 && (load || eew = 8) then
          some { evl := nf * vlenBits / eew, nf := 1, dw := eew, em := 8 * nf, addr := fun i _ => wrap (base + i * b : Nat), ta := false } else none
      | _ => none
    | 2 => if !vill && data eew em && clear em && clearS em then
        some { evl := e.vl, nf := nf, dw := eew, em := em, addr := fun i j => wrap (base + (i : Int) * sext stride 64 + (j * b : Nat)), ta := e.ta } else none
    | _ =>
      let ix := e.grp um eew
      let dg := e.grp vd e.w
      if !vill && ix.ok && data e.w e.lm && clear e.lm && clearS e.lm && (e.vm || !ix.meets (one 0 1)) &&
        (!load || (if nf = 1 then dg.mayOverlap ix else !((⟨vd, 1, 8 * (nf * nregs e.lm)⟩ : Grp).meets ix))) then
        some { evl := e.vl, nf := nf, dw := e.w, em := e.lm
               addr := fun i j => wrap (base + vget e.v um eew i + j * (e.w / 8) : Nat), ta := e.ta }
      else (let _ := n; none)

/-- A vector load or store. -/
def vmemInsn (u w len : Nat) : Nx DWord := do
  let x ← Nx.get (fun s => cx s u)
  let e ← vEnv u w
  let base ← Nx.x u (fld w 15 5)
  let st ← Nx.x u (fld w 20 5)
  let load := fld w 0 7 == 0x07
  match vAccess e load x.vill w base.toNat st.toNat with
  | none => illegal w
  | some k =>
    if load then vLoad u e k (fld w 7 5) else vStore u e k (fld w 7 5) [] (2 ^ 64) (k.pairs e)
  nextPc u len

/-! ## One instruction -/

/-- One OP-V instruction other than vset. -/
def varithInsn (u w len : Nat) : Nx DWord := do
  let x ← Nx.get (fun s => cx s u)
  Nx.legal w (!x.vill)
  let e ← vEnv u w
  let rs1 := fld w 15 5
  let a ← Nx.x u rs1
  let fixed ← Nx.get (fun s => bitOf (app s 0x180) 3)
  let f6 := fld w 26 6
  let vd := fld w 7 5
  let vs2 := fld w 20 5
  -- shifts and slides take the immediate unsigned, the others signed
  let imm : Int := if [0x0C, 0x0E, 0x0F, 0x25, 0x28, 0x29, 0x2A, 0x2B, 0x2C, 0x2D, 0x2E, 0x2F].contains f6 then rs1 else sext rs1 5
  let r := match fld w 12 3 with
    | 0 => opiInsn e 0 f6 vd vs2 rs1 (.vec rs1)
    | 3 => opiInsn e 3 f6 vd vs2 rs1 (.scal imm)
    | 4 => opiInsn e 4 f6 vd vs2 rs1 (.scal a.toInt)
    | 2 => opmInsn e false f6 vd rs1 vs2 (.vec rs1)
    | 6 => opmInsn e true f6 vd rs1 vs2 (.scal a.toInt)
    | 1 => opfInsn e fixed f6 vd rs1 vs2
    | _ => none
  match r with
  | none => illegal w
  | some k => vKeep u k
  nextPc u len

/-- One vector instruction (R336, R337). -/
def vectorBody (u w len : Nat) : Nx DWord :=
  if fld w 0 7 = 0x57 ∧ fld w 12 3 = 7 then vsetInsn u w len else if fld w 0 7 = 0x57 then varithInsn u w len else vmemInsn u w len

/-- One vector instruction; an armed register error meets the first legal one that reads the register file (R336 to R338). -/
def vectorInsn (u w len : Nat) : Nx DWord := fun s =>
  let run : Nx DWord := do
    let pc ← vectorBody u w len
    Nx.modify (fun s => bump64 s (pg .ncv u + 0x800) 1)
    pure pc
  let armed := (injArmed s .ncv u 0 || injArmed s .ncv u 1) && vReads (cx s u) w
  match armed, vectorBody u w len s with
  | true, (.error (.trap 2 v), t) => (.error (.trap 2 v), t)
  | true, _ => (do vrfInject u; run : Nx DWord) s
  | false, _ => run s

/-- VECTOR_INSTRUCTION: the instruction at pc of a core, if it is a vector one. -/
def vectorAct (s : State) (u : Nat) : State := ncInsn .vector (vectorInsn u) s u

end Sys2Proof.Machine
end

