-- ==== Sys2Proof/Machine/Watch.lean ====
section
/-! DEFINITION. What the safety island does: taster windows, dual comparison, the age monitor, reactions, the clock monitor, the heartbeat and
SAFE_N (R515 to R547). -/

namespace Sys2Proof.Machine
open Sys2Proof

/-! ## Taster windows -/

/-- Taster units of R529 in the order of their index: ISP, PYR, WARP, STR, FLW, FTR, NC. -/
def tasterUnits : List (Blk × Nat) :=
  [Blk.isp, .pyr, .warp, .str, .flw, .ftr, .nc].flatMap (fun b => (List.range (blkCount b)).map (fun n => (b, n)))

/-- Index of a taster unit (R529). -/
def tasterIdx (b : Blk) (n : Nat) : Option Nat := tasterUnits.findIdx? (fun x => x == (b, n))

/-- Registers of a taster unit: its offset and its status (R546). -/
def tasterOff (s : State) (u : Nat) : Nat := regN s (safePg + 0x200 + 4 * u)
def tasterStat (u : Nat) : Nat := safePg + 0x280 + 4 * u

/-- The instant at which the present interval's window of unit u falls due, with the interval's number plus one (R518, R530). -/
def tasterDueAt (s : State) (u : Nat) : Nat × Nat :=
  let k := now s / 10000000
  (k * 10000000 + tasterOff s u * 1000, k + 1)

/-- A window starts in an empty running slot (R118, R530). -/
def tasterStart (s : State) (b : Blk) (n : Nat) : State :=
  let w := unitAt s b n
  if w.tasterDue.isSome && w.tasterOn.isNone && w.run.isNone then
    crumb (setUnit s b n { w with tasterOn := some s.time }) (ukey b n) 7 0xFF 0 0 0
  else s

/-- TASTER_WINDOW_DUE: the interval's window of a unit falls due, and starts where the running slot is empty (R118, R529, R530). -/
def tasterDueAct (s : State) (b : Blk) (n : Nat) : State :=
  match tasterIdx b n with
  | none => s
  | some u =>
    let w := unitAt s b n
    let (t, k) := tasterDueAt s u
    if !present s b n || w.quarantined || w.tasterIvl == k || decide (now s < t) || w.tasterDue.isSome then s
    else tasterStart (setUnit s b n { w with tasterDue := some (BitVec.ofNat 64 t), tasterIvl := k }) b n

/-- TASTER_BEGIN: the running slot of a unit has emptied, and the due window starts (R118, R530). -/
def tasterBeginAct (s : State) (b : Blk) (n : Nat) : State := if (tasterIdx b n).isSome then tasterStart s b n else s

/-- A window is over: the slot is free for tasks again; on a neural core the accumulator file is clear and in EXACT mode (R533). -/
def tasterOver (s : State) (b : Blk) (n : Nat) : State :=
  let s1 := setUnit s b n { unitAt s b n with tasterDue := none, tasterOn := none }
  if b = .nc then setCore s1 n { coreAt s1 n with acc := [], tree := false, live := false, cover := [] } else s1

/-- A taster fault of a unit: one record, counted in TASTER_FAILS (R520, R533, R534, R547). -/
def tasterFault (s : State) (b : Blk) (n cause detail : Nat) : State :=
  pushFault (bump s (safePg + 0x804) 1) ⟨s.time, cause, causeClass cause, blkCode b, n, 0xFF, 0xFFFF, 0, detail⟩

/-- TASTER_END: 40 µs after its start a window ends; `fin` says whether the tile had finished, and `sig` is the signature read where it
differs from the stored one (R530, R532 to R534, R546). -/
def tasterEndAct (s : State) (b : Blk) (n : Nat) (fin : Bool) (sig : Option Nat) : State :=
  match tasterIdx b n, (unitAt s b n).tasterOn with
  | some u, some t =>
    if decide ((s.time - t).toNat < 40000) then s
    else
      let s1 := tasterOver s b n
      let st := regN s1 (tasterStat u)
      let ran := (fld st 16 16 + 1) % 65536
      if !fin then
        tasterFault (setRegN (bump (crumb s1 (ukey b n) 8 0xFF 0 0 0) (safePg + 0x800) 1) (tasterStat u) (ran * 2 ^ 16)) b n 0x12 0
      else
        let forced := injArmed s1 .safe 0 1 && regN s (safePg + 0x110) % 32 == u
        let s2 := bump (if forced then injUsed s1 .safe 0 1 else s1) (safePg + 0x800) 1
        if sig.isNone && !forced then setRegN (crumb s2 (ukey b n) 8 0xFF 1 0 0) (tasterStat u) (1 + ran * 2 ^ 16)
        else
          let s3 := setRegN (crumb s2 (ukey b n) 8 0xFF 0 0 0) (tasterStat u) (ran * 2 ^ 16)
          match sig with
          | some x => tasterFault s3 b n 0x10 (x % 2 ^ 64)
          | none => tasterFault (drawn s3) b n 0x10 (freeVal s3 % 2 ^ 64)
  | _, _ => s

/-- TASTER_WEDGED: a window has not started TASTER_LATE µs after falling due, and ends without a comparison (R533). -/
def tasterWedgedAct (s : State) (b : Blk) (n : Nat) : State :=
  match tasterIdx b n, (unitAt s b n).tasterDue with
  | some _, some t =>
    if (unitAt s b n).tasterOn.isSome || decide ((s.time - t).toNat < regN s (safePg + 0x10C) * 1000) then s
    else tasterFault (setUnit s b n { unitAt s b n with tasterDue := none }) b n 0x11 0
  | _, _ => s

/-! ## Dual execution -/

/-- Pairs whose hamper is gone are forgotten. -/
def prunePairs (s : State) : State :=
  { s with safe := { s.safe with pairs := s.safe.pairs.filter (fun d => s.hampers.any (isHamper d.graph d.flow d.seq)) } }

/-- A DUAL_MISMATCH of a pair: the fault, the flow's entry, and DUAL_ESCALATED where the two before it lie within one second (R539, R540). -/
def dualMismatch (s : State) (d : DualPair) (a b : Nat) : State :=
  let g := graphAt s d.graph
  let id := (flowRecAt g d.flow).id
  let rec_ := fun (cause detail : Nat) => (⟨s.time, cause, causeClass cause, 0x0090, 0, g.part, id, d.seq.toNat, detail⟩ : FaultRec)
  let s1 := raiseIrq (pushFault (bump s (safePg + 0x80C) 1) (rec_ 0x20 (a % 2 ^ 32 + 2 ^ 32 * (b % 2 ^ 32)))) .safe 0 11 (some g.part)
  match (flowAt g d.flow).dualSlot with
  | none => s1
  | some k =>
    let e : DualFlow := tget (fun _ => {}) s1.safe.dual k
    let near := fun (t : DWord) => decide ((s.time - t).toNat ≤ 1000000000)
    let s2 := { s1 with safe := { s1.safe with dual := tset (fun _ => {}) s1.safe.dual k { e with count := e.count + 1, times := ([s.time] ++ e.times).take 3 } } }
    if decide (2 ≤ e.times.length) && (e.times.take 2).all near then pushFault s2 (rec_ 0x21 0) else s2

/-- DUAL_COMPARE: the oldest pair of copies that have both ended is compared (R536 to R540, R546). -/
def dualCompareAct (s : State) : State :=
  match s.safe.pairs.find? (fun d => !d.compared && d.prim.isSome && d.chk.isSome) with
  | none => s
  | some d =>
    let (st1, sg1) := d.prim.getD (0, 0)
    let (st2, sg2) := d.chk.getD (0, 0)
    let forced := injArmed s .safe 0 0
    let s1 := bump (if forced then injUsed s .safe 0 0 else s) (safePg + 0x808) 1
    let good := !forced && st1 == 0 && st2 == 0 && sg1 == sg2
    let s2 := { s1 with safe := { s1.safe with pairs := s1.safe.pairs.map (fun x => if x = d then { d with compared := true, agreed := good } else x) } }
    spreadAll (if good then s2 else dualMismatch s2 d sg1 sg2)

/-! ## The age monitor -/

/-- The oldest formed hamper of a flow that is neither released nor reported. -/
def oldestHamper (s : State) (g f : Nat) : Option Hamper := (hampersOf s g f).find? (fun h => !h.cancelled && !h.stopped)

/-- A slot is found overdue: AGE_OVERDUE, and for D0 an OVERDUE verdict (R527). -/
def overdue (s : State) (a : AgeSlot) (h : Option Hamper) : State :=
  let s1 := raiseIrq (bump s (safePg + 0x818) 1) .safe 0 10 (if a.valid then some a.part else none)
  if a.valid && a.part == 0 then
    let (q, age) := match h with
      | some x => (x.seq, ageOf s x)
      | none => ((0 : Word), 0)
    pushVerdict s1 ⟨s.time, a.flowId, 6, 0, q, age, 0⟩
  else s1

/-- One slot examined (R527). -/
def examineSlot (k : Nat) (s : State) : State :=
  let a := ageAt s k
  if !a.valid then s
  else match oldestHamper s a.graph a.flow with
    | none => s
    | some h =>
      if decide (ageOf s h ≤ a.bound) || a.overdueSeq == some h.seq then s
      else overdue (setAge s k { a with overdueSeq := some h.seq }) a (some h)

/-- AGE_EXAMINE: every slot is examined; BLK_ERR_INJ[3] makes the examination of TEST_SLOT find it overdue whatever its state (R527). -/
def ageExamineAct (s : State) : State :=
  let t := regN s (safePg + 0x114) % 256
  let s1 := if injArmed s .safe 0 3 then
      let a := ageAt s t
      overdue (injUsed s .safe 0 3) a (if a.valid then oldestHamper s a.graph a.flow else none)
    else s
  forAll (List.range 256) examineSlot s1

/-! ## Reactions -/

/-- Flows of a partition, or of all, stop in order of graph index and flow (R131, R519). -/
def stopFlows (s : State) (part : Option Nat) : State :=
  forAll (startedGraphs s) (fun g t =>
    if part = none ∨ part = some (graphAt t g).part then forAll (List.range (graphAt t g).flows.length) (islandStop g) t else t) s

/-- What a fault's class does to units and flows (R519, R521, R522). -/
def reactTo (r : FaultRec) (s : State) : State :=
  match r.cls with
  | 3 => stopFlows s none
  | 2 =>
    let s1 := match blkOfCode r.code with
      | some b => setUnit s b r.inst { unitAt s b r.inst with quarantined := true, tasterDue := none, tasterOn := none }
      | none => s
    stopFlows s1 (some 0)
  | 1 => forAll (startedGraphs s) (fun g t =>
      if (graphAt t g).part = r.part then forAll ((List.range (graphAt t g).flows.length).filter (fun f => (flowRecAt (graphAt t g) f).id == r.flow)) (islandStop g) t
      else t) s
  | _ => s

/-- FAULT_REACTION: SAFE_N is asserted and every reaction that waits is taken, the strongest class first (R517, R519, R521). -/
def faultReactionAct (s : State) : State :=
  if s.safe.react.isEmpty then s
  else
    let l := [3, 2, 1].flatMap (fun c => s.safe.react.filter (fun r => r.cls == c))
    forAll l reactTo (setSafeN { s with safe := { s.safe with react := [] } } true)

/-- A fault of the hardware path asserts SAFE_N at once (R518). -/
def hardFault (s : State) (cause : Nat) : State := setSafeN (fault s cause .safe 0) true

/-- LOCKSTEP: the island's cores disagree; SAFE_HB stops (R515, R517, R518). -/
def lockstepAct (s : State) : State := hardFault { s with safe := { s.safe with hbOn := false } } 0x01

/-- ISLAND_MEM_UE (R518, R520). -/
def islandMemAct (s : State) : State := hardFault s 0x02

/-! ## The clock monitor and the heartbeat -/

/-- Expected count of monitored clock i in 1 µs (R23, R515, R516): CLK_MGT, CLK_NOC, CLK_VIS, CLK_NC of cores 0 to 7, the 25 MHz reference, the
advance of TIMECNT in ns; none where the clock is absent or stopped. -/
def clkExpect (s : State) (i : Nat) : Option Nat :=
  match i with
  | 0 => some 400
  | 1 => if isRunning s then some 2000 else none
  | 2 => if isRunning s && !isStopped s then some 1500 else none
  | 11 => some 25
  | 12 => some 1000
  | _ => if decide (i < 11) && present s .nc (i - 3) && isRunning s && !isStopped s then some (regN s (pg .pwr 0 + 0x140 + 4 * s.pwr.cur) % 4096) else none

/-- CLOCK_MONITOR_WINDOW: the counts of a 1 µs window are compared, unless it holds a PLL switch; a clock off by more than 2 % in two
consecutive compared windows is a CLOCK_FAULT (R515, R516, R518). -/
def clockWindowAct (s : State) (counts : List Nat) : State :=
  let switched := match s.pwr.switchAt with
    | some t => decide ((s.time - t).toNat ≤ 1000)
    | none => false
  if switched then s
  else
    let bad := (List.range 13).filter (fun i => match clkExpect s i, counts[i]? with
      | some e, some c => decide (e < 50 * (if c < e then e - c else c - e))
      | _, _ => false)
    let twice := bad.filter s.safe.badClk.contains
    forAll twice (fun _ t => hardFault t 0x03) { s with safe := { s.safe with badClk := bad } }

/-- SAFE_HB: the heartbeat output toggles every 1 ms while the island's cores run in agreement (R517). -/
def safeHbAct (s : State) : State :=
  if s.safe.hbOn && decide (1000000 ≤ (s.time - s.safe.hbAt).toNat) then { s with safe := { s.safe with hbPin := !s.safe.hbPin, hbAt := s.time } } else s

/-! ## Registers of the SAFE page -/

/-- SAFE_RELEASE: SAFE_N is deasserted where the start passed, no permanent fault stands and the verdict ring exists (R517, R546). -/
def safeReleaseAct (s : State) : State :=
  let st := regN s (safePg + 0x104)
  if bitOf st 1 && !bitOf st 2 && regN s (safePg + 0x128) != 0 && isRunning s then setSafeN s false else s

/-- FAULT_POP: the oldest fault record is removed (R546, R547). -/
def faultPopAct (s : State) : State := { s with safe := { s.safe with faults := s.safe.faults.drop 1 } }

end Sys2Proof.Machine
end

