-- ==== Sys2Proof/Machine/Caps.lean ====
section
/-! DEFINITION. What the header of a page reads: BLK_ID, BLK_CAP and BLK_STAT (R4, R7, R66, R69 and the tables of each chapter). -/

namespace Sys2Proof.Machine
open Sys2Proof

/-- BLK_ID of a present instance: version 1, instance, type (R66, R69). -/
def blkId (b : Blk) (n : Nat) : Nat := 0x0100_0000 + n * 0x1_0000 + blkCode b

/-- Is a FABP instance present. -/
def anyFab (s : State) : Bool := !(presentList s .fabp).isEmpty

/-- Completion sources present: the taster units, DMA and the transport (R125, R132). -/
def sourcesPresent (s : State) : Nat :=
  (tasterUnits.filter (fun x => present s x.1 x.2)).length + b2n (present s .dma 0) + b2n (rolvOn s)

/-- BLK_CAP of a present instance (R7 and the BLK_CAP lines of each chapter). -/
def blkCap (s : State) (b : Blk) (n : Nat) : Nat :=
  match b with
  | .camp => 3
  | .cams => 1
  | .sctl => if n < 4 then 7 else 3
  | .rpl => 0x10
  | .isp => 0x040F
  | .pyr => 0x0008_0807
  | .warp => 0x0004_000F
  | .str => if multiBase s then 0x0200_0007 else 0x0200_0006
  | .flw => 0x0004_070F
  | .ftr => 0x0A08_0003
  | .fms => 0x0802_0000
  | .vtm => 0x0010_02B8
  | .nc => 0x27
  | .ncm => 0xFF
  | .ncv => 0x0007_0800
  | .spc => 0x0108_1040
  | .ncse => if anyFab s then 0x0110_0200 else 0x0010_0200
  | .vse => 0x0020_0200
  | .dma => if anyFab s then 0x0104_1020 else 0x0004_1020
  | .ladle => 0x40
  | .fgs => b2n (anyFab s) + 2 * b2n (decide (2 ≤ (presentList s .nc).length)) + 256 * sourcesPresent s
  | .hbm => if s.stackGiB = 24 then 0x000C_1820 else 0x0008_1020
  | .noc => 0x0400_0608
  | .fabp => 0x0004_000F
  | .rolv => 0x0800_4000
  | .safe => b2n (decide (2 ≤ (presentList s .nc).length)) + 2 + 256 * (tasterUnits.filter (fun x => present s x.1 x.2)).length + 0x4008_0000
  | .pwr => 0x0130_4010
  | .dbg => 0x4004 + 0x1_0000 * b2n (bitOf s.boot.fuses 32)
  | .sys | .cmdw | .ncd | .otp | .boot | .sec => 0

/-- Has a task-running unit no running, prefetched or parked task (R66). -/
def unitIdle (s : State) (b : Blk) (n : Nat) : Bool := let u := unitAt s b n; u.run.isNone && u.pre.isNone && u.parks.isEmpty

/-- Streams or channels of an engine hold no command. -/
def moversIdle (s : State) (l : List Nat) : Bool := l.all (fun k => (movAt s k).active.isNone)

/-- IDLE of a page (R39, R66). -/
def blkIdle (s : State) (b : Blk) (n : Nat) : Bool :=
  match b with
  | .sys => (startedGraphs s).isEmpty
  | .cams => (camsAt s n).frame.isNone
  | .isp | .pyr | .warp | .str | .flw | .ftr => unitIdle s b n
  | .nc | .ncm | .ncv | .ncd | .spc => unitIdle s .nc n
  | .ncse => moversIdle s (rangeFrom (16 * n) 16)
  | .vse => moversIdle s (rangeFrom (128 + 32 * n) 32)
  | .dma => moversIdle s (rangeFrom 256 32) && (List.range 32).all (unitIdle s .dma)
  | .rolv => (List.range 256).all (unitIdle s .rolv)
  | .fms => s.fms.loads.isEmpty
  | .fgs => s.units.all (fun e => e.2.run.isNone && e.2.pre.isNone && e.2.parks.isEmpty)
  | _ => true

/-- HALTED of a page: a fault stopped the block, or a global stop did (R66, R154, R170, R594); a halted stream or channel leaves its block running. -/
def blkHalted (s : State) (b : Blk) (n : Nat) : Bool :=
  (isStopped s && stopsIn b) ||
  (match b with
    | .cams => (camsAt s n).halted
    | .rpl => (rplAt s n).halted
    | _ => false)

/-- Block-defined bits [15:8] of BLK_STAT: FGS ACTIVE and FORM_HELD, CAMS IN_FRAME, ISP TONE_HELD, CLEARING of a scratchpad and of the
tile memory. -/
def blkStatDef (s : State) (b : Blk) (n : Nat) : Nat :=
  match b with
  | .fgs => b2n (!(startedGraphs s).isEmpty) + 2 * b2n ((List.range 4).any (fun p => !formEn s p))
  | .cams => b2n (camsAt s n).frame.isSome
  | .isp => b2n (commitHeld s n)
  | .spc => b2n (s.clearing.contains (pg .spc n))
  | .vtm => b2n (s.clearing.contains (pg .vtm 0))
  | _ => 0

/-- BLK_STAT of a present instance (R66). -/
def blkStat (s : State) (b : Blk) (n : Nat) : Nat :=
  b2n (blkIdle s b n) + 2 * b2n (s.commits.contains (pg (headBlk b) n)) + 4 * b2n (blkHalted s b n) + 8 + 256 * blkStatDef s b n

end Sys2Proof.Machine
end

