-- ==== Sys2Proof/Machine/Features.lean ====
section
/-! DEFINITION. The feature engines and the Feature Match Store (R283 to R308, R42). -/

namespace Sys2Proof.Machine
open Sys2Proof

/-! ## The store and its sets -/

/-- Page of the Feature Match Store. -/
def fmsPg : Nat := pg .fms 0

/-- Tile-memory offset of entry k (chapter 10). -/
def storeAt (k : Nat) : Nat := 0x2B8_0000 + 36 * k

/-- Entries of the store. -/
def storeSize : Nat := 131072

/-- Bytes of entry k: descriptor and tag. -/
def storeEntry (s : State) (k : Nat) : List Byte := memRead s.tile (storeAt k) 36

/-- Versions of a set, newest last. -/
def setVers (s : State) (m : Nat) : List MsVer := tget (fun _ => ([] : List MsVer)) s.fms.sets m

/-- The current version of a set; an unloaded set has COUNT 0 (R297). -/
def curVer (s : State) (m : Nat) : MsVer := ((setVers s m).getLast?).getD ⟨0, 0, 0, []⟩

/-- Set the versions of a set. -/
def putVers (s : State) (m : Nat) (l : List MsVer) : State := { s with fms := { s.fms with sets := tset (fun _ => []) s.fms.sets m l } }

/-- FMS_SET_OWN of a set: ASSIGNED in bit 8, the partition in bits 1:0 (R297, R308). -/
def setOwn (s : State) (m : Nat) : Nat := tget (fun _ => 0) s.fms.own m

/-- Is a set owned by a partition. -/
def ownsSet (s : State) (p m : Nat) : Bool := bitOf (setOwn s m) 8 && setOwn s m % 4 == p

/-- Entries a partition holds in current, loading and retiring versions: FMS_USE (R308). -/
def fmsUse (s : State) (p : Nat) : Nat :=
  s.fms.sets.foldl (fun k e => if ownsSet s p e.1 then k + sumN (e.2.map (·.count)) else k) 0 +
  sumN ((s.fms.loads.filter (fun l => l.started && l.part == p)).map (·.count))

/-- Retiring versions of a set that are still held: all but the newest (R301). -/
def retiring (s : State) (m : Nat) : List MsVer := (setVers s m).dropLast

/-- Drop retiring versions that no task holds any more (R301). -/
def freeVers (l : List MsVer) : List MsVer := l.dropLast.filter (fun v => !v.holders.isEmpty) ++ l.getLast?.toList

/-- The end of a task lets go of the versions it sampled (R301). -/
def fmsRelease (s : State) (r : TRef) : State :=
  let sets := s.fms.sets.map (fun e => (e.1, freeVers (e.2.map (fun v => { v with holders := v.holders.filter (fun h => h != r) }))))
  { s with fms := { s.fms with sets := sets } }

/-- A task samples the current version of a set (R300). -/
def fmsSample (s : State) (m : Nat) (r : TRef) : State :=
  match setVers s m with
  | [] => s
  | l => putVers s m (l.dropLast ++ (l.getLast?.map (fun v => { v with holders := v.holders ++ [r] })).toList)

/-- A task entering the running slot of an FTR engine samples the set its command names, if the command matches and its partition owns the set
(R300): the command's fields stand in memory. -/
def ftrEnter (s : State) (u : Nat) : State :=
  match vtask s .ftr u with
  | none => s
  | some t =>
    let b := peek s t.part ⟨0, t.ent.cmdAddr⟩ 24
    let op := leAt b 0 2
    let m := leAt b 22 1
    if b.length = 24 ∧ (op = 2 ∨ op = 1 ∧ bitOf (leAt b 5 1) 0) ∧ ownsSet s t.part m then fmsSample s m t.ref else s

/-- The version of a set that a task sampled; one of COUNT 0 where the set had none (R300). -/
def sampled (s : State) (m : Nat) (r : TRef) : MsVer := ((setVers s m).find? (fun v => v.holders.contains r)).getD ⟨0, 0, 0, []⟩

/-! ## Loads -/

/-- Offset of a partition's LOAD_STAT (R308). -/
def loadStat (p : Nat) : Nat := 0x400_0000 * p + fmsPg + 0x150

/-- A host request becomes the partition's latest: earlier ones no longer show in LOAD_STAT. -/
def loseLatest (s : State) (p : Nat) : State :=
  { s with fms := { s.fms with loads := s.fms.loads.map (fun l => if l.part == p then { l with latest := false } else l) } }

/-- A host request is rejected with a reason at once, or a load of one ends in one. -/
def hostReject (s : State) (p reason : Nat) : State := setRegN s (loadStat p) (0x100 + reason * 0x1000)

/-- A host request of a load or a clear (R299, R302): `v` is the value of LOAD_CTL. -/
def loadRequest (s : State) (p v : Nat) (clear : Bool) : State :=
  let m := v % 256
  let s1 := loseLatest s p
  let o := 0x400_0000 * p + fmsPg
  let l : MsLoad := ⟨m, p, 0, alignDown (reg64 s (o + 0x140) (o + 0x144)) 8 % 2 ^ 48, 0, regN s (o + 0x148) % storeSize, clear, true, none, false, false, 0, false, s.time⟩
  if !ownsSet s1 p m then raiseIrq (bump (hostReject s1 p 4) (fmsPg + 0x804) 1) .fms 0 9 (some p)
  else if genLocked s1 p then
    if 16 ≤ (s1.fms.loads.filter (fun x => x.deferred && x.part == p)).length then
      raiseIrq (bump (hostReject s1 p 3) (fmsPg + 0x804) 1) .fms 0 9 (some p)
    else
      let s2 := { s1 with fms := { s1.fms with loads := s1.fms.loads ++ [{ l with deferred := true }] } }
      rexViol (bump (setRegN s2 (loadStat p) 2) (fmsPg + 0x808) 1) 2
  else setRegN { s1 with fms := { s1.fms with loads := s1.fms.loads ++ [l] } } (loadStat p) 1

/-- Deferred loads whose graphs have stopped stand in the queue as requested, at a hamper's formation: in order of issue, ahead of later
host loads (R42). -/
def undefer (s : State) : State :=
  let go := fun (l : MsLoad) => l.deferred && l.due
  let s1 := { s with fms := { s.fms with loads := s.fms.loads.map (fun l => if go l then { l with deferred := false } else l) } }
  forAll (s.fms.loads.filter go) (fun l t => if l.latest then setRegN t (loadStat l.part) 1 else t) s1

/-- Rank of a request among those of one instant: a task's by its engine, then the host's (R299). -/
def loadRank (l : MsLoad) : Nat := match l.task with | some (_, u) => u | none => 2

/-- A request joins the queue, after those of earlier instants and those of its instant that rank no higher (R299). -/
def queueLoad (l : MsLoad) : List MsLoad → List MsLoad
  | [] => [l]
  | x :: r => if !x.started && x.at_ == l.at_ && decide (loadRank l < loadRank x) then l :: x :: r else x :: queueLoad l r

/-- A load ends without a new version: a task ends with the status, a host request shows the reason (R299, R308). -/
def loadFail (s : State) (l : MsLoad) (status reason : Nat) : State :=
  let s1 := bump { s with fms := { s.fms with loads := s.fms.loads.erase l } } (fmsPg + 0x804) 1
  match l.task with
  | some (_, u) => finishRun s1 .ftr u status
  | none => raiseIrq (if l.latest then hostReject s1 l.part reason else s1) .fms 0 9 (some l.part)

/-- The cause of a failing read of a set file. -/
def loadFault (s : State) (l : MsLoad) (c : Nat) : State :=
  let t := raiseErr s .fms 0 10 (some l.part)
  loadFail (match l.task with | some (_, u) => raiseErr t .ftr u 8 none | none => t) l (visStatus 0x0602 c) 5

/-- Does a range of entries meet a version of any set (R299). -/
def storeBusy (s : State) (b n : Nat) : Bool :=
  s.fms.sets.any (fun e => e.2.any (fun v => overlap (b, n) (v.base, v.count)))

/-- The header of a set file is good (R298). -/
def setFileOk (h : List Byte) : Bool :=
  leAt h 0 4 == 0x31534D46 && decide (1 ≤ leAt h 4 4) && decide (leAt h 4 4 ≤ storeSize) && zeros h 8 12 && leAt h 12 4 == crc32 (h.take 12)

/-- A queued load begins once earlier loads have ended (R299): its checks, then its entries are written. -/
def loadStart (s : State) : State :=
  if s.fms.loads.any (·.started) then s
  else match s.fms.loads.find? (fun l => !l.deferred) with
    | none => s
    | some l =>
      let start := fun (t : State) (n d : Nat) =>
        { t with fms := { t.fms with loads := t.fms.loads.replace l { l with count := n, digest := d, started := true } } }
      if l.clear then start s 0 0
      else match planeRead l.part l.space l.addr 16 s with
        | (.error c, t) => loadFault t l c
        | (.ok h, t) =>
          let n := leAt h 4 4
          if !setFileOk h then loadFail t l 0x0607 2
          else if storeBusy t l.base n || decide (storeSize < l.base + n) ||
              decide (regN t (fmsPg + 0x180 + 4 * l.part) % 2 ^ 18 < fmsUse t l.part + n) then loadFail t l 0x0606 1
          else match planeRead l.part l.space (l.addr + 16) (36 * n) t with
            | (.error c, u) => loadFault u l c
            | (.ok b, u) => start { u with tile := memWrite u.tile (storeAt l.base) b } n (crc64 b)

/-- The version switch after the last entry write (R299): the new version becomes current, the old one retires. -/
def versionSwitch (s : State) : State :=
  match s.fms.loads.find? (·.started) with
  | none => s
  | some l =>
    let s1 := { s with fms := { s.fms with loads := s.fms.loads.erase l
                                           gen := tset (fun _ => 0) s.fms.gen l.set ((tget (fun _ => 0) s.fms.gen l.set + 1) % 2 ^ 32) } }
    let s2 := putVers s1 l.set (freeVers (setVers s1 l.set ++ [⟨if l.clear then 0 else l.base, l.count, l.digest, []⟩]))
    let s3 := bump s2 (fmsPg + 0x800) 1
    match l.task with
    | some (_, u) => finishRun s3 .ftr u 0
    | none => raiseIrq (if l.latest then setRegN s3 (loadStat l.part) 0 else s3) .fms 0 8 (some l.part)

/-- Write of SET_OWN of a set (R308). -/
def setOwnWrite (s : State) (m v : Nat) : State :=
  if (curVer s m).count = 0 ∧ (retiring s m).isEmpty ∧ (curVer s m).holders.isEmpty then
    { s with fms := { s.fms with own := tset (fun _ => 0) s.fms.own m (v % 4 + b2n (bitOf v 8) * 256) } }
  else s

/-! ## Detection -/

/-- The fields of an FTR command (R303). -/
structure FtrCmd where
  op : Nat
  fmt : Nat
  out : Nat
  arc : Nat
  nms : Nat
  w : Nat
  h : Nat
  maxF : Nat
  gx : Nat
  gy : Nat
  thr : Nat
  inShift : Nat
  gradShift : Nat
  harrisK : Nat
  scoreShift : Nat
  set : Nat
  diffTag : Bool
  ratio : Nat
  maxDist : Nat
  stride : Nat
  deriving DecidableEq, Repr

/-- Its fields. -/
def readFtr (c : List Byte) : FtrCmd :=
  { op := leAt c 0 2, fmt := leAt c 2 1, out := leAt c 5 1, arc := leAt c 6 1, nms := leAt c 7 1, w := leAt c 8 2, h := leAt c 10 2
    maxF := leAt c 12 2, gx := leAt c 14 1, gy := leAt c 15 1, thr := leAt c 16 2, inShift := leAt c 18 1, gradShift := leAt c 19 1
    harrisK := leAt c 20 1, scoreShift := leAt c 21 1, set := leAt c 22 1, diffTag := bitOf (leAt c 23 1) 0, ratio := leAt c 24 2
    maxDist := leAt c 26 2, stride := leAt c 28 4 }

def FtrCmd.doMatch (k : FtrCmd) : Bool := k.op == 2 || bitOf k.out 0
def FtrCmd.grad (k : FtrCmd) : Bool := bitOf k.out 1

/-- Ranges of the fields matching uses. -/
def ftrMatchOk (c : List Byte) : Bool :=
  decide (leAt c 23 1 < 2) && decide (1 ≤ leAt c 24 2) && decide (leAt c 24 2 ≤ 256) && decide (leAt c 26 2 ≤ 256) &&
  decide (leAt c 3 1 < 16) && decide (leAt c 4 1 < 16) && leAt c 40 8 % 64 == 0 && leAt c 48 8 % 64 == 0

/-- Ranges, stated zeros and alignments of R303, by opcode. -/
def ftrCmdOk (c : List Byte) : Bool :=
  let k := readFtr c
  let dim := fun (v : Nat) => decide (48 ≤ v) && decide (v ≤ 8192)
  match k.op with
  | 1 => decide (k.fmt ≤ 1) && decide (k.out < 4) && decide (9 ≤ k.arc) && decide (k.arc ≤ 12) && decide (1 ≤ k.nms) && decide (k.nms ≤ 7) &&
    dim k.w && dim k.h && decide (1 ≤ k.maxF) && decide (k.maxF ≤ 8192) && decide (1 ≤ k.gx) && decide (k.gx ≤ 32) && decide (1 ≤ k.gy) &&
    decide (k.gy ≤ 32) && decide (k.inShift ≤ 8) && decide (k.gradShift ≤ 8) && decide (k.scoreShift ≤ 63) && ftrMatchOk c &&
    decide (k.w * visBpp k.fmt ≤ k.stride) && leAt c 32 8 % visBpp k.fmt == 0 && leAt c 56 8 % 64 == 0 &&
    (k.doMatch || leAt c 48 8 == 0) && (k.grad || leAt c 56 8 == 0)
  | 2 => ftrMatchOk c && zeros c 2 3 && zeros c 5 22 && zeros c 28 40 && zeros c 56 64
  | 3 => decide (leAt c 3 1 < 2) && decide (leAt c 4 1 < 2) && leAt c 32 8 % 8 == 0 && zeros c 2 3 && zeros c 5 8 && zeros c 12 22 &&
    zeros c 23 32 && zeros c 40 64
  | _ => false

/-- The circle offsets of R286. -/
def circle : List (Int × Int) := [(0, -3), (1, -3), (2, -2), (3, -1), (3, 0), (3, 1), (2, 2), (1, 3), (0, 3), (-1, 3), (-2, 2), (-3, 1), (-3, 0),
  (-3, -1), (-2, -2), (-1, -3)]

/-- The longest run of true in a list. -/
def longestRun (l : List Bool) : Nat := (l.foldl (fun (acc : Nat × Nat) b => let r := if b then acc.1 + 1 else 0; (r, max acc.2 r)) (0, 0)).2

/-- A working sample at an offset of a place (R284). -/
def wAt (q : Plane Nat) (x y : Nat) (d : Int × Int) : Nat := q.at_ ((x : Int) + d.1).toNat ((y : Int) + d.2).toNat

/-- The segment test (R286). -/
def segTest (k : FtrCmd) (q : Plane Nat) (x y : Nat) : Bool :=
  let c := q.at_ x y
  let ring := circle.map (wAt q x y)
  let run := fun (f : Nat → Bool) => decide (k.arc ≤ longestRun ((ring ++ ring).map f))
  run (fun v => decide (c + k.thr < v)) || run (fun v => decide (v + k.thr < c))

/-- The Harris score (R287). -/
def harris (k : FtrCmd) (q : Plane Nat) (x y : Nat) : Nat :=
  let g := (blockOffs 3).map (fun d =>
    (((wAt q x y (d.1 + 1, d.2) : Int) - wAt q x y (d.1 - 1, d.2)) / (2 ^ k.gradShift : Nat),
     ((wAt q x y (d.1, d.2 + 1) : Int) - wAt q x y (d.1, d.2 - 1)) / (2 ^ k.gradShift : Nat)))
  let a := sumI (g.map (fun v => v.1 * v.1))
  let b := sumI (g.map (fun v => v.2 * v.2))
  let c := sumI (g.map (fun v => v.1 * v.2))
  let r := a * b - c * c - ((k.harrisK : Int) * (a + b) * (a + b)) / 256
  if 0 < r then min 0xFFFF_FFFF (r / (2 ^ k.scoreShift : Nat)).toNat else 0

/-- A candidate feature: place and score. -/
structure Feat where
  x : Nat
  y : Nat
  score : Nat
  fill : Bool := false
  deriving DecidableEq, Repr, Inhabited

/-- Does one feature rank above another (R288). -/
def Feat.above (a b : Feat) : Bool :=
  decide (b.score < a.score) || (a.score == b.score && (decide (a.y < b.y) || (a.y == b.y && decide (a.x < b.x))))

/-- The scores of an image: 0 where a pixel is no candidate (R285 to R287). -/
def scorePlane (k : FtrCmd) (q : Plane Nat) : Plane Nat :=
  Plane.build k.w k.h (fun x y =>
    if 16 ≤ x ∧ x + 17 ≤ k.w ∧ 16 ≤ y ∧ y + 17 ≤ k.h ∧ segTest k q x y then harris k q x y else 0)

/-- Candidates in raster order. -/
def candList (p : Plane Nat) : List Feat :=
  ((List.range p.h).flatMap (fun y => (List.range p.w).map (fun x => (⟨x, y, p.at_ x y, false⟩ : Feat)))).filter (fun f => decide (1 ≤ f.score))

/-- Does a candidate survive suppression (R288). -/
def survives (k : FtrCmd) (p : Plane Nat) (f : Feat) : Bool :=
  (blockOffs k.nms).all (fun d =>
    let x := ((f.x : Int) + d.1).toNat
    let y := ((f.y : Int) + d.2).toNat
    let g : Feat := ⟨x, y, p.at_ x y, false⟩
    g.score == 0 || !g.above f)

/-- The cell of a place (R290). -/
def cellOf (k : FtrCmd) (f : Feat) : Nat := f.y * k.gy / k.h * k.gx + f.x * k.gx / k.w

/-- The features selected, in raster order (R289, R290): survivors come ranked, at most 32,768. -/
def selectFeats (k : FtrCmd) (ranked : List Feat) : List Feat :=
  let quota := k.maxF / (k.gx * k.gy)
  let step := fun (acc : List Feat × List Feat × List (Nat × Nat)) (f : Feat) =>
    let c := cellOf k f
    let n := ((acc.2.2.find? (fun e => e.1 == c)).map (·.2)).getD 0
    if n < quota then (acc.1 ++ [f], acc.2.1, (c, n + 1) :: acc.2.2.filter (fun e => e.1 != c)) else (acc.1, acc.2.1 ++ [f], acc.2.2)
  let (first, rest, _) := ranked.foldl step ([], [], [])
  let more := (rest.take (k.maxF - first.length)).map (fun f => { f with fill := true })
  (first ++ more).mergeSort (fun a b => decide (a.y < b.y) || (a.y == b.y && decide (a.x ≤ b.x)))

/-! ## Orientation and descriptors -/

/-- Table T of R291. -/
def cosT : List Int := [16384, 16069, 15137, 13623, 11585, 9102, 6270, 3196, 0]

/-- C and S of R291. -/
def cosB (b : Nat) : Int :=
  let b := if 16 < b then 32 - b else b
  if b ≤ 8 then nth 0 cosT b else -(nth 0 cosT (16 - b))
def sinB (b : Nat) : Int := cosB ((b + 24) % 32)

/-- The direction bin of a vector (R291). -/
def dirBin (gx gy : Int) : Nat :=
  ((List.range 32).foldl (fun (best : Option (Int × Nat)) b =>
    let v := cosB b * gx + sinB b * gy
    match best with
    | none => some (v, b)
    | some e => if e.1 < v then some (v, b) else some e) none).elim 0 (fun e => e.2)

/-- The orientation of a feature (R292). -/
def orient (q : Plane Nat) (x y : Nat) : Nat :=
  let ds := (blockOffs 15).filter (fun d => decide (d.1 * d.1 + d.2 * d.2 ≤ 225))
  dirBin (sumI (ds.map (fun d => d.1 * (wAt q x y d : Nat)))) (sumI (ds.map (fun d => d.2 * (wAt q x y d : Nat))))

/-- One draw of the generator of R293: the state's next value. -/
def rngNext (v : Nat) : Nat :=
  let a := v ^^^ (v <<< 13 % 2 ^ 32)
  let b := a ^^^ (a >>> 17)
  b ^^^ (b <<< 5 % 2 ^ 32)

/-- Four coordinates drawn, and the state after. -/
def rngQuad (v : Nat) : (Int × Int × Int × Int) × Nat :=
  let a := rngNext v
  let b := rngNext a
  let c := rngNext b
  let d := rngNext c
  let k := fun (n : Nat) => (n % 27 : Nat) - (13 : Int)
  ((k a, k b, k c, k d), d)

/-- The pairs of points of R293; fuel bounds the draws, and 2,000 suffice. -/
def drawPairs : Nat → Nat → Nat → List (Int × Int × Int × Int)
  | 0, _, _ => []
  | _, 0, _ => []
  | f + 1, n + 1, v =>
    let (p, v') := rngQuad v
    if p.1 * p.1 + p.2.1 * p.2.1 ≤ 169 ∧ p.2.2.1 * p.2.2.1 + p.2.2.2 * p.2.2.2 ≤ 169 ∧ (p.1, p.2.1) ≠ (p.2.2.1, p.2.2.2) then
      p :: drawPairs f n v'
    else drawPairs f (n + 1) v'

/-- The 256 pairs. -/
def descPairs : List (Int × Int × Int × Int) := drawPairs 2000 256 0x2545F491

/-- A point rotated by an orientation, with rounding at a shift (R293, R294). -/
def rotPoint (o sh : Nat) (px py : Int) : Int × Int :=
  let h : Int := (2 ^ (sh - 1) : Nat)
  let m : Int := (2 ^ sh : Nat)
  ((cosB o * px - sinB o * py + h) / m, (sinB o * px + cosB o * py + h) / m)

/-- The sum over the 5 by 5 square at an offset (R293). -/
def boxSum (q : Plane Nat) (x y : Nat) (d : Int × Int) : Nat := sumN ((blockOffs 2).map (fun e => wAt q x y (d.1 + e.1, d.2 + e.2)))

/-- The binary descriptor (R293). -/
def binDesc (q : Plane Nat) (x y o : Nat) : List Byte :=
  bitBytes 32 (descPairs.map (fun p => decide (boxSum q x y (rotPoint o 14 p.1 p.2.1) < boxSum q x y (rotPoint o 14 p.2.2.1 p.2.2.2))))

/-- The gradient-histogram descriptor (R294). -/
def gradDesc (q : Plane Nat) (x y o : Nat) : List Byte :=
  let votes : List (Nat × Nat) := (List.range 16).flatMap (fun (j : Nat) => (List.range 16).map (fun (i : Nat) =>
    let u := rotPoint o 15 (2 * (i : Int) - 15) (2 * (j : Int) - 15)
    let gx := ((wAt q x y (u.1 + 1, u.2) : Nat) : Int) - wAt q x y (u.1 - 1, u.2)
    let gy := ((wAt q x y (u.1, u.2 + 1) : Nat) : Int) - wAt q x y (u.1, u.2 - 1)
    ((j / 4 * 4 + i / 4) * 8 + (dirBin gx gy + 32 - o) % 32 / 4, gx.natAbs + gy.natAbs)))
  let hist : Array Nat := votes.foldl (fun a v => a.modify v.1 (· + v.2)) (Array.replicate 128 0)
  let tot := sumN hist.toList
  hist.toList.flatMap (fun h => natLe 1 (min 255 ((h * 2048 + tot / 2) / max 1 tot)))

/-! ## Matching -/

/-- Hamming distance of two descriptors. -/
def hamming (a b : List Byte) : Nat := popcount 256 (leNat a ^^^ leNat b)

/-- A match record's fields (R295, R300). -/
structure MatchRec where
  best : Nat := 0xFFFF_FFFF
  tag : Nat := 0
  h1 : Nat := 0xFFFF
  h2 : Nat := 0xFFFF
  noSecond : Bool := true
  matched : Bool := false
  deriving DecidableEq, Repr

/-- Match a descriptor against entries (descriptor, tag) of a version (R300). -/
def matchOne (k : FtrCmd) (es : List (List Byte × Nat)) (d : List Byte) : MatchRec :=
  let hs := (es.map (fun e => (hamming d e.1, e.2))).zipIdx
  match hs.foldl (fun (b : Option ((Nat × Nat) × Nat)) e => match b with
      | none => some e
      | some x => if e.1.1 < x.1.1 then some e else some x) none with
  | none => { noSecond := true }
  | some b =>
    let others := hs.filter (fun e => if k.diffTag then e.1.2 != b.1.2 else e.2 != b.2)
    match others with
    | [] => { best := b.2, tag := b.1.2, h1 := b.1.1, matched := decide (b.1.1 ≤ k.maxDist) }
    | o :: os =>
      let h2 := os.foldl (fun m e => min m e.1.1) o.1.1
      { best := b.2, tag := b.1.2, h1 := b.1.1, h2 := h2, noSecond := false
        matched := decide (b.1.1 ≤ k.maxDist) && decide (256 * b.1.1 < k.ratio * h2) }

/-- A match record's bytes. -/
def matchBytes (m : MatchRec) : List Byte :=
  natLe 4 m.best ++ natLe 4 m.tag ++ natLe 2 m.h1 ++ natLe 2 m.h2 ++ natLe 1 (b2n m.matched + 2 * b2n m.noSecond) ++ natLe 3 0

/-- The next entry read of the store meets an armed injection (R296, R308): a corrected error is counted; is it uncorrectable. -/
def storeMeet (s : State) : Bool × State :=
  let s1 := if injArmed s .fms 0 0 then raiseErr (bump (injUsed s .fms 0 0) (fmsPg + 0x80C) 1) .fms 0 8 none else s
  if injArmed s1 .fms 0 1 then (true, raiseErr (injUsed s1 .fms 0 1) .fms 0 9 none) else (false, s1)

/-- A match reads the entries of its version: injected errors act on the first (R296). -/
def storeUse (any : Bool) : Eng Unit := fun s =>
  if !any then (.ok (), s)
  else match storeMeet s with
    | (true, t) => (.error 0x0608, t)
    | (false, t) => (.ok (), t)

/-- Match the descriptors of n features, each read by `get`, against a sampled version, and write their records in order, counting (R295, R300, R307):
how many matched. -/
def matchAll (t : VTask) (k : FtrCmd) (v : MsVer) (dst : VAddr) (n : Nat) (get : Nat → Eng (List Byte)) : Eng Nat := do
  let es ← Eng.get (fun s => (List.range v.count).map (fun i => let e := storeEntry s (v.base + i); (e.take 32, leAt e 32 4)))
  let hits ← Eng.forM (List.range n) (fun i => do
    let d ← get i
    storeUse (0 < v.count)
    let r := matchOne k es d
    Eng.modify (fun s => bump64 s (pg .ftr t.inst + 0x808) v.count)
    writeLine1 t.part dst 0x0603 (16 * i) (matchBytes r)
    Eng.modify (fun s => bump s (pg .ftr t.inst + 0x81C) (b2n r.matched))
    pure (b2n r.matched))
  pure (sumN hits)

/-! ## The tasks -/

/-- The list header of a detection (R295). -/
def featHead (t : VTask) (n flags cands survs : Nat) (v : MsVer) (run : Bool) (matched : Nat) : List Byte :=
  let b := natLe 4 t.seq.toNat ++ natLe 2 n ++ natLe 2 flags ++ natLe 4 cands ++ natLe 4 survs ++
    natLe 8 (if run then v.digest else 0) ++ natLe 4 (if run then v.count else 0) ++ natLe 4 matched ++ List.replicate 28 0
  b ++ natLe 4 (crc32 b)

/-- The line-buffer injection of an FTR page, whose counter lies apart (R305, R307). -/
def ftrInject (u : Nat) : Eng Unit := fun s =>
  let s1 := if injArmed s .ftr u 0 then raiseErr (bump (injUsed s .ftr u 0) (pg .ftr u + 0x810) 1) .ftr u 10 none else s
  if injArmed s1 .ftr u 1 then (.error 0x0604, injUsed s1 .ftr u 1) else (.ok (), s1)

/-- FTR_DETECT (R283 to R295). -/
def ftrDetect (t : VTask) (c : List Byte) : Eng Unit := do
  let k := readFtr c
  let at_ := fun (off b rot : Nat) => vaddr c off b (leAt c 3 1) (leAt c 4 1) rot
  let src := at_ 32 0 t.rotIn
  let feat := at_ 40 1 t.rotOut
  let mat := at_ 48 2 t.rotOut
  let grad := at_ 56 3 t.rotOut
  let outs := [(feat, 64 + 48 * k.maxF)] ++ (if k.doMatch then [(mat, 16 * k.maxF)] else []) ++ (if k.grad then [(grad, 128 * k.maxF)] else [])
  Eng.need (rangesApart [(src, k.stride * k.h)] outs) 0x0601
  let own ← Eng.get (fun s => ownsSet s t.part k.set)
  Eng.need (!k.doMatch || own) 0x0605
  let v ← Eng.get (fun s => sampled s k.set t.ref)
  let ls ← Eng.get (fun s => peekLines s t.part src k.stride (visBpp k.fmt) (0, k.w) (List.range k.h))
  Eng.each (meetFirst (ftrInject t.inst) ((List.range k.h).map (pullLine t.part src k.stride (visBpp k.fmt) 0x0602 (0, k.w)))) id
  let raw := monoOf k.w k.h (visSs k.fmt) ls
  let q := Plane.build k.w k.h (fun x y => raw.at_ x y >>> k.inShift)
  let sp := scorePlane k q
  let cands := candList sp
  let survs := cands.filter (survives k sp)
  let cut := decide (32768 < survs.length)
  let kept := (survs.mergeSort (fun a b => !b.above a)).take 32768
  let feats := selectFeats k kept
  let desc := feats.map (fun f => let o := orient q f.x f.y; (f, o, binDesc q f.x f.y o))
  if cut then Eng.modify (fun s => bump s (pg .ftr t.inst + 0x818) 1)
  Eng.each desc.zipIdx (fun e => do
    let f := e.1.1
    writeLine1 t.part feat 0x0603 (64 + 48 * e.2) (natLe 2 f.x ++ natLe 2 f.y ++ natLe 4 f.score ++ natLe 1 e.1.2.1 ++ natLe 1 (b2n f.fill) ++
      natLe 2 (cellOf k f) ++ natLe 4 0 ++ e.1.2.2)
    if k.grad then writeLine1 t.part grad 0x0603 (128 * e.2) (gradDesc q f.x f.y e.1.2.1)
    Eng.modify (fun s => bump s (pg .ftr t.inst + 0x804) 1))
  let n ← if k.doMatch then matchAll t k v mat desc.length (fun i => pure ((desc.map (fun d => d.2.2)).getD i [])) else pure 0
  writeLine1 t.part feat 0x0603 0 (featHead t feats.length (b2n k.doMatch + 2 * b2n cut) cands.length survs.length v k.doMatch n)

/-- FTR_MATCH (R283, R295, R300). -/
def ftrMatch (t : VTask) (c : List Byte) : Eng Unit := do
  let k := readFtr c
  let feat := vaddr c 40 1 (leAt c 3 1) (leAt c 4 1) t.rotIn
  let mat := vaddr c 48 2 (leAt c 3 1) (leAt c 4 1) t.rotOut
  let own ← Eng.get (fun s => ownsSet s t.part k.set)
  Eng.need own 0x0605
  let v ← Eng.get (fun s => sampled s k.set t.ref)
  let h ← Eng.as 0x0602 (planeRead t.part feat.space feat.a 64)
  Eng.need (leAt h 60 4 == crc32 (h.take 60)) 0x0609
  let cnt := leAt h 4 2
  Eng.need (rangesApart [(feat, 64 + 48 * cnt)] [(mat, 16 * cnt)]) 0x0601
  let n ← matchAll t k v mat cnt (fun i => do
    let b ← Eng.as 0x0602 (planeRead t.part feat.space (feat.a + 64 + 48 * i) 48)
    if i == 0 then ftrInject t.inst
    pure ((b.drop 16).take 32))
  let flags := natLe 2 (1 + 2 * b2n (bitOf (leAt h 6 2) 1))
  let mid := natLe 8 v.digest ++ natLe 4 v.count ++ natLe 4 n
  let body := h.take 6 ++ flags ++ (h.drop 8).take 8 ++ mid ++ (h.drop 32).take 28
  writeLine1 t.part feat 0x0603 6 flags
  writeLine1 t.part feat 0x0603 16 mid
  writeLine1 t.part feat 0x0603 60 (natLe 4 (crc32 body))

/-- The command of a running FTR task, checked: its opcode decides which row runs it. -/
def ftrCommand (t : VTask) : Eng (List Byte) := do
  let c ← t.command 64 0x0601 0x0602
  Eng.need (ftrCmdOk c) 0x0601
  pure c

/-- Opcode of the running FTR task of an instance; one that cannot be read counts as 1. -/
def ftrOp (s : State) (u : Nat) : Nat :=
  match vtask s .ftr u with
  | none => 0
  | some t => match vaNat s t.part t.ent.cmdAddr 2 with
    | .ok op => if op = 2 ∨ op = 3 then op else 1
    | .error _ => 1

/-- FTR_DETECT of an instance: every command but those of the other two opcodes. -/
def ftrDetectAct (s : State) (u : Nat) : State :=
  if ftrOp s u = 1 then runVis s .ftr u (visBit 0x0600) (fun t => do
    let c ← ftrCommand t
    ftrDetect t c) else s

/-- FTR_MATCH of an instance. -/
def ftrMatchAct (s : State) (u : Nat) : State :=
  if ftrOp s u = 2 then runVis s .ftr u (visBit 0x0600) (fun t => do
    let c ← ftrCommand t
    ftrMatch t c) else s

/-- FMS_LOAD of an instance: the load is requested, and the task waits for its end (R299). -/
def fmsLoadAct (s : State) (u : Nat) : State :=
  if ftrOp s u != 3 then s
  else match vtask s .ftr u with
    | none => s
    | some t =>
      if s.fms.loads.any (fun l => match l.task with | some x => x.1 == t.ref | none => false) then s
      else match (do
          let c ← ftrCommand t
          let own ← Eng.get (fun s => ownsSet s t.part (leAt c 22 1))
          Eng.need own 0x0605
          pure c : Eng (List Byte)) s with
        | (.error st, s1) => finishRun (match visBit 0x0600 st with | some k => raiseErr s1 .ftr u k none | none => s1) .ftr u st
        | (.ok c, s1) =>
          let v := vaddr c 32 0 (leAt c 3 1) (leAt c 4 1) t.rotIn
          let l : MsLoad := ⟨leAt c 22 1, t.part, v.space, v.a, 0, leAt c 8 4, false, false, some (t.ref, u), false, false, 0, false, s1.time⟩
          { s1 with fms := { s1.fms with loads := queueLoad l s1.fms.loads } }

end Sys2Proof.Machine
end

