-- ==== Sys2Proof/Machine/CommandWindow.lean ====
section
/-! DEFINITION. The command window: submission, decision and the commands of a partition (R76 to R80, R85, R100, R130, R653, R656). -/

namespace Sys2Proof.Machine
open Sys2Proof

/-! ## Submission and decision -/

/-- Word i of a submission's CMD_DATA. -/
def argN (w : List Word) (i : Nat) : Nat := (nth 0 w i).toNat

/-- A 64-bit argument, low word first (R80). -/
def arg64 (w : List Word) (i : Nat) : Nat := argN w i + 2 ^ 32 * argN w (i + 1)

/-- A rejection's CMD_HANDLE (R79). -/
def rejection (p reason : Nat) : Nat := 2 ^ 31 + p * 2 ^ 29 + reason

/-- The reasons that apply, as codes; the lowest is reported (R79). -/
def lowest (l : List (Bool × Nat)) : Option Nat :=
  (l.filterMap (fun x => if x.1 then some x.2 else none)).foldl (fun m c => match m with
    | none => some c
    | some d => some (min c d)) none

/-- Reasons every command may be rejected for: NO_LOG, and BUSY for want of a slot or a held log (R79, R83). -/
def commonReasons (s : State) (p : Nat) : List (Bool × Nat) :=
  [(regN s (cw p + 0x158) == 0, 5), ((freeSlot s p).isNone || cplBlocked s p, 6)]

/-- The decision on a command of a partition and its effect: the value CMD_HANDLE takes, and the state (R76 to R80). -/
def decideN (p op : Nat) (w : List Word) (reasons : State → List (Bool × Nat)) (act : Nat → State → State) (s : State) : Nat × State :=
  match lowest (commonReasons s p ++ reasons s), freeSlot s p with
  | none, some i => let (h, t) := takeSlot s p i op (argN w 0); (h, act h t)
  | some r, _ => (rejection p r, s)
  | none, none => (rejection p 6, s)

/-- Decide a submission: rejected with the lowest reason, or accepted with a slot and carried out (R76 to R80). -/
def decideCmd (p op : Nat) (w : List Word) (reasons : State → List (Bool × Nat)) (act : Nat → State → State) (s : State) : State :=
  let (h, t) := decideN p op w reasons act (setCmdw s p { cmdwAt s p with latched := none })
  setRegN t (cw p + 0x144) h

/-- A write of CMD_SUBMIT: the arguments and the opcode are latched, unless an earlier submission is undecided (R76, R77). -/
def submitAct (s : State) (p op : Nat) : State :=
  if (cmdwAt s p).latched.isSome then raiseErr s .cmdw p 10 none
  else
    let w := (List.range 16).map (fun i => reg s (cw p + 0x100 + 4 * i))
    setRegN (setCmdw s p { cmdwAt s p with latched := some (op % 256, w) }) (cw p + 0x144) 0x8000_0000

/-- Write the words of a submission to CMD_DATA (R76). -/
def writeArgs (s : State) (p : Nat) (w : List Word) : State :=
  forAll (w.take 16).zipIdx (fun x t => setReg t (cw p + 0x100 + 4 * x.2) x.1) s

/-- A command row: `args` given, the submission is made and decided at once; none, the latched one is decided if it has this opcode. -/
def cmdRow (op p : Nat) (args : Option (List Word)) (reasons : List Word → State → List (Bool × Nat))
    (act : List Word → Nat → State → State) (s : State) : State :=
  if decide (3 < p) || !isRunning s || isStopped s then s
  else
    let s1 := match args with
      | some w => submitAct (writeArgs s p w) p op
      | none => s
    let fresh := args.isNone || !(cmdwAt s p).latched.isSome
    match (cmdwAt s1 p).latched with
    | some (o, w) => if o = op ∧ fresh then decideCmd p op w (reasons w) (act w) s1 else s1
    | none => s1

/-- A submission with an opcode that R80 does not define is rejected with BAD_OPCODE (R79). -/
def badOpcode (p : Nat) (s : State) : State :=
  match (cmdwAt s p).latched with
  | some (o, _) => if o = 0 ∨ 8 < o then setRegN (setCmdw s p { cmdwAt s p with latched := none }) (cw p + 0x144) (rejection p 3) else s
  | none => s

/-! ## LOAD_GRAPH and UNLOAD_GRAPH -/

/-- Is a graph index held by a partition, with its graph resident (R79, R80). -/
def holds (s : State) (p g : Nat) : Bool :=
  let x := graphAt s g
  x.stat != .free && x.stat != .loading && x.part == p

/-- Reasons of LOAD_GRAPH (R79, R80, R92, R99). -/
def loadReasons (p : Nat) (w : List Word) (s : State) : List (Bool × Nat) :=
  let g := argN w 0
  let a := arg64 w 1
  let n := argN w 3
  let x := graphAt s g
  let img := vaRead s p a n
  let ok := match img with
    | .ok b => imageOk s p n b
    | .error _ => false
  [(x.stat != .free && x.part != p, 2), (decide (255 < g), 4), (x.stat != .free, 8), (!vaOk s p a n .r, 13), (vaOk s p a n .r && !ok, 11),
   (ok && (match img with | .ok b => tableFull s p (readImage b) | .error _ => false), 12)]

/-- An accepted LOAD_GRAPH: the image enters the tables (R80, R91). -/
def loadAct (p : Nat) (w : List Word) (h : Nat) (s : State) : State :=
  match vaRead s p (arg64 w 1) (argN w 3) with
  | .ok b => setGraph s (argN w 0) { stat := .loading, part := p, img := readImage b, loadHandle := h }
  | .error _ => s

/-- The image is resident: the load completes (R80). -/
def residentAct (s : State) (g : Nat) : State :=
  let x := graphAt s g
  if x.stat = .loading then pushFinal (setGraph s g { x with stat := .loaded, loadHandle := 0 }) x.loadHandle stOk (blkCode .fgs) else s

/-- Reasons of UNLOAD_GRAPH (R79). -/
def unloadReasons (p : Nat) (w : List Word) (s : State) : List (Bool × Nat) :=
  let g := argN w 0
  let x := graphAt s g
  [(decide (255 < g), 4), (x.stat == .free || x.part != p, 7), (x.stat == .loading && x.part == p, 8), (isStarted x && x.part == p, 9)]

/-- An accepted UNLOAD_GRAPH frees the slot (R80). -/
def unloadAct (w : List Word) (h : Nat) (s : State) : State := pushFinal (setGraph s (argN w 0) {}) h stOk (blkCode .fgs)

/-! ## START_GRAPH -/

/-- Flows of an image with an age bound, and flows with SAFETY_DUAL, by index. -/
def boundFlows (im : Image) : List Nat := (List.range im.flows.length).filter (fun i => (nth ⟨0, 0, false, 0⟩ im.flows i).bound != 0)
def dualFlows (im : Image) : List Nat := (List.range im.flows.length).filter (fun i => (nth ⟨0, 0, false, 0⟩ im.flows i).dual)

/-- Can the image bind: every index finds an instance, no stream is taken, no ladle is bound to another graph (R30, R100, R451). -/
def bindOk (s : State) (p g : Nat) (im : Image) : Bool :=
  ownsEnough s p im &&
  (match bindAll s p im with
    | none => false
    | some l => l.all (fun b =>
        (b.1 != blkCode .cams || !(busyStreams s).contains b.2.2) &&
        (b.1 != blkCode .ladle || (match (ladleAt s b.2.2).bound with | none => true | some k => k == g))))

/-- Is a command for a graph of the partition addressed to a flow that a safe-state request stops (R21). -/
def graphAffected (s : State) (p g : Nat) : Bool :=
  holds s p g && (List.range (graphAt s g).img.flows.length).any (affected s g)

/-- Reasons of START_GRAPH (R21, R39, R40, R79, R91, R100, R535). -/
def startReasons (p : Nat) (w : List Word) (s : State) : List (Bool × Nat) :=
  let g := argN w 0
  let x := graphAt s g
  let ok := holds s p g && !isStarted x
  let rex := bitOf (app s 0x180) 0 && bitOf x.img.flags 0 && !rexActive s
  [(graphAffected s p g, 1), (decide (255 < g), 4), (s.commits.contains 0, 6), (!holds s p g, 7), (holds s p g && isStarted x, 9),
   (ok && (rex || !bindOk s p g x.img), 11),
   (ok && (decide ((freeAges s).length < (boundFlows x.img).length) || decide ((freeDuals s).length < (dualFlows x.img).length)), 12)]

/-- The flows of a starting graph with the age slots and dual entries they take, lowest first (R528, R535). -/
def startFlows (s : State) (im : Image) : List FlowSt :=
  (List.range im.flows.length).map (fun i =>
    { ageSlot := ((boundFlows im).findIdx? (· == i)).bind (fun k => (freeAges s)[k]?)
      dualSlot := ((dualFlows im).findIdx? (· == i)).bind (fun k => (freeDuals s)[k]?) })

/-- Take the age slot and the dual entry of one flow (R528, R535). -/
def takeFlow (g p h : Nat) (im : Image) (x : FlowSt × Nat) (s : State) : State :=
  let f := nth ⟨0, 0, false, 0⟩ im.flows x.2
  let s1 := match x.1.ageSlot with
    | some a => setAge s a { valid := true, graph := g, flow := x.2, flowId := f.id, part := p, bound := f.bound, handle := h }
    | none => s
  match x.1.dualSlot with
  | some d => { s1 with safe := { s1.safe with dual := tset (fun _ => {}) s1.safe.dual d { valid := true, graph := g, flow := x.2, flowId := f.id } } }
  | none => s1

/-- An accepted START_GRAPH (R41, R45, R100, R101). -/
def startAct (p : Nat) (w : List Word) (h : Nat) (s : State) : State :=
  let g := argN w 0
  let x := graphAt s g
  let binds := (bindAll s p x.img).getD []
  let seed := if bitOf (argN w 1) 0 then arg64 w 2 else x.img.seed
  let fl := startFlows s x.img
  let s1 := forAll fl.zipIdx (takeFlow g p h x.img) s
  let s2 := forAll ((binds.filter (fun b => b.1 == blkCode .ladle)).map (·.2.2)) (fun l t => setLadle t l { q := [], bound := some g, aborted := [] }) s1
  let s3 := setGraph s2 g { x with
    stat := .started, handle := h, stopHandle := 0, seed := seed, startAt := s.time, binds := binds, flows := fl, runs := 0, nodeDone := [], lastSeq := none }
  toneBegin (dlogPut s3 p 0x0001 g 0 seed (app s 0x180 % 65536 + 0x1_0000))

/-! ## STOP_GRAPH -/

/-- Halted movers whose arming task belongs to a graph: their halt becomes final (R441). -/
def finalOfGraph (g : Nat) (s : State) : State :=
  forAll (s.movers.map Prod.fst) (fun k t =>
    let v := movAt t k
    match v.active with
    | some c => if v.halted && !v.final && (match c.task with | some r => r.graph == g | none => false) then finalFault t (movOf k) v.cause else t
    | none => t) s

/-- Stop a started graph (R85, R130, R653, R656); `stop` is the handle of STOP_GRAPH. -/
def stopGraphAct (s : State) (g stop : Nat) (drain : Bool) : State :=
  let fs := flowsById (graphAt s g)
  let s1 := forAll fs (fun f t => logFlowStop t g f 2) s
  let s2 := setGraph s1 g { graphAt s1 g with stat := if drain then .drain else .cancel, stopHandle := stop }
  let s3 := forAll fs (fun f t => if drain then dropResv t g f stCancelled 0 else discardFlow t g f stCancelled 0 false) s2
  finishGraph (finalOfGraph g s3) g

/-- Reasons of STOP_GRAPH (R21, R79). -/
def stopReasons (p : Nat) (w : List Word) (s : State) : List (Bool × Nat) :=
  let g := argN w 0
  [(graphAffected s p g, 1), (decide (255 < g), 4), (!holds s p g, 7), (holds s p g && (graphAt s g).stat != .started, 10)]

/-! ## RUN_ONCE -/

/-- The flow whose COMMAND trigger carries a number (R80, R97). -/
def commandFlow (x : Graph) (n : Nat) : Option Nat :=
  ((x.img.trigs.find? (fun t => t.kind == 3 && t.num == n)).bind (fun t => flowIdx x t.flow))

/-- Reasons of RUN_ONCE (R21, R79, R80, R103, R109, R131). Its table address is checked when the hamper forms (R80, R129). -/
def runReasons (p : Nat) (w : List Word) (s : State) : List (Bool × Nat) :=
  let g := argN w 0
  let x := graphAt s g
  let f := commandFlow x (argN w 1)
  let up := holds s p g && x.stat == .started
  [(up && (match f with | some i => (flowAt x i).stopped || affected s g i | none => false), 1),
   (decide (255 < g) || decide (0xFFFF < argN w 1) || (holds s p g && f.isNone), 4), (up && (match f with | some i => !roomFor s g i | none => false), 6),
   (!holds s p g, 7), (holds s p g && x.stat != .started, 10)]

/-- An accepted RUN_ONCE reserves the next sequence of its flow (R101, R106). -/
def runAct (w : List Word) (h : Nat) (s : State) : State :=
  let g := argN w 0
  let x := graphAt s g
  match commandFlow x (argN w 1) with
  | some f => reserve (setGraph s g { x with runs := x.runs + 1 }) g f
      { seq := BitVec.ofNat 32 x.runs, stamp := s.time, handle := h, table := arg64 w 2 }
  | none => s

/-! ## DMA_COPY and QUERY -/

/-- Reasons of DMA_COPY (R79, R80, R432, R444). -/
def copyReasons (p : Nat) (w : List Word) (s : State) : List (Bool × Nat) :=
  let n := argN w 4
  let c := argN w 5 % 32
  [(!(chanList s p).contains c, 2), (n == 0, 4), (armFull s (256 + c), 6), (!vaOk s p (arg64 w 0) n .r || !vaOk s p (arg64 w 2) n .w, 13)]

/-- An accepted DMA_COPY is armed on its channel (R432, R444). -/
def copyAct (p : Nat) (w : List Word) (h : Nat) (s : State) : State :=
  armCmd s (.ch (argN w 5 % 32)) { part := p, handle := h, copy := some (arg64 w 0, arg64 w 2, argN w 4) }

/-- Instances whose pages a partition reaches: its own assignable ones and the shared ones, in the order of their pages (R26, R27, R70). -/
def reachable (s : State) (p : Nat) : List (Blk × Nat) :=
  (allBlks.flatMap (fun b => match blkClass b with
    | .assignable => (presentList s b).filterMap (fun n => if owner s b n == p then some (b, n) else none)
    | .shared => (presentList s b).map (fun n => (b, n))
    | .window => [(b, p)]
    | .firmware => [])).mergeSort (fun x y => decide (pg x.1 x.2 ≤ pg y.1 y.2))

/-- OPP_STAT (R572). -/
def oppStat (s : State) : Nat :=
  let w := s.pwr
  w.cur + 2 ^ 4 * w.target + 2 ^ 8 * w.fixed + 2 ^ 12 * w.maxOpp + 2 ^ 16 * b2n w.openMode + 2 ^ 17 * b2n (w.step != 0) + 2 ^ 18 * b2n w.deferred +
  2 ^ 19 * b2n w.emerg

/-- CPL_STAT (R75, R83, R651). -/
def cplStat (s : State) (p : Nat) : Nat := b2n (cplFull s p && !(cmdwAt s p).fault && !(cmdwAt s p).wbFault) + 2 * b2n (cplHeld s p)

/-- The words of a QUERY (R80). -/
def queryWords (s : State) (p sel : Nat) : List Nat :=
  match sel with
  | 0 => (reachable s p).flatMap (fun x => [blkId x.1 x.2, blkCap s x.1 x.2])
  | 1 => (s.graphs.filter (fun e => holdsIndex e.2 && e.2.part == p)).map (·.1)
  | 2 => [outstanding s p] ++ [0x150, 0x154, 0x158, 0x15C, 0x160, 0x164, 0x168, 0x16C, 0x170].map (fun o => regN s (cw p + o)) ++ [cplStat s p] ++
      [0, 4, 8, 0xC, 0x10].map (fun o => regN s (dl p + o))
  | _ => [regN s (pg .pwr 0 + 0x100), oppStat s]

/-- Reasons of QUERY (R79, R80). -/
def queryReasons (p : Nat) (w : List Word) (s : State) : List (Bool × Nat) :=
  [(decide (3 < argN w 0), 4), (!vaOk s p (arg64 w 1) (argN w 3) .w, 13)]

/-- An accepted QUERY writes as much of the result as its length admits (R80). -/
def queryAct (p : Nat) (w : List Word) (h : Nat) (s : State) : State :=
  let b := ((queryWords s p (argN w 0)).flatMap (natLe 4)).take (argN w 3)
  pushFinal (vaWrite s p (arg64 w 1) b).1 h stOk (blkCode .cmdw)

/-! ## A command by its opcode -/

/-- Reasons of an opcode submitted at partition level: one that R80 does not define is BAD_OPCODE, SET_OPP needs host privilege. -/
def opReasons (p op : Nat) (w : List Word) (s : State) : List (Bool × Nat) :=
  match op with
  | 1 => loadReasons p w s
  | 2 => unloadReasons p w s
  | 3 => startReasons p w s
  | 4 => stopReasons p w s
  | 5 => runReasons p w s
  | 6 => copyReasons p w s
  | 7 => [(true, 2)]
  | 8 => queryReasons p w s
  | _ => [(true, 3)]

/-- The effect of an accepted command of an opcode. -/
def opAct (p op : Nat) (w : List Word) (h : Nat) (s : State) : State :=
  match op with
  | 1 => loadAct p w h s
  | 2 => unloadAct w h s
  | 3 => startAct p w h s
  | 4 => stopGraphAct s (argN w 0) h (bitOf (argN w 1) 0)
  | 5 => runAct w h s
  | 6 => copyAct p w h s
  | 8 => queryAct p w h s
  | _ => s

/-! ## Coalescing -/

/-- COAL_TIME passes for the oldest record not signalled (R86). -/
def coalExpire (s : State) (p : Nat) : State := signalIf s p false

end Sys2Proof.Machine
end

