-- ==== Sys2Proof/Machine/Rolven.lean ====
section
/-! DEFINITION. The receiving side of the Rolven transport, its timers, remote operations and failures (R479 to R508). -/

namespace Sys2Proof.Machine
open Sys2Proof

/-! ## Headers -/

/-- The header of a received packet and its payload (R482). -/
structure Rx where
  ty : Nat
  flags : Nat
  sp : Nat
  dp : Nat
  src : Nat
  dst : Nat
  psn : Nat
  ackPsn : Nat
  sack : Nat
  spec : Nat
  pay : List Byte
  deriving DecidableEq, Repr

/-- Read a packet (R482). -/
def readRx (b : List Byte) : Rx :=
  { ty := leAt b 1 1, flags := leAt b 2 1, sp := fld (leAt b 3 1) 0 2, dp := fld (leAt b 3 1) 2 2, src := leAt b 4 2, dst := leAt b 6 2,
    psn := leAt b 8 4 % 2 ^ 24, ackPsn := leAt b 12 4 % 2 ^ 24, sack := leAt b 16 16, spec := leAt b 32 8, pay := (b.drop 40).take (b.length - 44) }

/-- Is a packet whole: a header, a CRC-32 over header and payload, version 1 (R482). -/
def crcOk (b : List Byte) : Bool := decide (44 ≤ b.length) && leAt b (b.length - 4) 4 == crc32 (b.take (b.length - 4))

/-- Distance of a PSN from another modulo 2^24 (R484). -/
def psnGap (a b : Nat) : Nat := (a + 2 ^ 24 - b % 2 ^ 24) % 2 ^ 24

/-- Peer entries, ascending, that are valid and not DOWN. -/
def livePeers (s : State) : List Nat := (s.rolv.peers.map Prod.fst).filter (peerUp s)

/-- The entry a received packet belongs to: of the valid entries of its sender's node, first those owned by the destination partition
(log entry 19). -/
def rxPeer (s : State) (x : Rx) : Option Nat :=
  let l := (livePeers s).filter (fun i => peerNode s i == x.src)
  (l.find? (fun i => peerOwner s i == x.dp)).orElse (fun _ => l.head?)

/-- A frame comes in on a link (R511): counted, or lost to an injected uncorrectable codeword. -/
def frameIn (s : State) (link : Nat) : Bool × State :=
  let f := link / 4
  let a := pg .fabp f
  if injArmed s .fabp f 0 then (false, raiseErr (bump (injUsed s .fabp f 0) (a + 0x80C) 1) .fabp f 8 none)
  else (true, bump s (a + 0x804) 1)

/-- A datagram arrives on a link (R480, R482, R511): counts, discards, and the packet where it is whole and addressed to this node. -/
def rxDgram (s : State) (link : Nat) (g : Dgram) : Option Rx × State :=
  if !s.rolv.links.contains link || !rolvOn s then (none, s)
  else match frameIn s link with
    | (false, t) => (none, t)
    | (true, s1) =>
      let s2 := if g.ce then bump s1 (pg .fabp (link / 4) + 0x814) 1 else s1
      if g.bad then (none, bump s2 (rv 0x800) 1)
      else if !crcOk g.pkt then (none, raiseErr s2 .rolv 0 8 none)
      else if leAt g.pkt 0 1 != 1 then (none, s2)
      else (some (readRx g.pkt), s2)

/-! ## Movers and accesses -/

/-- The first element of a mover's armed pairs, from its position on, whose remote side lies at an address: pair, element, write side. -/
def remElem (v : Mov) (a : Nat) : Nat × Nat × Bool :=
  let side := fun (d : Desc) (n : Nat) => d.space == 4 && decide (remAddr d (elemAddr d n).toNat ≤ a) && decide (a < remAddr d (elemAddr d n).toNat + elemSize d.fmt 4)
  ((v.descs.zipIdx.flatMap (fun x => (List.range (max x.1.1.elems x.1.2.elems)).filterMap (fun n =>
    if side x.1.2 n then some (x.2, n, true) else if side x.1.1 n then some (x.2, n, false) else none))).head?).getD (v.pair, v.elem, true)

/-- A mover halts with REMOTE_FAIL at the element of a remote address; the cause is final (R440, R491, R507). -/
def remoteFail (s : State) (k a : Nat) : State :=
  let v := movAt s k
  match v.active with
  | none => s
  | some c => if v.halted then s else
    let (i, n, w) := remElem v a
    haltAtPos s (movOf k) c i n 0x25 w

/-- A packet in flight has been acknowledged: a mover's write is done, a SIGNAL task has sent its message (R430, R500). -/
def pktAcked (i : Nat) (p : Pkt) (s : State) : State :=
  if p.mov = 0 then s
  else if 0x1000 ≤ p.mov then (if (unitAt s .rolv (p.mov - 0x1000)).run.isSome then finishRun s .rolv (p.mov - 0x1000) 0 else s)
  else
    let k := p.mov - 1
    setMov s k { movAt s k with remW := (movAt s k).remW.filter (fun x => x != (i, p.psn)) }

/-- Take the acknowledgement a packet carries: packets below ACK_PSN leave, SACK marks others, the window moves on (R484, R485). -/
def takeAck (s : State) (i : Nat) (x : Rx) : State :=
  let c := connAt s i
  let done := fun (p : Pkt) => let d := psnGap x.ackPsn p.psn; decide (1 ≤ d) && decide (d ≤ 2 ^ 23)
  let keep := (c.flight.filter (fun p => !done p)).map (fun p =>
    let d := psnGap p.psn (x.ackPsn + 1)
    if d < 128 && bitOf x.sack d then { p with sacked := true } else p)
  let s1 := setConn s i { c with flight := keep, ecnSeen := c.ecnSeen || (bitOf x.flags 1 && x.ty == 4) }
  fillWindow 128 (forAll (c.flight.filter done) (pktAcked i) s1) i

/-! ## Remote operations -/

/-- Key of a register of barrier group g: 0 BG_CFG, 1 and 2 BG_LIST, 3 BG_WAIT (R502, R512). -/
def bg (g i : Nat) : Nat := rv (0x4000 + 0x20 * g + 4 * i)

/-- Applied fields of a group (R512). -/
def bgCfg (s : State) (g : Nat) : Nat := app s (bg g 0)
def bgValid (s : State) (g : Nat) : Bool := bitOf (bgCfg s g) 31
def bgOwner (s : State) (g : Nat) : Nat := fld (bgCfg s g) 28 2
def bgSelf (s : State) (g : Nat) : Bool := bitOf (bgCfg s g) 15
def bgRoot (s : State) (g : Nat) : Nat := fld (bgCfg s g) 0 14
def bgMembers (s : State) (g : Nat) : Nat := fld (bgCfg s g) 16 10 + 1

/-- The member list of a group at its root (R502). -/
def bgList (s : State) (g : Nat) : List Nat :=
  match vaRead s (bgOwner s g) (app64 s (bg g 1) (bg g 2)) (2 * (bgMembers s g - 1)) with
  | .ok b => (List.range (bgMembers s g - 1)).map (fun i => leAt b (2 * i) 2 % 2 ^ 14)
  | .error _ => []

/-- A remote-operation command (R508): opcode, group, peer, tag. -/
structure RemCmd where
  op : Nat
  group : Nat
  peer : Nat
  tag : Nat
  deriving DecidableEq, Repr

/-- Progress of a remote-operation slot. -/
def remOp (s : State) (k : Nat) : RemOp := tget (fun _ => {}) s.rolv.ops k
def setRemOp (s : State) (k : Nat) (r : RemOp) : State := { s with rolv := { s.rolv with ops := tset (fun _ => {}) s.rolv.ops k r } }

/-- The command of the task in a remote-operation slot: none where its layout is broken or it cannot be read (R508). -/
def remCmdOf (s : State) (r : TRef) : Option RemCmd :=
  let g := graphAt s r.graph
  let e := taskEnt g r.idx
  if e.cmdLen != 32 then none
  else match vaRead s g.part e.cmdAddr 32 with
    | .error _ => none
    | .ok b =>
      let op := leAt b 0 2
      if (op == 1 && zeros b 3 32 || op == 2 && zeros b 2 4 && zeros b 8 32 && decide (leAt b 4 2 < 2 ^ 14)) then
        some ⟨op, leAt b 2 1, leAt b 4 2, leAt b 6 2⟩ else none

/-- A remote-operation task is over, with a status. -/
def remEnd (s : State) (k st : Nat) : State := finishRun (setRemOp s k {}) .rolv k st

/-- Add a barrier wait of dt ns to its group, and its µs to the owner partition (R504). -/
def barrierWaited (s : State) (g dt : Nat) : State :=
  bump64 (bump64 s (bg g 3) dt) (rv (0x2200 + 8 * bgOwner s g)) (dt / 1000)

/-- Running BARRIER tasks of a group and a sequence, by slot. -/
def barrierTasks (s : State) (g q : Nat) : List Nat :=
  (List.range 256).filter (fun k => let u := unitAt s .rolv k
    match u.run with
    | some r => u.done.isNone && r.seq.toNat == q && (match remCmdOf s r with | some c => c.op == 1 && c.group == g | none => false) && (remOp s k).acted
    | none => false)

/-- The barrier of a group releases for a sequence at this node: its tasks end (R503, R504). -/
def barrierDone (s : State) (g q : Nat) : State :=
  forAll (barrierTasks s g q) (fun k t => remEnd (barrierWaited t g (t.time - (remOp t k).since).toNat) k 0) s

/-- Count an arrival at the root; the last one releases every member (R503). None: the root holds 64 other sequences. -/
def countArrival (s : State) (g q : Nat) (own : Bool) : Option State :=
  let l := s.rolv.arrivals
  let a := (l.find? (fun a => a.group == g && a.seq == q)).getD ⟨g, q, 0, false⟩
  let rest := l.filter (fun a => !(a.group == g && a.seq == q))
  if a.count = 0 ∧ 64 ≤ (l.filter (fun a => a.group == g)).length then none
  else
    let b := { a with count := a.count + 1, own := a.own || own }
    if b.count < bgMembers s g then some { s with rolv := { s.rolv with arrivals := rest ++ [b] } }
    else
      let s1 := { s with rolv := { s.rolv with arrivals := rest } }
      let s2 := forAll (bgList s1 g) (fun i t => if peerUp t i then (sendConn t i 0x0B 0 (g + 2 ^ 8 * q) [] 0 0).2 else t) s1
      some (barrierDone s2 g q)

/-- BARRIER: the task of a slot arrives at its root (R502, R503, R507, R508). -/
def barrierAct (s : State) (k : Nat) : State :=
  let u := unitAt s .rolv k
  match u.run with
  | none => s
  | some r =>
    if u.done.isSome || (remOp s k).acted || !rolvOn s then s
    else
      let p := (graphAt s r.graph).part
      let q := r.seq.toNat
      match remCmdOf s r with
      | none => remEnd s k 0x0A01
      | some c =>
        if c.op = 2 then s
        else if !bgValid s c.group || bgOwner s c.group != p || decide (bgMembers s c.group < 2) then remEnd s k 0x0A03
        else
          let s1 := setRemOp s k { acted := true, since := s.time }
          if bgSelf s c.group then (countArrival s1 c.group q true).getD s
          else if !peerUp s (bgRoot s c.group) then remEnd s k 0x0A02
          else (sendConn s1 (bgRoot s c.group) 0x0A (5 * p) (c.group + 2 ^ 8 * q) [] 0 0).2

/-- Credits held for a peer entry and tag (R501). -/
def creditsFor (s : State) (i tag : Nat) : Nat := tget (fun _ => 0) (connAt s i).credits tag
def setCredits (s : State) (i tag n : Nat) : State :=
  setConn s i { connAt s i with credits := tset (fun _ => 0) (connAt s i).credits tag n }

/-- The stamp of the hamper of a task (R106). -/
def stampOf (s : State) (r : TRef) : DWord := match hamperOf s r with | some h => h.stamp | none => 0

/-- SIGNAL: the task of a slot sends its message, or asks for a credit and waits (R500, R501, R507, R508). -/
def signalAct (s : State) (k : Nat) : State :=
  let u := unitAt s .rolv k
  match u.run with
  | none => s
  | some r =>
    if u.done.isSome || !rolvOn s then s
    else
      let p := (graphAt s r.graph).part
      match remCmdOf s r with
      | none => remEnd s k 0x0A01
      | some c =>
        if c.op = 1 || (connAt s c.peer).flight.any (fun x => x.mov == 0x1000 + k) || (connAt s c.peer).queue.any (fun x => x.mov == 0x1000 + k) then s
        else if !peerValid s c.peer || peerOwner s c.peer != p then remEnd s k 0x0A01
        else if (connAt s c.peer).state = 2 then remEnd s k 0x0A02
        else if (connAt s c.peer).taken.contains c.tag then remEnd s k 0x0A04
        else if 0 < creditsFor s c.peer c.tag then
          (sendConn (setCredits s c.peer c.tag (creditsFor s c.peer c.tag - 1)) c.peer 0x08 (5 * p) (c.tag + 2 ^ 16 * r.seq.toNat)
            (natLe 8 (stampOf s r).toNat ++ List.replicate 56 0) (0x1000 + k) 0).2
        else if (remOp s k).acted then s
        else sendLoose (setRemOp s k { acted := true, since := s.time }) c.peer 0x0F (5 * p) c.tag []

/-! ## Credits granted -/

/-- The flow whose ROLVEN trigger carries a tag among the started graphs of a partition (R97, R500). -/
def tagFlow (s : State) (p tag : Nat) : Option (Nat × Nat) :=
  s.graphs.findSome? (fun e => if e.2.stat = .started ∧ e.2.part = p then
    ((e.2.img.trigs.find? (fun t => t.kind == 4 && t.num == tag)).bind (fun t => flowIdx e.2 t.flow)).map (fun f => (e.1, f)) else none)

/-- The tag of a flow's ROLVEN trigger. -/
def flowTag (s : State) (g f : Nat) : Nat := (trigOf (graphAt s g) f).num

/-- Grant credits a bound flow owes: each hamper released or abandoned gives one back (R501). -/
def grantOwed (s : State) : State :=
  let live := s.rolv.bound.filter (fun b => (graphAt s (b.1 / 1024)).stat == .started)
  let s1 := if live = s.rolv.bound then s else { s with rolv := { s.rolv with bound := live } }
  forAll live (fun b t =>
    let g := b.1 / 1024
    let f := b.1 % 1024
    let owed := (flowRecAt (graphAt t g) f).maxOut - outstandingHampers t g f - b.2.2
    if owed = 0 then t
    else
      let t1 := { t with rolv := { t.rolv with bound := t.rolv.bound.map (fun x => if x.1 = b.1 then (x.1, x.2.1, x.2.2 + owed) else x) } }
      (sendConn t1 b.2.1 0x09 0 (flowTag t g f + 2 ^ 16 * owed) [] 0 0).2) s1

/-- A credit request (R501). -/
def creditReq (s : State) (i : Nat) (x : Rx) : State :=
  let tag := x.spec % 65536
  match tagFlow s x.dp tag with
  | none => s
  | some (g, f) => match s.rolv.bound.find? (fun b => b.1 == g * 1024 + f) with
    | none => grantOwed { s with rolv := { s.rolv with bound := s.rolv.bound ++ [(g * 1024 + f, i, 0)] } }
    | some b => if b.2.1 = i then s else (sendConn s i 0x09 (4 * x.sp + x.dp) (tag + 2 ^ 24) [] 0 0).2

/-! ## Applying a packet -/

/-- Reason of R491 for a cause of a window access. -/
def nackReason (c : Nat) : Nat := if c = 0x22 then 2 else 3

/-- Rows and bytes of a window access: (row relative to the window, first byte, bytes). -/
def winCuts : Nat → Nat → Nat → List (Nat × Nat × Nat)
  | 0, _, _ => []
  | _, _, 0 => []
  | f + 1, o, n => let k := min n (512 - o % 512); (o / 512, o % 512, k) :: winCuts f (o + k) (n - k)

/-- A remote access of n bytes at a window address, checked (R391, R392, R491): the core, and the scratchpad byte of window byte 0. -/
def remAccess (s : State) (x : Rx) (n : Nat) (rd : Bool) : Except Nat (Nat × Nat) × State :=
  let a := x.spec % 2 ^ 32
  match logicalCore s x.dp (fld a 29 3) with
  | none => (.error 1, s)
  | some c =>
    let row := winBase s c (fld a 26 3) + fld a 0 26 / 512
    match winCheck c (fld a 26 3) row ((fld a 0 26 + n - 1) / 512 - fld a 0 26 / 512 + 1) (.remote x.src x.sp) rd s with
    | (.error e, t) => (.error (nackReason e), t)
    | (.ok _, t) => (.ok (c, row * 512 + fld a 0 26 % 512), t)

/-- Answer on the connection, from the destination partition back to the source. -/
def answer (s : State) (i : Nat) (x : Rx) (ty spec : Nat) (pay : List Byte) : State := (sendConn s i ty (x.dp + 4 * x.sp) spec pay 0 0).2

/-- Apply a WRITE (R491). -/
def rxWrite (s : State) (i : Nat) (x : Rx) : State :=
  let refuse := fun (r : Nat) (t : State) => answer t i x 0x05 (r + 2 ^ 16 * x.psn) []
  match remAccess s x x.pay.length false with
  | (.error r, t) => refuse r t
  | (.ok (c, o), t) => match spWrite c o x.pay t with
    | (.error _, u) => refuse 3 u
    | (.ok _, u) => (winRowsIn c ((o % 512 + x.pay.length + 511) / 512) u).2

/-- Apply a READ_REQ: the response carries the data, or a status and none (R491, R492). -/
def rxReadReq (s : State) (i : Nat) (x : Rx) : State :=
  let n := 64 * fld x.spec 32 16
  let tag := fld x.spec 48 16
  let refuse := fun (r : Nat) (t : State) => answer t i x 0x03 (tag + 2 ^ 16 * r) []
  match remAccess s x n true with
  | (.error r, t) => refuse r t
  | (.ok (c, o), t) => match spWide c o n t with
    | (.error _, u) => refuse 3 u
    | (.ok b, u) => answer u i x 0x03 tag b

/-- Apply a READ_RESP: the oldest request to the peer under its tag has its data, or its mover halts (R491, R492). -/
def rxReadResp (s : State) (i : Nat) (x : Rx) : State :=
  let k := x.spec % 65536
  let st := fld x.spec 16 8
  let v := movAt s k
  match v.asks.find? (fun a => remPeer a.1 == i) with
  | none => s
  | some (a, n) =>
    if st != 0 then remoteFail (lastFail s i st) k a
    else
      let r := (List.range n).foldl (fun m j => tset (fun _ => []) m (a / 64 + j) ((x.pay.drop (64 * j)).take 64)) v.remR
      setMov s k { v with asks := v.asks.erase (a, n), remR := r }

/-- Apply a NACK: the mover whose packet was refused halts; a refused TRIGGER is over (R491, R500). -/
def rxNack (s : State) (i : Nat) (x : Rx) : State :=
  let q := fld x.spec 16 24
  let c := connAt s i
  match c.flight.find? (fun p => p.psn == q) with
  | none => s
  | some p =>
    let s1 := setConn s i { c with flight := c.flight.filter (fun y => y.psn != q) }
    if p.mov = 0 ∨ 0x1000 ≤ p.mov then pktAcked i p s1
    else pktAcked i p (remoteFail (lastFail s1 i (fld x.spec 0 8)) (p.mov - 1) p.addr)

/-- Is a remote command refused before it is submitted (R498). -/
def rcmdRefused (s : State) (x : Rx) : Bool :=
  let o := rv (0x3000 + 0x100 * x.dp)
  !bitOf (regN s (o + 0x10)) 0 || decide (x.src < fld (regN s (o + 0x14)) 0 16) || decide (fld (regN s (o + 0x14)) 16 16 < x.src) || x.spec % 256 == 7

/-- Apply a CMD: submitted to the command window of the destination partition, and answered with its handle (R498). -/
def rxCmd (s : State) (i : Nat) (x : Rx) : State :=
  let op := x.spec % 256
  let w := (List.range 16).map (fun j => BitVec.ofNat 32 (leAt x.pay (4 * j) 4))
  let (h, t) := if rcmdRefused s x then (rejection x.dp 2, s) else decideN x.dp op w (opReasons x.dp op w) (opAct x.dp op w) s
  answer t i x 0x07 (h + 2 ^ 32 * fld x.spec 8 8) []

/-- Apply a CMD_RESP (R499). -/
def rxCmdResp (s : State) (i : Nat) (x : Rx) : State :=
  let p := fld x.spec 32 8
  let o := rv (0x3000 + 0x100 * p)
  if tget (fun _ => (none : Option Nat)) s.rolv.submits p = some i then
    setRegN (setRegN { s with rolv := { s.rolv with submits := tset (fun _ => none) s.rolv.submits p none } } (o + 0xC) (x.spec % 2 ^ 32)) (o + 8) 2
  else s

/-- Apply a TRIGGER (R101, R500). One from a peer that holds no credit reserves its sequence like any other; one that the tables have no room
for is discarded (R91; log entry 124). -/
def rxTrigger (s : State) (i : Nat) (x : Rx) : State :=
  let q : Word := BitVec.ofNat 32 (fld x.spec 16 32)
  match tagFlow s x.dp (x.spec % 65536) with
  | none => answer (bump (drawn s) (rv 0x808) 1) i x 0x05 (freeVal s % 256 + 2 ^ 16 * x.psn) []
  | some (g, f) =>
    let fl := flowAt (graphAt s g) f
    if fl.stopped || (match fl.highResv with | some h => !seqAbove q h | none => false) || !tablesRoom s g f then bump s (rv 0x808) 1
    else reserve { s with rolv := { s.rolv with bound := s.rolv.bound.map (fun b => if b.1 = g * 1024 + f then (b.1, b.2.1, b.2.2 - 1) else b) } } g f
      { seq := q, stamp := BitVec.ofNat 64 (leAt x.pay 0 8) }

/-- Apply a CREDIT (R501). -/
def rxCredit (s : State) (i : Nat) (x : Rx) : State :=
  let tag := x.spec % 65536
  if bitOf x.spec 24 then
    let s1 := setConn s i { connAt s i with taken := (connAt s i).taken ++ [tag] }
    let s2 := forAll (List.range 256) (fun k t => let u := unitAt t .rolv k
      match u.run with
      | some r => if u.done.isNone && (remOp t k).acted && (match remCmdOf t r with | some c => c.op == 2 && c.peer == i && c.tag == tag | none => false)
          then remEnd t k 0x0A04 else t
      | none => t) s1
    setConn s2 i { connAt s2 i with taken := (connAt s2 i).taken.filter (· != tag) }
  else setCredits s i tag (creditsFor s i tag + fld x.spec 16 8)

/-- Apply an ARRIVE; none where the root holds 64 other sequences (R503). -/
def rxArrive (s : State) (x : Rx) : Option State :=
  let g := x.spec % 256
  if bgValid s g && bgSelf s g then countArrival s g (fld x.spec 8 32) false else some s

/-- Apply one packet in its turn; none where it may not be applied yet (R483, R484). -/
def applyPkt (s : State) (i : Nat) (x : Rx) : Option State :=
  match x.ty with
  | 0x01 => some (rxWrite s i x)
  | 0x02 => some (rxReadReq s i x)
  | 0x03 => some (rxReadResp s i x)
  | 0x05 => some (rxNack s i x)
  | 0x06 => some (rxCmd s i x)
  | 0x07 => some (rxCmdResp s i x)
  | 0x08 => some (rxTrigger s i x)
  | 0x09 => some (rxCredit s i x)
  | 0x0A => rxArrive s x
  | 0x0B => some (barrierDone s (x.spec % 256) (fld x.spec 8 32))
  | _ => some s

/-- A packet kept out of order, as received. -/
def heldOf (x : Rx) : Pkt :=
  { psn := x.psn, ty := x.ty, parts := x.sp + 4 * x.dp, spec := x.spec, pay := x.pay, addr := x.src }
def rxOf (p : Pkt) : Rx :=
  { ty := p.ty, flags := 0, sp := p.parts % 4, dp := p.parts / 4 % 4, src := p.addr, dst := 0, psn := p.psn, ackPsn := 0, sack := 0, spec := p.spec, pay := p.pay }

/-- Apply packets held for the PSNs that follow (R484). -/
def applyHeld (i : Nat) : Nat → State → State
  | 0, s => s
  | n + 1, s =>
    let c := connAt s i
    match c.held.find? (fun p => p.psn == c.rcv) with
    | none => s
    | some p => match applyPkt s i (rxOf p) with
      | none => s
      | some t =>
        let d := connAt t i
        applyHeld i n (setConn t i { d with rcv := (d.rcv + 1) % 2 ^ 24, held := d.held.filter (fun y => y.psn != p.psn) })

/-- Send an ACK (R485). -/
def sendAck (s : State) (i : Nat) : State := sendLoose s i 4 0 0 []

/-- A packet that uses the connection arrives (R484, R485). -/
def rxOrdered (s : State) (i : Nat) (x : Rx) : State :=
  let c := connAt s i
  let d := psnGap x.psn c.rcv
  if 128 ≤ d then s
  else
    let owe := fun (t : State) => if bitOf x.flags 0 then sendAck t i else
      setConn t i { connAt t i with unackedAt := some ((connAt t i).unackedAt.getD t.time) }
    if d = 0 then
      match applyPkt s i x with
      | none => s
      | some t =>
        let e := connAt t i
        owe (applyHeld i 128 (setConn t i { e with rcv := (e.rcv + 1) % 2 ^ 24 }))
    else if c.held.any (fun p => p.psn == x.psn) then owe s
    else sendAck (setConn s i { c with held := c.held ++ [heldOf x] }) i

/-- What a packet outside the PSN order does: THROTTLE_NOTICE, CREDIT_REQ; KEEPALIVE and ACK do nothing more (R483, R501, R505). -/
def rxLoose (s : State) (i : Nat) (x : Rx) : State :=
  match x.ty with
  | 0x0C =>
    let s1 := setConn s i { connAt s i with throttled := bitOf x.spec 0 }
    raiseIrq (bump s1 (rv 0x80C) 1) .rolv 0 10 (some (peerOwner s i))
  | 0x0F => creditReq s i x
  | _ => s

/-- A packet of a type arrives on a link (R482 to R488): the connection's liveness, its acknowledgements, and the packet itself. -/
def rxPacket (ty : Nat) (link : Nat) (g : Dgram) (s : State) : State :=
  match rxDgram s link g with
  | (none, t) => t
  | (some x, t) =>
    if x.ty != ty || x.dst != ownNode t then t
    else match rxPeer t x with
      | none => t
      | some i =>
        let c := connAt t i
        let t1 := setConn t i { c with state := 1, rxAt := t.time, echo := c.echo || g.ce }
        let t2 := if x.ty = 5 then t1 else takeAck t1 i x
        let t3 := if x.ty = 4 ∨ 0x0C ≤ x.ty then rxLoose t2 i x else rxOrdered t2 i x
        if x.ty = 5 then takeAck t3 i x else t3

/-! ## Failures -/

/-- A peer goes DOWN (R486, R507). -/
def peerDown (s : State) (i : Nat) : State :=
  let c := connAt s i
  let s1 := setConn s i { c with state := 2, flight := [], queue := [], held := [], unackedAt := none }
  let firsts := fun (t : State) (k : Nat) => ((c.flight ++ c.queue).find? (fun p => p.mov == k + 1 && ((movAt t k).remW.contains (i, p.psn) || (movAt t k).asks.any (fun a => a.1 == p.addr))))
  let s2 := forAll (s.movers.map Prod.fst) (fun k t => match firsts t k with
    | some p => remoteFail (lastFail t i 0x12) k p.addr
    | none => match (movAt t k).asks.find? (fun a => remPeer a.1 == i) with
      | some a => remoteFail (lastFail t i 0x12) k a.1
      | none => t) s1
  let s3 := forAll (List.range 256) (fun k t => let u := unitAt t .rolv k
    match u.run with
    | some r => if u.done.isSome then t else match remCmdOf t r with
      | some m =>
        let hit := if m.op = 1 then (if bgSelf t m.group then (bgList t m.group).contains i else bgRoot t m.group == i) else m.peer == i
        if hit then remEnd t k 0x0A02 else t
      | none => t
    | none => t) s2
  let s4 := forAll (List.range 4) (fun p t =>
    if tget (fun _ => (none : Option Nat)) t.rolv.submits p = some i then
      setRegN { t with rolv := { t.rolv with submits := tset (fun _ => none) t.rolv.submits p none } } (rv (0x3008 + 0x100 * p)) (3 + 2 ^ 8)
    else t) s3
  raiseIrq s4 .rolv 0 8 (some (peerOwner s i))

/-- RTO of a packet sent again `tries` times, in ns (R485). -/
def rtoNs (s : State) (tries : Nat) : Nat := min 1000000 (fld (app s (rv 0x118)) 0 16 * 1000 * 2 ^ tries)

/-- Packets whose RTO has passed: not acknowledged, and not reported by SACK (R485). -/
def dueAgain (s : State) (i : Nat) : List Pkt :=
  (connAt s i).flight.filter (fun p => !p.sacked && decide (rtoNs s p.tries ≤ (s.time - p.sent).toNat))

/-- Have a packet's retransmissions run out (R486). -/
def exhausted (s : State) (i : Nat) : Bool :=
  !(connAt s i).throttled && (dueAgain s i).any (fun p => decide (fld (app s (rv 0x118)) 16 4 ≤ p.tries))

/-- Are all links of an entry's PORT_MASK down (R486). -/
def linksDown (s : State) (i : Nat) : Bool := (linkOf s i).isNone

/-- PEER_TIMEOUT: the peer is declared DOWN where R486 says so. -/
def peerTimeoutAct (s : State) (i : Nat) : State :=
  let t := fld (app s (rv 0x11C)) 16 16 * 10000
  if !rolvOn s || !peerUp s i then s
  else if exhausted s i || linksDown s i || (t != 0 && decide (t ≤ (s.time - (connAt s i).rxAt).toNat)) then peerDown s i
  else s

/-- Send a packet of a connection again (R485). -/
def again (i : Nat) (p : Pkt) (s : State) : State :=
  let c := connAt s i
  let s1 := setConn s i { c with flight := c.flight.map (fun y => if y.psn = p.psn then { y with sent := s.time, tries := y.tries + 1 } else y) }
  wirePkt (bump s1 (rv 0x804) 1) i p true

/-- RTO_EXPIRY (R485). -/
def rtoAct (s : State) (i : Nat) : State :=
  if !rolvOn s || !peerUp s i || exhausted s i then s else forAll (dueAgain s i) (again i) s

/-- ACK_TIMER: 2 µs with packets not acknowledged (R485). -/
def ackTimerAct (s : State) (i : Nat) : State :=
  match (connAt s i).unackedAt with
  | some t => if rolvOn s && peerUp s i && decide (2000 ≤ (s.time - t).toNat) then sendAck s i else s
  | none => s

/-- KEEPALIVE_TIMER (R486). -/
def keepaliveAct (s : State) (i : Nat) : State :=
  let t := fld (app s (rv 0x11C)) 0 16 * 1000
  if rolvOn s && peerUp s i && t != 0 && decide (t ≤ (s.time - (connAt s i).txAt).toNat) then sendLoose s i 0x0D 0 0 [] else s

/-- Rate of a link in Mb/s (R480). -/
def linkRate (s : State) (l : Nat) : Nat :=
  match fld (app s (pg .fabp (l / 4) + 0x100)) 0 2 with
  | 1 => 400000
  | 2 => 200000
  | 3 => 100000
  | _ => 0

/-- RATE_PERIOD of a connection (R488). -/
def rateAct (s : State) (i : Nat) : State :=
  let c := connAt s i
  let cfg := app s (rv 0x120)
  match linkOf s i with
  | none => s
  | some l =>
    if !rolvOn s || !peerUp s i || decide ((s.time - c.periodAt).toNat < fld cfg 8 8 * 1000) then s
    else
      let r := if c.ecnSeen then c.rate - c.rate / 2 ^ fld cfg 0 4 else min (linkRate s l) (c.rate + 100 * fld cfg 16 16)
      setConn s i { c with rate := max 1000 r, ecnSeen := false, periodAt := s.time }

/-! ## The peer table and remote submission -/

/-- STATE of an entry as it reads (R496). -/
def peerState (s : State) (i : Nat) : Nat :=
  if peerValid s i && peerNode s i == ownNode s then 3 else (connAt s i).state

/-- PEER_READ: the entry of PEER_SEL into PEER_DATA (R496, R512). -/
def peerReadAct (s : State) : State :=
  let i := regN s (rv 0x180) % 2 ^ 14
  let b := (peerEnt s i).take 3 ++ [BitVec.ofNat 8 (peerState s i + 4 * b2n (connAt s i).throttled)] ++ (peerEnt s i).drop 4
  forAll (List.range 16) (fun j t => setRegN t (rv (0x1C0 + 4 * j)) (leAt b (4 * j) 4)) s

/-- PEER_WRITE: PEER_DATA into the entry of PEER_SEL (R484, R496). -/
def peerWriteAct (s : State) : State :=
  let i := regN s (rv 0x180) % 2 ^ 14
  let b := (List.range 16).flatMap (fun j => natLe 4 (regN s (rv (0x1C0 + 4 * j))))
  let e := [nth 0 b 0, nth 0 b 1, nth 0 b 2 &&& 0x83, 0] ++ ((b.drop 4).take 2) ++ [0, 0] ++ ((b.drop 8).take 22) ++ List.replicate 34 0
  let s1 := if peerValid s i then peerDown s i else s
  let s2 := { s1 with rolv := { s1.rolv with peers := tset (fun _ => List.replicate 64 0) s1.rolv.peers i e } }
  let c : Conn := { rxAt := s.time, txAt := s.time, periodAt := s.time }
  let s3 := setConn s2 i c
  setConn s3 i { c with rate := (match linkOf s3 i with | some l => linkRate s3 l | none => 400000) }

/-- RSUB_OP: a partition submits a command to a peer (R497). -/
def rsubAct (s : State) (p op : Nat) : State :=
  let o := rv (0x3000 + 0x100 * p)
  let i := regN s o % 2 ^ 14
  if fld (regN s (o + 8)) 0 2 = 1 then raiseErr s .rolv 0 9 (some p)
  else if !peerValid s i || peerOwner s i != p then setRegN s (o + 8) (3 + 2 ^ 9)
  else if (connAt s i).state = 2 then setRegN s (o + 8) (3 + 2 ^ 8)
  else
    let pay := (List.range 16).flatMap (fun j => natLe 4 (regN s (o + 0x40 + 4 * j)))
    let s1 := setRegN { s with rolv := { s.rolv with submits := tset (fun _ => none) s.rolv.submits p (some i) } } (o + 8) 1
    (sendConn s1 i 0x06 (5 * p) (op % 256 + 2 ^ 8 * p) pay 0 0).2

/-! ## Throttle notices -/

/-- Groups of partitions with a started graph that holds remote operations (R505, log entry 20). -/
def liveGroups (s : State) : List Nat :=
  (List.range 256).filter (fun g => bgValid s g && s.graphs.any (fun e => isStarted e.2 && e.2.part == bgOwner s g &&
    e.2.img.nodes.any (fun n => n.utype == blkCode .rolv)))

/-- THROTTLE_NOTICE to every distinct peer of those groups, and THROTTLE_LOCAL to their owners (R505). -/
def notices (s : State) (begins : Bool) : State :=
  if !rolvOn s then s
  else
    let gs := liveGroups s
    let s1 := forAll (dedupN (gs.flatMap (fun g => if bgSelf s g then bgList s g else [bgRoot s g]))) (fun i t =>
      if peerUp t i then sendLoose t i 0x0C 0 (b2n begins) [] else t) s
    forAll (dedupN (gs.map (bgOwner s))) (fun p t => raiseIrq t .rolv 0 9 (some p)) s1

end Sys2Proof.Machine
end

