-- ==== Sys2Proof/Machine/RolvNet.lean ====
section
/-! DEFINITION. Discovery, link changes and time alignment of the Rolven transport (R480, R481, R487, R493 to R495, R509, R510). -/

namespace Sys2Proof.Machine
open Sys2Proof

/-! ## Addresses and frames -/

/-- The device's identity (R493, R620). -/
def deviceId (s : State) : Nat := leNat (memRead s.boot.otp 0 8)

/-- Type and payload of a frame received, with or without a tag (R480). -/
def ethBody (f : List Byte) : Nat × List Byte :=
  if beAt f 12 2 = 0x8100 then (beAt f 16 2, f.drop 18) else (beAt f 12 2, f.drop 14)

/-! ## Discovery -/

/-- Append an entry to the discovery ring; where none can be written it is lost, and a ring that is disabled takes none (R495, R512). -/
def discPut (s : State) (kind link : Nat) (pay : List Byte) : State :=
  if regN s (rv 0x148) = 0 then s
  else if ringFull s (rv 0x14C) (rv 0x150) (rv 0x148) then raiseErr s .rolv 0 10 none
  else match vaWriteAll s 0 (reg64 s (rv 0x140) (rv 0x144) + 64 * (regN s (rv 0x14C) % 2 ^ regN s (rv 0x148)))
      (natLe 8 s.time.toNat ++ natLe 1 kind ++ natLe 1 link ++ List.replicate 6 0 ++ pay ++ List.replicate (48 - pay.length) 0) with
    | .ok t => setReg t (rv 0x14C) (reg t (rv 0x14C) + 1)
    | .error _ => raiseErr s .rolv 0 10 none

/-- Payload of HELLO on a link (R494). -/
def helloPay (s : State) (l : Nat) : List Byte :=
  let mask := (List.range 4).foldl (fun m p => m + b2n (s.graphs.any (fun e => isStarted e.2 && e.2.part == p && bitOf e.2.img.flags 1)) * 2 ^ p) 0
  natLe 2 (ownNode s) ++ natLe 2 (ownDomain s) ++ natLe 4 (blkId .sys 0) ++ natLe 1 mask ++ natLe 1 l ++ List.replicate 6 0 ++ ownIp s ++
    macOf s l ++ List.replicate 26 0

/-- The IPv6 link-local address of a link, made from its MAC address (log entry 140). -/
def linkLocal (s : State) (l : Nat) : List Byte :=
  let m := macOf s l
  natBe 8 0xFE80000000000000 ++ [nth 0 m 0 ^^^ 2] ++ (m.drop 1).take 2 ++ natBe 2 0xFFFE ++ m.drop 3

/-- Send HELLO on a link (R482, R483, R494): a packet of type 0x0E to no node, to ff02::4c5e with hop limit 1. Its source port, which R482
takes from a connection, is free. -/
def sendHello (s : State) (l : Nat) : State :=
  let b := natLe 1 1 ++ natLe 1 0x0E ++ natLe 2 0 ++ natLe 2 (ownNode s) ++ List.replicate 34 0 ++ helloPay s l
  let s1 := putWire (drawn s) l none (ethHead s l (natBe 6 0x333300004C5E) 0x86DD ++
    udpIp s false (linkLocal s l) (natBe 16 (0xFF02 * 2 ^ 112 + 0x4C5E)) 1 (freeVal s / 2 ^ 28 % 65536) 0x4C5E (b ++ natLe 4 (crc32 b)))
  { s1 with rolv := { s1.rolv with helloAt := tset (fun _ => 0) s1.rolv.helloAt l s.time.toNat } }

/-- A TLV of LLDP: type, and its information. -/
def tlv (ty : Nat) (b : List Byte) : List Byte := natBe 2 (ty * 512 + b.length) ++ b

/-- Send LLDP on a link (R493): chassis, port, time to live, the device's own TLV and the end. The organisation and subtype of that TLV are
open and free. -/
def sendLldp (s : State) (l : Nat) : State :=
  let id := natBe 8 (deviceId s)
  let b := ethHead s l (natBe 6 0x0180C200000E) 0x88CC ++ tlv 1 (7 :: id) ++ tlv 2 (7 :: natBe 1 l) ++ tlv 3 (natBe 2 120) ++
    tlv 127 (natBe 4 (freeVal s) ++ natLe 2 (ownNode s) ++ natLe 2 (ownDomain s) ++ natLe 4 (blkId .sys 0)) ++ tlv 0 []
  let s1 := putWire (drawn s) l none b
  { s1 with rolv := { s1.rolv with lldpAt := tset (fun _ => 0) s1.rolv.lldpAt l s.time.toNat } }

/-- TLVs of an LLDP frame, with their types. -/
def tlvs : Nat → List Byte → List (Nat × List Byte)
  | 0, _ => []
  | n + 1, b =>
    if b.length < 2 then []
    else
      let k := beAt b 0 2 % 512
      (beAt b 0 2 / 512, (b.drop 2).take k) :: tlvs n (b.drop (2 + k))

/-- LLDP: a received frame goes to the discovery ring; the fields of the transport's TLV stand where HELLO has them (R493, R495). -/
def lldpAct (s : State) (l : Nat) (f : List Byte) : State :=
  if !rolvOn s || !s.rolv.links.contains l then s
  else
    let (whole, s1) := frameIn s l
    let (ty, b) := ethBody f
    if !whole || ty != 0x88CC then s1
    else
      let ts := tlvs b.length b
      let own := ((ts.find? (fun t => t.1 == 127 && t.2.length == 12)).map (fun t => t.2.drop 4)).getD (List.replicate 8 0)
      let port := ((ts.find? (fun t => t.1 == 2)).map (fun t => leAt t.2 1 1)).getD 0
      discPut s1 1 l (own ++ natLe 1 0 ++ natLe 1 port)

/-- HELLO arrives (R494): counted where foreign, otherwise recorded; this node's own number with another identity is a conflict. -/
def helloAct (s : State) (l : Nat) (g : Dgram) : State :=
  match rxDgram s l g with
  | (none, t) => t
  | (some x, t) =>
    if x.ty != 0x0E then t
    else if leAt x.pay 2 2 != ownDomain t then bump t (rv 0x810) 1
    else
      let mac := (x.pay.drop 32).take 6
      let t1 := discPut t 2 l (x.pay.take 48)
      if leAt x.pay 0 2 == ownNode t && !((List.range 4).any (fun n => macOf t (4 * n) == mac)) then raiseIrq t1 .rolv 0 11 none else t1

/-- HELLO_TIMER: HELLO every 100 ms on a link that is up (R494). -/
def helloTimer (s : State) (l : Nat) : State :=
  if rolvOn s && s.rolv.links.contains l && decide (100000000 ≤ now s - tget (fun _ => 0) s.rolv.helloAt l) then sendHello s l else s

/-- LLDP_TIMER: LLDP every 30 s on a link that is up (R493). -/
def lldpTimerAct (s : State) (l : Nat) : State :=
  if rolvOn s && s.rolv.links.contains l && decide (30000000000 ≤ now s - tget (fun _ => 0) s.rolv.lldpAt l) then sendLldp s l else s

/-- Put a frame that is neither HELLO nor LLDP and belongs to no peer on a link; NODE_CONFLICT withholds it (R494). -/
def putOther (s : State) (l : Nat) (b : List Byte) : State := if bitOf (regN s (rv 0x010)) 11 then s else putWire s l none b

/-! ## Address resolution -/

/-- NEIGHBOUR_SOLICITATION: an IPv6 Neighbour Solicitation or an IPv4 ARP request for the device's own address is answered (R481). -/
def solicitAct (s : State) (l : Nat) (f : List Byte) : State :=
  if !rolvOn s || !s.rolv.links.contains l then s
  else
    let (whole, s1) := frameIn s l
    let (ty, b) := ethBody f
    let src := (f.drop 6).take 6
    let mac := macOf s l
    if !whole then s1
    else if ty = 0x0806 ∧ ipv4 s ∧ beAt b 0 8 = 0x0001080006040001 ∧ (b.drop 24).take 4 = (ownIp s).take 4 then
      putOther s1 l (ethHead s l src 0x0806 ++ natBe 8 0x0001080006040002 ++ mac ++ (ownIp s).take 4 ++ (b.drop 8).take 10)
    else if ty = 0x86DD ∧ ipv4 s = false ∧ beAt b 6 1 = 58 ∧ beAt b 7 1 = 255 ∧ beAt b 40 2 = 0x8700 ∧ (b.drop 48).take 16 = ownIp s then
      let from6 := (b.drop 8).take 16
      let anon := from6.all (· == 0)
      let dst := if anon then natBe 16 0xFF020000000000000000000000000001 else from6
      let body := ownIp s ++ natBe 2 0x0201 ++ mac
      let flags := natBe 4 (if anon then 0x20000000 else 0x60000000)
      let sum := inetSum (ownIp s ++ dst ++ natBe 4 32 ++ natBe 4 58 ++ natBe 4 0x88000000 ++ flags ++ body)
      putOther s1 l (ethHead s l src 0x86DD ++ natBe 4 0x60000000 ++ natBe 4 0x00203AFF ++ ownIp s ++ dst ++ natBe 2 0x8800 ++ natBe 2 sum ++
        flags ++ body)
    else s1

/-! ## Links -/

/-- Does the applied MODE of a link's port give it that sub-port (R480). -/
def linkExists (s : State) (l : Nat) : Bool :=
  present s .fabp (l / 4) && decide (l % 4 < match fld (app s (pg .fabp (l / 4) + 0x100)) 0 2 with | 1 => 1 | 2 => 2 | 3 => 4 | _ => 0)

/-- LINK_CHANGE: a fabric link comes up or goes down (R486, R487, R493, R494, R511). -/
def linkChangeAct (s : State) (l : Nat) (up : Bool) : State :=
  if up && (s.rolv.links.contains l || !linkExists s l) || !up && !s.rolv.links.contains l then s
  else
    let f := pg .fabp (l / 4)
    let was := (livePeers s).filter (fun i => linkOf s i == some l)
    let s1 := { s with rolv := { s.rolv with links := if up then sins s.rolv.links l else sdel s.rolv.links l } }
    let s2 := raiseIrq (if up then orReg s1 (f + 0x110) (2 ^ (l % 4)) else clrReg s1 (f + 0x110) (2 ^ (l % 4))) .fabp (l / 4) 8 none
    if up then sendLldp (sendHello s2 l) l
    else forAll was (fun i t => if linksDown t i then peerDown t i else forAll ((connAt t i).flight.filter (fun p => !p.sacked)) (again i) t) s2

/-- Links of a port that its applied MODE no longer has go down (R480, R511). -/
def linksGone (n : Nat) (s : State) : State :=
  forAll (s.rolv.links.filter (fun l => l / 4 == n && !linkExists s l)) (fun l t => linkChangeAct t l false) s

/-! ## Time alignment -/

/-- PTP_CFG as applied: enabled, and a link among those of the mask (R512). -/
def ptpOn (s : State) (l : Nat) : Bool := bitOf (app s (rv 0x1100)) 0 && bitOf (app s (rv 0x1100)) (16 + l) && rolvOn s && s.rolv.links.contains l

/-- Change LOCKED (R510, R512). -/
def setLocked (s : State) (on : Bool) : State :=
  if bitOf (regN s (rv 0x1104)) 0 == on then s
  else raiseIrq (if on then orReg s (rv 0x1104) 1 else clrReg s (rv 0x1104) 1) .rolv 0 12 none

/-- Comparison key of an Announce message: the smaller in order is the better master (R509, IEEE 1588 default algorithm). -/
def announceKey (m : List Byte) : List Nat :=
  [beAt m 47 1, beAt m 48 1, beAt m 49 1, beAt m 50 2, beAt m 52 1, beAt m 53 8, beAt m 61 2, beAt m 20 8]

/-- The device's own key: the defaults of the standard's profile (log entry 22). -/
def ownKey (s : State) : List Nat := [128, 248, 0xFE, 0xFFFF, 128, deviceId s, 0, deviceId s]

/-- An Announce message: a better master than the one followed, or news from that one, is followed; one worse than the device itself is not. -/
def ptpAnnounce (s : State) (l : Nat) (m : List Byte) : State :=
  let k := announceKey m
  let better := match s.rolv.ptpBest with
    | none => true
    | some (b, bl) => lexLt k b || (bl == l && nth 0 b 7 == nth 0 k 7)
  if !lexLt k (ownKey s) || !better then s
  else setRegN { s with rolv := { s.rolv with ptpBest := some (k, l) } } (rv 0x1104) (regN s (rv 0x1104) % 2 + 2 + 2 ^ 8 * l)

/-- A PTP timestamp in ns, and a correction field in ns. -/
def ptpTime (m : List Byte) (o : Nat) : Nat := beAt m o 6 * 1000000000 + beAt m (o + 6) 4
def ptpCorr (m : List Byte) : Int := sext (beAt m 8 8) 64 / 65536

/-- The header of a message of the device's own: type, length, sequence (R509). -/
def ptpHead (s : State) (l ty len seq : Nat) : List Byte :=
  natBe 1 ty ++ natBe 1 2 ++ natBe 2 len ++ natBe 1 (fld (app s (rv 0x1100)) 4 4) ++ List.replicate 15 0 ++ natBe 8 (deviceId s) ++ natBe 2 (l + 1) ++
    natBe 2 seq ++ natBe 1 0 ++ natBe 1 0x7F

/-- Send a message of PTP on a link: over IEEE 802.3, or over UDP to the standard's group, event messages to port 319 and the others to
port 320 (R509, R512, log entry 22). -/
def ptpSend (s : State) (l : Nat) (m : List Byte) : State :=
  if bitOf (app s (rv 0x1100)) 2 then putOther s l (ethHead s l (natBe 6 0x011B19000000) 0x88F7 ++ m)
  else
    let port := if beAt m 0 1 % 16 < 8 then 319 else 320
    if ipv4 s then putOther (drawn s) l (ethHead s l (natBe 6 0x01005E000181) 0x0800 ++
      udpIp s true (ownIp s) (natBe 4 0xE0000181) 0 port port m)
    else putOther (drawn s) l (ethHead s l (natBe 6 0x333300000181) 0x86DD ++
      udpIp s false (ownIp s) (natBe 16 (0xFF0E * 2 ^ 112 + 0x181)) 0 port port m)

/-- A measured offset steers TIMECNT: one step where no graph is started and it exceeds 1 µs, otherwise slewing (R509, R510). -/
def ptpSteer (s : State) (off : Int) : State :=
  let s1 := setRegN s (rv 0x1108) (trunc off 32)
  let s2 := if (startedGraphs s).isEmpty && decide (1000 < off.natAbs) then { s1 with time := s1.time - BitVec.ofInt 64 off, slew := 0 } else { s1 with slew := -off }
  let good := if off.natAbs < 10 then s.rolv.ptpGood + 1 else 0
  let s3 := { s2 with rolv := { s2.rolv with ptpGood := good, ptpAt := s2.time } }
  if 16 ≤ good then setLocked s3 true else s3

/-- A message of PTP that came whole, stamped in TIMECNT (R509, R510): Announce chooses the master, Sync and Follow_Up
give t1 and t2, Delay_Req is sent at t3, Delay_Resp brings t4 and the offset; a boundary clock answers Delay_Req on its other links. -/
def ptpTake (s : State) (l : Nat) (m : List Byte) (stamp : DWord) : State :=
  if beAt m 4 1 != fld (app s (rv 0x1100)) 4 4 || beAt m 1 1 % 16 != 2 then s
  else
    let ty := beAt m 0 1 % 16
    let seq := beAt m 30 2
    let t := s.rolv.ptpT
    let follows := match s.rolv.ptpBest with | some (k, bl) => bl == l && nth 0 k 7 == beAt m 20 8 | none => false
    if ty = 0x0B then ptpAnnounce s l m
    else if ty == 0 && follows then
      { s with rolv := { s.rolv with ptpSeq := seq, ptpT := [trunc ((stamp.toNat : Int) - ptpCorr m) 64] } }
    else if ty == 8 && follows && seq == s.rolv.ptpSeq && t.length == 1 then
      let s1 := { s with rolv := { s.rolv with ptpT := t ++ [trunc ((ptpTime m 34 : Int) + ptpCorr m) 64, s.time.toNat] } }
      ptpSend s1 l (ptpHead s l 1 44 seq ++ List.replicate 10 0)
    else if ty == 9 && follows && seq == s.rolv.ptpSeq && t.length == 3 && beAt m 44 8 == deviceId s then
      let t4 : Int := (ptpTime m 34 : Int) - ptpCorr m
      let off := ((((nth 0 t 0 : Nat) : Int) - ((nth 0 t 1 : Nat) : Int)) - (t4 - ((nth 0 t 2 : Nat) : Int))) / 2 - sext (app s (rv 0x110C)) 32
      ptpSteer { s with rolv := { s.rolv with ptpT := [] } } off
    else if ty == 1 && bitOf (app s (rv 0x1100)) 1 && (match s.rolv.ptpBest with | some (_, bl) => bl != l | none => false) then
      ptpSend s l (ptpHead s l 9 54 seq ++ natBe 6 (stamp.toNat / 1000000000) ++ natBe 4 (stamp.toNat % 1000000000) ++ (m.drop 20).take 10)
    else s

/-- PTP_EVENT_MESSAGE: a message of PTP arrives on a link (R509, R511). -/
def ptpMessage (s : State) (l : Nat) (m : List Byte) (stamp : DWord) : State :=
  if !ptpOn s l then s
  else match frameIn s l with
    | (true, t) => ptpTake t l m stamp
    | (false, t) => t

/-- PTP_SYNC_LOSS: 2 s without a synchronisation (R510). -/
def ptpLoss (s : State) : State :=
  if bitOf (app s (rv 0x1100)) 0 && decide (2000000000 ≤ (s.time - s.rolv.ptpAt).toNat) then
    setLocked (clrReg { s with rolv := { s.rolv with ptpGood := 0, ptpBest := none, ptpT := [] } } (rv 0x1104) 2) false
  else s

end Sys2Proof.Machine
end

