-- ==== Sys2Proof/Machine/Power.lean ====
section
/-! DEFINITION. Power and thermal control: operating points, droop and pulse skipping, PMBus, the estimator, the phase table and the emergency
throttle (R548 to R572, R633). -/

namespace Sys2Proof.Machine
open Sys2Proof

/-- A register of the PWR page. -/
def pw (o : Nat) : Nat := pg .pwr 0 + o

/-- Change the power state. -/
def setPwr (s : State) (w : Pwr) : State := { s with pwr := w }

/-- Frequency in MHz and setpoint in mV of an operating point (R548, R572). -/
def oppF (s : State) (k : Nat) : Nat := fld (regN s (pw (0x140 + 4 * k))) 0 12
def oppV (s : State) (k : Nat) : Nat := fld (regN s (pw (0x140 + 4 * k))) 16 12

/-- ns since an instant. -/
def since (s : State) (t : DWord) : Nat := (s.time - t).toNat

/-! ## Transitions -/

/-- Has the rail been quiet for 10 µs (R555, R559). -/
def quiet10 (s : State) : Bool :=
  s.pwr.tripped.isEmpty && (match s.pwr.quietAt with
    | none => true
    | some t => decide (10000 ≤ since s t))

/-- May the PLLs switch: no detector is tripped, and the last trip lies 10 µs back (R559). -/
def switchFree (s : State) : Bool :=
  s.pwr.tripped.isEmpty && (match s.pwr.tripAt with
    | none => true
    | some t => decide (10000 ≤ since s t))

/-- The instant at which a step that waited for the rail begins: when it became ready, or 10 µs after the rail went quiet (R559). -/
def beganAt (s : State) : DWord :=
  match s.pwr.quietAt with
  | none => s.pwr.stepAt
  | some t => if (t + 10000).toNat < s.pwr.stepAt.toNat then s.pwr.stepAt else t + 10000

/-- A step waits for the rail: counted once (R559). -/
def deferStep (s : State) : State :=
  if s.pwr.deferred then s else bump (setPwr s { s.pwr with deferred := true }) (pw 0x814) 1

/-- The transition under way goes as far as it can without an event: steps 1 (VOUT_COMMAND to be sent), 2 (sent), 3 (settling), 4 (lock to be
started), 5 (locking), 6 (switch to be made) of R553 with the waits of R559. -/
def advanceStep (s : State) : State :=
  let w := s.pwr
  if w.step = 1 ∨ w.step = 4 then
    if !quiet10 s then deferStep s
    else if w.step = 1 then setPwr s { w with step := 2, stepAt := beganAt s, deferred := false, vouts := w.vouts ++ [oppV s w.target] }
    else setPwr s { w with step := 5, stepAt := beganAt s, deferred := false }
  else if w.step = 6 then (if switchFree s then setPwr s { w with deferred := false } else deferStep s)
  else s

/-- A SET_OPP whose operating point has been reached writes its record; not during an emergency throttle (R552). -/
def oppReached (s : State) : State :=
  match s.pwr.setOpp with
  | none => s
  | some h =>
    let w := s.pwr
    if w.setTick || w.emerg || w.cur != w.target || !w.next.isEmpty then s
    else pushFinal (setPwr s { w with setOpp := none }) h stOk (blkCode .pwr)

/-- Begin the next target that waits, where no transition is under way and no throttle holds the point (R553, R554, R569). -/
def beginNext : Nat → State → State
  | 0, s => s
  | n + 1, s =>
    let w := s.pwr
    match w.next with
    | [] => s
    | t :: r =>
      if w.step != 0 || w.emerg then s
      else if t = w.cur then beginNext n (setPwr s { w with next := r, target := t })
      else advanceStep (setPwr s { w with next := r, target := t, step := if w.cur < t then 1 else 4, stepAt := s.time })

/-- The injected trip of detector 0 ends after its 200 ns (R558, R572). -/
def injTripEnd (s : State) : State :=
  match s.pwr.injTrip with
  | none => s
  | some t =>
    if s.time.toNat < t.toNat then s
    else
      let w := s.pwr
      let quiet := w.tripped == [0]
      setPwr s { w with
        injTrip := none, tripped := sdel w.tripped 0
        quietAt := if quiet then some t else w.quietAt
        droopAt := if quiet then t else w.droopAt }

/-- What PWR does of itself as time passes (R552 to R554, R559). -/
def pwrAdvance (s : State) : State := let t := injTripEnd s; oppReached (beginNext t.pwr.next.length (advanceStep t))

/-- A new target (R554). -/
def requestOpp (s : State) (t : Nat) : State := pwrAdvance (setPwr s { s.pwr with next := s.pwr.next ++ [t] })

/-- A transition ends: OPP_DONE (R553, R572). -/
def transitionDone (s : State) : State := pwrAdvance (raiseIrq (setPwr s { s.pwr with step := 0, deferred := false }) .pwr 0 10 none)

/-- A PMBus transaction failed for good (R561). -/
def pmbusError (s : State) : State := raiseErr (bump s (pw 0x81C) 1) .pwr 0 8 none

/-- VOUT_COMMAND_ACK: the ramp begins; a command not acknowledged is sent again (R553, R561). -/
def voutAckAct (s : State) (ok : Bool) : State :=
  if s.pwr.step != 2 then s
  else if ok then setPwr s { s.pwr with step := 3, stepAt := s.time }
  else pwrAdvance (setPwr (pmbusError s) { s.pwr with step := 1, stepAt := s.time })

/-- The ramp's and VSETTLE's length in ns (R553, R572). -/
def settleNs (s : State) : Option Nat :=
  let l := s.pwr.vouts.reverse
  let a := nth 770 l 0
  let b := nth 770 l 1
  let slew := fld (regN s (pw 0x194)) 0 8
  if slew = 0 then none else some ((if a < b then b - a else a - b) * 1000 / slew + fld (regN s (pw 0x194)) 16 8 * 1000)

/-- VSETTLE_EXPIRY (R553). -/
def settleAct (s : State) : State :=
  match settleNs s with
  | none => s
  | some n =>
    if s.pwr.step != 3 || decide (since s s.pwr.stepAt < n) then s
    else if s.pwr.cur < s.pwr.target then pwrAdvance (setPwr s { s.pwr with step := 4, stepAt := s.time })
    else transitionDone s

/-- PLL_LOCK_DONE: the standby PLLs have locked; where they did not in time, the lock starts again (R553). -/
def lockDoneAct (s : State) (ok : Bool) : State :=
  if s.pwr.step != 5 || decide (since s s.pwr.stepAt < 20000) then s
  else pwrAdvance (setPwr s { s.pwr with step := if ok then 6 else 4, stepAt := s.time })

/-- PLL_SWITCH: never while a detector is tripped or within 10 µs of the last trip, and not during a throttle (R553, R559, R569). -/
def switchAct (s : State) : State :=
  let w := s.pwr
  if w.step != 6 || !switchFree s || w.emerg then s
  else
    let rising := decide (w.cur < w.target)
    let s1 := bump (setPwr s { w with cur := w.target, switchAt := some s.time, deferred := false }) (pw 0x810) 1
    if rising then transitionDone s1 else pwrAdvance (setPwr s1 { s1.pwr with step := 1, stepAt := s.time })

/-! ## SET_OPP -/

/-- Rejections of SET_OPP (R79, R80, R552). -/
def oppReasons (p : Nat) (w : List Word) (s : State) : List (Bool × Nat) :=
  commonReasons s p ++ [(p != 0, 2), (decide ((if s.pwr.openMode then 15 else 10) < argN w 0 % 16), 4), (s.pwr.setOpp.isSome, 6)]

/-- SET_OPP accepted (R552). -/
def oppAct (w : List Word) (h : Nat) (s : State) : State :=
  let n := argN w 0 % 16
  if s.pwr.openMode then setPwr s { s.pwr with maxOpp := n, setOpp := some h, setTick := true }
  else requestOpp (setPwr s { s.pwr with fixed := n, setOpp := some h }) n

/-! ## Droop and pulse skipping -/

/-- The applied skip level (R557). -/
def skipLevel (s : State) : Nat := max s.pwr.droop s.pwr.emergLevel

/-- A field of DROOP_CFG as applied (R572). -/
def droopCfg (s : State) (lo n : Nat) : Nat := fld (app s (pw 0x190)) lo n

/-- Skipping at a level above 0 is noted for the µs under way (R558). -/
def noteSkip (s : State) : State := if skipLevel s = 0 then s else setPwr s { s.pwr with skipped := true }

/-- Detectors trip (R555, R558, R559): new trips count, the level rises to SKIP_INIT after a quiet interval, a lock under way is abandoned. -/
def tripDetectors (s : State) (l : List Nat) : State :=
  if l.isEmpty then s
  else
    let w := s.pwr
    let s1 := bump s (pw 0x800) (l.filter (fun k => !w.tripped.contains k)).length
    let w1 := { w with
      tripped := l
      tripAt := if l.all w.tripped.contains then w.tripAt else some s.time
      injTrip := if l.contains 0 then none else w.injTrip
      droop := if w.tripped.isEmpty then max (droopCfg s 8 5) w.droop else w.droop
      droopAt := if w.tripped.isEmpty then s.time else w.droopAt }
    if w.step = 5 then deferStep (noteSkip (setPwr s1 { w1 with step := 4 }))
    else if w.step = 1 ∨ w.step = 4 ∨ w.step = 6 then deferStep (noteSkip (setPwr s1 w1))
    else noteSkip (setPwr s1 w1)

/-- DROOP_TRIP: the depth of the supply below the setpoint at each detector; those beyond THR trip (R555, R558). -/
def droopTripAct (s : State) (mv : List Nat) : State :=
  tripDetectors s ((List.range (min 64 mv.length)).filter (fun k => decide (droopCfg s 0 8 < nth 0 mv k)))

/-- RAIL_QUIET: the last tripped detector clears; the 1 µs descent and the 10 µs wait begin (R555, R558, R559). -/
def railQuietAct (s : State) : State :=
  if s.pwr.tripped.isEmpty then s
  else setPwr s { s.pwr with tripped := [], quietAt := some s.time, droopAt := s.time }

/-- DROOP_LEVEL_STEP: the level rises by 4 every 50 ns while a detector is tripped, and falls by 1 every 1 µs once the rail is quiet (R558). -/
def droopStepAct (s : State) : State :=
  let w := s.pwr
  if !w.tripped.isEmpty then
    if decide (50 ≤ since s w.droopAt) then noteSkip (setPwr s { w with droop := max w.droop (min (droopCfg s 16 5) (w.droop + 4)), droopAt := w.droopAt + 50 }) else s
  else if w.droop != 0 && decide (1000 ≤ since s w.droopAt) then setPwr s { w with droop := w.droop - 1, droopAt := w.droopAt + 1000 }
  else s

/-! ## The emergency throttle -/

/-- Sensors that are valid. -/
def validSensors (s : State) : Nat := 48 - s.pwr.invalid.length

/-- TJ_EMERG in 0.25 °C. -/
def tjEmerg (s : State) : Int := (fld (regN s (pw 0x184)) 0 10 : Nat)

/-- Does a condition of R569 hold now: temperature, sensors. -/
def hotNow (s : State) : Bool := decide (tjEmerg s ≤ s.pwr.tj) || decide (validSensors s < 44)

/-- The throttle begins (R505, R569, R570). -/
def emergBegin (s : State) : State :=
  if s.pwr.emerg then s
  else
    let s1 := bump (setPwr s { s.pwr with emerg := true, emergLevel := max s.pwr.emergLevel (droopCfg s 24 5), emergAt := s.time }) (pw 0x808) 1
    notices (raiseIrq (noteSkip s1) .pwr 0 8 none) true

/-- The throttle ends where its conditions are over, and the descent begins (R505, R569, R570). -/
def emergEnd (s : State) : State :=
  let calm := match s.pwr.curAt with
    | none => true
    | some t => decide (1000000 ≤ since s t)
  if s.pwr.emerg && decide (s.pwr.tj ≤ tjEmerg s - 20) && calm && decide (44 ≤ validSensors s) then
    pwrAdvance (notices (raiseIrq (setPwr s { s.pwr with emerg := false, emergAt := s.time }) .pwr 0 9 none) false)
  else s

/-- Begin or end the throttle as the conditions are now. -/
def emergCheck (s : State) : State := if hotNow s then emergBegin s else emergEnd s

/-- A current condition holds now (R569). -/
def overCurrent (s : State) : State := emergBegin (setPwr s { s.pwr with curAt := some s.time })

/-- EMERG_LEVEL_STEP: the level falls by 4 every 100 µs after the throttle's end (R569). -/
def emergStepAct (s : State) : State :=
  let w := s.pwr
  if !w.emerg && w.emergLevel != 0 && decide (100000 ≤ since s w.emergAt) then setPwr s { w with emergLevel := w.emergLevel - 4, emergAt := w.emergAt + 100000 }
  else s

/-- The injected reading of sensor 0 (R572). -/
def injected (s : State) (temps : List Int) : List Int :=
  match s.pwr.injTemp with
  | some t => if s.time.toNat < t.toNat then [tjEmerg s] ++ temps.drop 1 else temps
  | none => temps

/-- THERMAL_SAMPLE: every 100 µs the 48 sensors are read, in 0.25 °C; a sensor out of range or without a reading is invalid until the next
start; Tj is the highest valid reading (R568, R569). -/
def thermalAct (s : State) (raw : List Int) : State :=
  if decide (since s s.pwr.thermAt < 100000) then s
  else
    let temps := injected s raw
    let bad := fun (k : Nat) => match temps[k]? with
      | some v => decide (v < -160) || decide (600 < v)
      | none => true
    let inv := (List.range 48).filter (fun k => s.pwr.invalid.contains k || bad k)
    let s1 := if inv.length = s.pwr.invalid.length then s else raiseIrq (raiseErr s .pwr 0 10 none) .pwr 0 11 none
    let good := (List.range 48).filter (fun k => !inv.contains k)
    let best := good.foldl (fun (m : Option (Nat × Int)) k => match m with
      | some (j, v) => if v < nth 0 temps k then some (k, nth 0 temps k) else some (j, v)
      | none => some (k, nth 0 temps k)) none
    let (h, tj) := best.getD (s.pwr.hot, s.pwr.tj)
    let mask := fun (lo n : Nat) => (List.range n).foldl (fun m k => if inv.contains (lo + k) then m else m + 2 ^ k) 0
    let s2 := setRegN (setRegN (setRegN s1 (pw 0x1E0) (trunc tj 10 + 2 ^ 16 * h)) (pw 0x1E4) (mask 0 32)) (pw 0x1E8) (mask 32 16)
    emergCheck (setPwr s2 { s2.pwr with thermAt := s.time, tj := tj, hot := h, invalid := inv })

/-- THERMAL_SHUTDOWN: a comparator trips at 115 °C; the data-plane clocks stop, HBM refreshes itself, THERMTRIP_N is asserted (R571). -/
def shutdownAct (s : State) : State :=
  if s.pwr.shutdown then s
  else fault (setPwr s { s.pwr with shutdown := true, hbmSelf := true, thermtrip := true }) 0x60 .pwr 0

/-! ## PMBus -/

/-- Value of a LINEAR11 word, in thousandths (R560); a value that falls between two thousandths is rounded down (log entry 23). -/
def linear11 (w : Nat) : Int :=
  let e := sext (w / 2048) 5
  let y := sext w 11
  if 0 ≤ e then y * 1000 * 2 ^ e.toNat else y * 1000 / 2 ^ (-e).toNat

/-- Value of a LINEAR16 word under a VOUT_MODE, in thousandths (R560). -/
def linear16 (mode w : Nat) : Int :=
  let e := sext mode 5
  if 0 ≤ e then (w : Int) * 1000 * 2 ^ e.toNat else (w : Int) * 1000 / 2 ^ (-e).toNat

/-- VR_FAULT (R562). -/
def vrFault (s : State) : State := raiseErr (fault s 0x61 .pwr 0) .pwr 0 9 none

/-- A STATUS_WORD of a slot (R562, R569), with the bits of PMBus 1.3 (log entry 24). -/
def statusWord (s : State) (slot w : Nat) : State :=
  let s1 := if bitOf w 6 || bitOf w 5 || bitOf w 4 || bitOf w 15 then vrFault s else s
  if slot = 0 ∧ bitOf w 14 then overCurrent s1 else s1

/-- Is a slot valid (R560, R572). -/
def slotValid (s : State) (k : Nat) : Bool := decide (k < 4) && bitOf (app s (pw (0x1A4 + 4 * k))) 16

/-- When a slot was last polled with a command; those polled once a tick start anew at each (R561). -/
def lastPoll (s : State) (slot code : Nat) : Option DWord := tget (fun _ => none) s.pwr.polls (slot * 256 + code)

/-- Is a read of a slot due by the schedule: READ_IOUT, READ_VOUT of slot 0, STATUS_WORD, READ_POUT, READ_TEMPERATURE_1 (R561); VOUT_MODE
has none, and no other command reads (R560). -/
def pollDue (s : State) (slot code : Nat) : Bool :=
  let apart := fun (n : Nat) => match lastPoll s slot code with
    | none => true
    | some t => decide (n ≤ since s t)
  match code with
  | 0x8C => slot == 0 && apart (if bitOf (app s (pw 0x1A0)) 0 then 125000 else 500000)
  | 0x8B => slot == 0 && (lastPoll s slot code).isNone
  | 0x79 | 0x96 => (lastPoll s slot code).isNone
  | 0x8D => apart 8000000
  | 0x20 => true
  | _ => false

/-- PMBUS_POLL: a scheduled read of a slot answers a word, or fails twice (R560 to R562, R569, R572). -/
def pmbusAct (s : State) (slot code : Nat) (val : Option Nat) : State :=
  if !slotValid s slot || !pollDue s slot code then s
  else
    let forced := slot == 0 && injArmed s .pwr 0 2
    let s2 := setPwr s { s.pwr with polls := tset (fun _ => none) s.pwr.polls (slot * 256 + code) (some s.time) }
    let s0 := if forced then injUsed s2 .pwr 0 2 else s2
    match (if forced then none else val) with
    | none =>
      let s1 := pmbusError s0
      if slot != 0 then s1
      else
        let n := s1.pwr.badPolls + 1
        let s2 := setPwr s1 { s1.pwr with badPolls := n % 3, tickErr := true }
        if n = 3 then vrFault s2 else s2
    | some w =>
      let s1 := if slot = 0 then setPwr s0 { s0.pwr with badPolls := 0 } else s0
      match code with
      | 0x8C =>
        if slot != 0 then s1
        else
          let ma := linear11 w
          let run := if (regN s (pw 0x18C) : Int) * 1000 ≤ ma then s1.pwr.ocRun + 1 else 0
          let s2 := setPwr s1 { s1.pwr with iouts := s1.pwr.iouts ++ [ma], ocRun := run }
          if 2 ≤ run then overCurrent s2 else emergCheck s2
      | 0x8B => if slot = 0 then setPwr s1 { s1.pwr with vout := linear16 (tget (fun _ => 0x17) s1.pwr.vmode 0) w } else s1
      | 0x79 => statusWord s1 slot w
      | 0x96 => setPwr s1 { s1.pwr with pout := tset (fun _ => 0) s1.pwr.pout slot (linear11 w) }
      | 0x8D => setPwr s1 { s1.pwr with temps := tset (fun _ => 0) s1.pwr.temps slot (linear11 w) }
      | 0x20 => setPwr s1 { s1.pwr with vmode := tset (fun _ => 0x17) s1.pwr.vmode slot (w % 256) }
      | _ => s1

/-- PMBUS_ALERT: the regulator that answers the Alert Response Address is read for its STATUS_WORD (R560, R562). -/
def pmbusAlertAct (s : State) (slot status : Nat) : State := if slotValid s slot then statusWord s slot status else s

/-! ## The activity estimator and the phase table -/

/-- Group of a block type in the estimator (R563 and the blocks of R24). -/
def groupOf (b : Blk) : Nat :=
  match b with
  | .nc | .ncm | .ncv | .ncd | .spc => 0
  | .isp | .pyr | .warp | .str | .flw | .ftr | .fms | .vtm => 1
  | .camp | .cams | .rpl | .sctl | .ncse | .vse | .dma | .ladle => 2
  | .hbm | .noc => 3
  | .fabp | .rolv => 4
  | _ => 5

/-- The activity of a block's counts (R563). -/
def rawOf (s : State) (counts : List Nat) : Nat := (counts.zip s.pwr.weights).foldl (fun a x => a + x.1 * x.2) 0

/-- The estimate of an activity without CAL_OFFSET, in mW (R563). -/
def estOf (s : State) (r : Int) : Int := s.pwr.gain * r / 65536

/-- Phases with tasks in running slots: unit and phase (R565). -/
def runningPhases (s : State) : List (Nat × Nat) :=
  s.units.filterMap (fun e => e.2.run.map (fun r => (e.1, (nodeAt (graphAt s r.graph) r.node).phase)))

/-- A running mean advances by one sixteenth of the difference (R564, R565). -/
def drift (a v : Int) : Int := a + (v - a) / 16

/-- One µs of one phase entry: active with the summed estimate, or not (R565). -/
def phaseUs (on : Bool) (e : Int) (p : Phase) : Phase :=
  if on then { p with sum := p.sum + e, len := p.len + 1, peak := max p.peak e }
  else if p.len = 0 then p
  else { p with mean := drift p.mean (p.sum.tdiv p.len), dur := (drift p.dur p.len).toNat, count := (p.count + 1) % 2 ^ 32, sum := 0, len := 0 }

/-- ACTIVITY_SAMPLE: every 1 µs the blocks report their counts (R558, R563, R565, R570). -/
def activityAct (s : State) (acts : List (Nat × Nat × List Nat)) : State :=
  if decide (since s s.pwr.sampleAt < 1000) then s
  else
    let w := s.pwr
    let r := acts.foldl (fun a x => a + rawOf s x.2.2) 0
    let est := estOf s r + w.offset
    let run := runningPhases s
    let one := fun (k : Nat) => (acts.filter (fun x => x.1 * 256 + x.2.1 == k)).foldl (fun (a : Int) x => a + estOf s (rawOf s x.2.2)) 0
    let on := fun (p : Nat) => run.any (fun x => x.2 == p)
    let sum := fun (p : Nat) => (run.filter (fun x => x.2 == p)).foldl (fun (a : Int) x => a + one x.1) 0
    let ph := (List.range 64).foldl (fun t p => tset (fun _ => ({} : Phase)) t p (phaseUs (on p) (sum p) (tget (fun _ => {}) t p))) w.phases
    let grp := acts.foldl (fun t x => match blkOfCode x.1 with
      | some b => tset (fun _ => (0 : Int)) t (groupOf b) (tget (fun _ => 0) t (groupOf b) + estOf s (rawOf s x.2.2))
      | none => t) w.grpSum
    let s1 := setPwr s { w with
      sampleAt := s.time, rSum := w.rSum + r, estSum := w.estSum + est, nUs := w.nUs + 1, phases := ph, grpSum := grp
      active := ((List.range 64).filter (fun p => on p || w.active.contains p)) }
    let s2 := setRegN s1 (pw 0x1C8) (trunc est 32)
    let s3 := setPwr (if skipLevel s2 != 0 || w.skipped then bump s2 (pw 0x804) 1 else s2) { s2.pwr with skipped := skipLevel s2 != 0 }
    if s3.pwr.emerg then bump s3 (pw 0x80C) 1 else s3

/-- PHASE_CLEAR and PHASE_CLEAR_ALL (R565, R572): what an entry has learnt is cleared. -/
def clearPhase (s : State) (k : Nat) : State :=
  setPwr s { s.pwr with phases := tset (fun _ => ({} : Phase)) s.pwr.phases k { pref := (tget (fun _ => ({} : Phase)) s.pwr.phases k).pref } }
def phaseCtl (s : State) (v : Nat) : State :=
  if bitOf v 1 then forAll (List.range 64) (fun k t => clearPhase t k) s
  else if bitOf v 0 then clearPhase s (regN s (pw 0x300) % 64)
  else s

/-! ## The tick -/

/-- The calibration of one tick (R564): activity and measured power. -/
def calibrate (s : State) (r p : Int) : State :=
  let w := s.pwr
  let w1 := if r < w.rMean then { w with rLo := drift w.rLo r, pLo := drift w.pLo p } else { w with rHi := drift w.rHi r, pHi := drift w.pHi p }
  let g := if 256 ≤ w1.rHi - w1.rLo then trunc (((w1.pHi - w1.pLo) * 65536).tdiv (w1.rHi - w1.rLo)) 32 else w1.gain
  let o := w1.pLo - (g : Int) * w1.rLo / 65536
  let s1 := setPwr s { w1 with rMean := drift w.rMean r, gain := g, offset := o }
  bump (setRegN (setRegN s1 (pw 0x1C0) g) (pw 0x1C4) (trunc o 32)) (pw 0x818) 1

/-- Power of the other regulators (R567). -/
def otherPout (s : State) : Int := ([1, 2, 3].filter (slotValid s)).foldl (fun (a : Int) k => a + tget (fun _ => 0) s.pwr.pout k) 0

/-- Lower a choice until the neural cores stay within their allowance (R566). -/
def fitOpp (s : State) (nc allow : Int) : Nat → Nat
  | 0 => 0
  | k + 1 =>
    let c := s.pwr.cur
    let den : Int := oppF s c * oppV s c ^ 2
    if allow < (nc * (oppF s (k + 1) * oppV s (k + 1) ^ 2 : Nat)).tdiv den then fitOpp s nc allow k else k + 1

/-- The choice of R566. -/
def chooseOpp (s : State) (nc allow : Int) : Nat :=
  let prefs := s.pwr.active.filterMap (fun p => let q := (tget (fun _ => ({} : Phase)) s.pwr.phases p).pref; if bitOf q 8 then some (q % 16) else none)
  let want := if prefs.isEmpty then fld (app s (pw 0x100)) 0 4 else prefs.foldl max 0
  let a := min want s.pwr.maxOpp
  let b := if (fld (regN s (pw 0x188)) 0 10 : Int) ≤ s.pwr.tj then min a 10 else a
  let c := fitOpp s nc allow b
  if s.pwr.emerg then min c s.pwr.cur else c

/-- MODE as configured enters at a tick (R551). -/
def modeTick (s : State) : State :=
  let m := bitOf (app s (pw 0x100)) 8
  if m == s.pwr.openMode then s
  else if m then setPwr s { s.pwr with openMode := true }
  else requestOpp (setPwr s { s.pwr with openMode := false, setTick := false }) s.pwr.fixed

/-- PWR_TICK: every 1 ms the averages, the measured power and energy, the calibration, the budget, the throttle's rise, the mode and the choice of
the operating point (R551, R552, R564, R566, R567, R569). -/
def tickAct (s : State) : State :=
  if decide (since s s.pwr.tickAt < 1000000) then s
  else
    let w := s.pwr
    let n : Int := max 1 w.nUs
    let r := w.rSum.tdiv n
    let est := w.estSum.tdiv n
    let grp := fun (g : Nat) => (tget (fun _ => (0 : Int)) w.grpSum g).tdiv n
    let p := if w.iouts.isEmpty then 0 else (w.iouts.foldl (· + ·) 0).tdiv w.iouts.length * w.vout / 1000
    let s1 := setRegN (setRegN s (pw 0x1CC) (trunc est 32)) (pw 0x1D0) (trunc p 32)
    let s2 := forAll (List.range 5) (fun g t => setRegN t (pw (0x200 + 4 * g)) (trunc (grp g) 32)) s1
    let s3 := setPwr s2 { s2.pwr with energy := w.energy + p.toNat }
    let s4 := if w.tickErr || w.iouts.isEmpty then s3 else calibrate s3 r p
    let allow : Int := (regN s (pw 0x180) : Int) * 1000 - (grp 1 + grp 2 + grp 3 + grp 4) - s4.pwr.offset - otherPout s
    let s5 := setRegN s4 (pw 0x214) (trunc allow 32)
    let s6 := if (regN s (pw 0x180) : Int) * 1000 < est + otherPout s then bump s5 (pw 0x820) 1 else s5
    let s7 := setPwr s6 { s6.pwr with
      emergLevel := if w.emerg && decide (w.tjPrev ≤ w.tj) then max s6.pwr.emergLevel (min 28 (s6.pwr.emergLevel + 4)) else s6.pwr.emergLevel
      tjPrev := w.tj }
    let s8 := emergCheck (modeTick s7)
    let s9 := if s8.pwr.openMode then requestOpp (setPwr s8 { s8.pwr with setTick := false }) (chooseOpp s8 (grp 0) allow) else s8
    setPwr s9 { s9.pwr with tickAt := s.time, rSum := 0, estSum := 0, nUs := 0, grpSum := [], polls := s9.pwr.polls.filter (fun e => e.1 % 256 == 0x8C || e.1 % 256 == 0x8D), iouts := [], tickErr := false, active := [] }

end Sys2Proof.Machine
end

