-- ==== Sys2Proof/Machine/Boot.lean ====
section
/-! DEFINITION. Starts, the OTP, firmware verification, programming and attestation (R602 to R631). -/

namespace Sys2Proof.Machine
open Sys2Proof

/-! ## Registers -/

/-- Registers of the BOOT, OTP and SEC pages. -/
def bt (o : Nat) : Nat := pg .boot 0 + o
def ot (o : Nat) : Nat := pg .otp 0 + o
def se (o : Nat) : Nat := pg .sec 0 + o

/-- Change the boot state. -/
def setBoot (s : State) (b : Boot) : State := { s with boot := b }

/-- A field of BOOT_STAT (R631). -/
def bootFld (s : State) (lo n : Nat) : Nat := fld (regN s (bt 0x100)) lo n
def setBootFld (s : State) (lo n v : Nat) : State := setRegN s (bt 0x100) (setFld (regN s (bt 0x100)) lo n v)

/-- BOOT_STAT.STATE (R631): 0 cold start, 1 warm start, 2 running, 3 management-only. -/
def bootState (s : State) : Nat := bootFld s 0 2

/-! ## The OTP -/

/-- Bytes of the OTP. -/
def otpRead (s : State) (a n : Nat) : List Byte := memRead s.boot.otp a n

/-- Offset of a generation (R620). -/
def genAt (g : Nat) : Nat := 0x100 + 0x3C0 * g

/-- Bits set in a number of n bits. -/
def popN (n w : Nat) : Nat := ((List.range n).filter (bitOf w)).length

/-- Is a generation killed (R622). -/
def killed (s : State) (g : Nat) : Bool := decide (4 ≤ popN 8 (leNat (otpRead s (0x60 + g) 1)))

/-- The repair entries of a generation (R621, R626). -/
def repairOf (s : State) (g : Nat) : List Repair :=
  (List.range (leNat (otpRead s (genAt g + 0x130) 2))).map (fun i =>
    let e := leNat (otpRead s (genAt g + 0x134 + 3 * i) 3)
    { core := fld e 17 3, bank := fld e 11 6, spare := fld e 20 4, pos := fld e 0 11 })

/-- The variant fuse bytes (R620, R624). -/
def fuseWord (s : State) : Nat := leNat (otpRead s 0x18 8)

/-- Do two entries of a map name one spare, or one position, of a bank (R622). -/
def repairClash : List Repair → Bool
  | [] => false
  | r :: l => l.any (fun x => x.core == r.core && x.bank == r.bank && (x.spare == r.spare || x.pos == r.pos)) || repairClash l

/-- Is a generation valid (R622). -/
def genValid (s : State) (g : Nat) : Bool :=
  let b := otpRead s (genAt g) 0x3C0
  !killed s g && leAt b 0 4 == 0x314E4547 && leAt b 0x3BC 4 == crc32 (b.take 0x3BC) && (!zeros b 0x10 0x50 || !zeros b 0x50 0x90) &&
    decide (leAt b 0x130 2 ≤ 216) && !repairClash (repairOf s g) && (repairOf s g).all (fun r => bitOf (fuseWord s) r.core)

/-- Valid generations, and the one in use: the highest of them (R623). -/
def validGens (s : State) : List Nat := (List.range 4).filter (genValid s)
def useGen (s : State) : Option Nat := (validGens s).getLast?

/-- Does the fixed area pass its CRC, the kill bytes taken as 0 (R620). -/
def fixedOk (s : State) : Bool :=
  leNat (otpRead s 0x7C 4) == crc32 (otpRead s 0 0x60 ++ List.replicate 4 0 ++ otpRead s 0x64 0x18)

/-- Are the variant fuses within R624. -/
def variantOk (f : Nat) : Bool :=
  fld f 11 5 == 0 && (fld f 20 4 == 0xF || fld f 20 4 == 3) && (fld f 24 8 == 1 || fld f 24 8 == 2) && fld f 33 31 == 0

/-- Instances of a type that a part with `keep` of them lacks: which ones R6 leaves to the unit (log entry 26). -/
def lacking (b : Blk) (keep : Nat) : List Nat :=
  if blkCount b ≤ keep then []
  else ((List.range (blkCount b)).mergeSort (fun m n =>
    decide (Config.partRank (blkCode b) m ≤ Config.partRank (blkCode b) n))).drop keep

/-- Pages the fuses and the part code make absent (R4, R6, R624, log entry 26). -/
def absentOf (f part : Nat) : List Nat :=
  let ncs := (List.range 8).filter (fun n => !bitOf f n)
  let half := fun (b : Blk) (few : Bool) => (lacking b (if few then blkCount b / 2 else blkCount b)).map (pg b)
  ncs.flatMap (fun n => [pg .nc n, pg .ncse n]) ++
    (lacking .str (fld f 8 2 + 1)).map (pg .str) ++
    ((List.range 4).filter (fun n => !bitOf f (16 + n))).map (pg .fabp) ++
    (if fld f 16 4 = 0 then [pg .rolv 0] else []) ++
    ((List.range 4).filter (fun n => !bitOf f (20 + n))).map (pg .hbm) ++
    ((List.range 12).filter (fun n => decide (6 * fld f 24 2 ≤ n))).map (pg .camp) ++
    half .cams (fld f 24 2 == 1) ++ half .sctl (fld f 24 2 == 1) ++ half .flw (part == 0x2448) ++ half .ftr (part == 0x2448)

/-- Pages of fenced cores (R607). -/
def fencedPages (s : State) : List Nat :=
  ((List.range 8).filter (bitOf (regN s (bt 0x114)))).flatMap (fun n => [pg .nc n, pg .ncse n])

/-! ## Beginning a start -/

/-- Is a BAR0 offset in the BOOT or SEC page, which the always-on domain keeps (R631). -/
def keptReg (a : Nat) : Bool := decide (bt 0 ≤ a) && decide (a < bt 0x2000)

/-- What a start leaves of the state before it (R385, R396, R459, R592, R603, R605, R643): a cold start restarts TIMECNT and clears the crumb
rings; a warm start keeps both and HBM, and leaves scratchpads and tile memory with contents of their own. -/
def restart (s : State) (cold : Bool) : State :=
  { State.reset with
    time := if cold then 0 else s.time
    pending := s.pending
    free := s.free + 3
    regs := s.regs.filter (fun e => keptReg e.1)
    hbm := if cold then memOf (Config.coldHbm s.free) else s.hbm
    hbmUe := if cold then [] else s.hbmUe
    host := s.host
    spad := if cold then [] else memOf (Config.warmRows s.free)
    lane := if cold then [] else memOf (Config.warmRows (s.free + 1))
    tile := if cold then [] else memOf (Config.warmRows (s.free + 2))
    stackGiB := s.stackGiB
    msix := s.msix
    bar2 := s.bar2
    dbg := { crumbs := if cold then [] else s.dbg.crumbs }
    safe := { hbAt := if cold then 0 else s.safe.hbAt, vcount := 0 }
    rolv := { out := s.rolv.out }
    pwr := { vouts := s.pwr.vouts, tj := s.pwr.tj, tjPrev := s.pwr.tj, hot := s.pwr.hot, thermtrip := s.pwr.thermtrip, tickAt := if cold then 0 else s.time,
             sampleAt := if cold then 0 else s.time, thermAt := if cold then 0 else s.time }
    boot := { s.boot with
      cold := cold, starting := true, step := 1, stepAt := if cold then 0 else s.time, startAt := if cold then 0 else s.time
      waiting := none, island := [], inReset := false, warmSince := if cold then 0 else s.boot.warmSince } }

/-- A start begins (R602 to R605, R616). -/
def beginStart (s : State) (cold : Bool) : State :=
  let s1 := setBootFld (restart s cold) 0 2 (if cold then 0 else 1)
  if cold then setBootFld s1 16 2 0 else s1

/-- A request for a start (R602, R616, R617, R628): it waits for an OTP word being programmed; in a start it is ignored, but for a cold request
in a warm start; only a cold start leaves a thermal shutdown, the management-only state and reset. -/
def requestStart (s : State) (cold : Bool) : State :=
  if s.boot.prog.isSome then
    setBoot s { s.boot with waiting := if s.boot.waiting == some 2 then some 2 else some (if cold || s.boot.waiting == some 0 then 0 else 1) }
  else if s.boot.starting then (if cold && !s.boot.cold then beginStart s true else bump s (bt 0x80C) 1)
  else if cold || (bootState s == 2 && !s.pwr.shutdown) then beginStart s cold
  else s

/-- A start fails (R616 to R619): a warm start is made again, the third failure in a row makes a cold one; a failed cold start leaves the
management-only state. -/
def failStart (s : State) (code : Nat) : State :=
  let s1 := bump (setBootFld (setBootFld s 4 3 s.boot.step) 8 8 code) (bt 0x808) 1
  let s2 := raiseIrq s1 .boot 0 9 none
  if s.boot.cold then
    let trained := decide (4 ≤ s.boot.step)
    setPwr (setBoot (setBootFld s2 0 2 3) { s2.boot with starting := false, step := 0 }) { s2.pwr with hbmSelf := trained }
  else
    let n := bootFld s2 16 2 + 1
    if 3 ≤ n then beginStart s2 true else beginStart (setBootFld s2 16 2 n) false

/-- The next step begins (R604). -/
def nextStep (s : State) : State := setBoot s { s.boot with step := s.boot.step + 1, stepAt := s.time }

/-! ## The steps -/

/-- Estimator weights of a generation's defaults (R625). -/
def otpWeights (s : State) (g : Nat) : List Nat := (List.range 16).map (fun i => leNat (otpRead s (genAt g + 0x90 + 76 + 2 * i) 2))

/-- The OTP load of a start (R606, R622 to R625). -/
def otpLoad (s : State) (g : Nat) : State :=
  let f := fuseWord s
  let part := leNat (otpRead s 8 2)
  let d := genAt g + 0x90
  let gain := leNat (otpRead s (d + 68) 4)
  let off := leNat (otpRead s (d + 72) 4)
  let o := leNat (otpRead s (d + 64) 1)
  let opp := if bitOf o 7 && decide (o % 16 ≤ 10) then o % 16 else 10
  let s1 := { s with absent := absentOf f part ++ (if s.boot.cold then [] else fencedPages s), stackGiB := if part = 0x4864 then 16 else 24 }
  let s2 := forAll (List.range 16) (fun k t => setRegN t (pw (0x140 + 4 * k)) (leNat (otpRead s (0x20 + 4 * k) 4) &&& 0x0FFF0FFF)) s1
  let s3 := setRegN (setRegN s2 (pw 0x1C0) gain) (pw 0x1C4) off
  let s4 := setRegN s3 (pw 0x180) (if part = 0x4864 then 480 else if part = 0x2448 then 300 else 620)
  let s5 := setBoot s4 { s4.boot with
    fuses := f, gen := g, minVersion := leNat (otpRead s (genAt g + 4) 4)
    genBlank := (List.range 4).filter (fun x => zeros (otpRead s (genAt x) 0x3C0) 0 0x3C0) }
  let s6 := setRegN s5 (ot 0x110) ((validGens s).foldl (fun m x => m + 2 ^ (8 + x)) 0 + 2 ^ 12 * g)
  setPwr s6 { s6.pwr with weights := otpWeights s g, gain := gain, offset := sext off 32, pLo := sext off 32, pHi := sext off 32, cur := opp, target := opp, fixed := opp }

/-- Step 1. Before a cold start's OTP load the ROM waits until Tj is below 95 °C; without REFCLK_AON the step does not pass (R606, R641). -/
def step1 (s : State) (ok : Bool) : State :=
  if !ok || (s.boot.cold && decide (380 ≤ s.pwr.tj)) then s
  else if !fixedOk s then failStart s 0x01
  else match useGen s with
    | none => failStart s 0x02
    | some g => if !variantOk (fuseWord s) then failStart s 0x04 else nextStep (otpLoad s g)

/-- CRC-64 over repair entries in core, bank and spare order (R609). -/
def repairSig (l : List Repair) : Nat :=
  let key := fun (r : Repair) => (r.core * 64 + r.bank) * 16 + r.spare
  let ins := l.foldl (fun (t : Tbl Nat) r => tset (fun _ => 0) t (key r) (1 + r.pos + 2 ^ 11 * r.bank + 2 ^ 17 * r.core + 2 ^ 20 * r.spare)) []
  crc64 (ins.flatMap (fun e => natLe 3 (e.2 - 1)))

/-- The march's findings: log, fenced cores, scratchpads with unrepaired rows (R607, R610). -/
def marchLog (s : State) (rows : List Nat) : State :=
  let mine := rows.filter (fun e => present s .nc (fld e 17 3) &&
    !s.boot.repair.any (fun r => r.core == fld e 17 3 && r.bank == fld e 11 6 && r.pos == fld e 0 11))
  let s1 := forAll (List.range 64) (fun i t => setRegN t (bt (0x200 + 4 * i)) (nth 0 mine i &&& 0x800FFFFF)) s
  let s2 := bump s1 (bt 0x810) (mine.length - 64)
  let fence := (List.range 8).filter (fun n => mine.any (fun e => fld e 17 3 == n && bitOf e 31))
  let weak := (List.range 8).filter (fun n => !fence.contains n && mine.any (fun e => fld e 17 3 == n))
  let s3 := setRegN s2 (bt 0x114) (fence.foldl (fun m n => m + 2 ^ n) 0)
  let s4 := forAll weak (fun n t => raiseErr t .spc n 11 none) s3
  { s4 with absent := s4.absent ++ fencedPages s4 }

/-- Step 2: the march of a cold start, or the signature check of a warm one (R396, R607, R609). -/
def step2 (s : State) (ok : Bool) (rows : List Nat) : State :=
  if s.boot.cold then
    if !ok then failStart s 0x10
    else
      let s1 := marchLog { setBoot s { s.boot with repair := repairOf s s.boot.gen } with spad := [], lane := [], tile := [] } rows
      if (presentList s1 .nc).isEmpty then failStart s1 0x11
      else nextStep (setBootFld (setReg64 s1 (bt 0x118) (bt 0x11C) (repairSig s1.boot.repair)) 18 1 0)
  else if !ok || repairSig s.boot.repair != reg64 s (bt 0x118) (bt 0x11C) then failStart s 0x12
  else nextStep (setBootFld s 18 1 (b2n (repairSig (repairOf s s.boot.gen) != reg64 s (bt 0x118) (bt 0x11C))))

/-- Step 4: error injection; `rows` names the checkers that failed (R542, R543). -/
def step4 (s : State) (ok : Bool) (rows : List Nat) : State :=
  let res := if ok then 0x3FF else ((List.range 10).filter (fun i => !rows.contains i && !rows.isEmpty)).foldl (fun m i => m + 2 ^ i) 0
  let s1 := setRegN s (safePg + 0x108) res
  if res != 0x3FF then failStart s1 0x30
  else nextStep (setBoot s1 { s1.boot with imgAddr := reg64 s (bt 0x108) (bt 0x10C), imgLen := regN s (bt 0x110) })

/-- The image of step 5 with whether it comes from the host; none where there is no source (R613). -/
def imageBytes (s : State) : Option (List Byte × Bool) :=
  if s.boot.imgLen != 0 then some (memRead s.host s.boot.imgAddr (min s.boot.imgLen 0x400_0000), true)
  else if leNat (otpRead s (genAt s.boot.gen + 0x90 + 65) 1) = 0 then
    some (memRead s.boot.spi 0 (min (leNat (memRead s.boot.spi 8 4)) 0x200_0000 + 256), false)
  else none

/-- Sections of an image: type, offset, length (R611). -/
def sectionsOf (b : List Byte) : List (Nat × Nat × Nat) :=
  (List.range (leAt b 6 2)).map (fun i => (leAt b (128 + 16 * i) 1, leAt b (132 + 16 * i) 4, leAt b (136 + 16 * i) 4))

/-- Are sections apart from one another (R612). -/
def sectionsApart : List (Nat × Nat × Nat) → Bool
  | [] => true
  | x :: l => l.all (fun y => !overlap (x.2.1, x.2.2) (y.2.1, y.2.2)) && sectionsApart l

/-- The header check of R612. -/
def imageOkFmt (b : List Byte) : Bool :=
  let n := leAt b 6 2
  let len := leAt b 8 4
  let ss := sectionsOf b
  decide (256 ≤ b.length) && leAt b 0 4 == 0x31495746 && leAt b 4 2 == 1 && decide (1 ≤ n) && decide (n ≤ 8) && decide (256 ≤ len) &&
    decide (len ≤ 0x200_0000) && decide (len ≤ b.length) && zeros b 112 128 && zeros b (128 + 16 * n) 256 &&
    ss.all (fun x => decide (1 ≤ x.1) && decide (x.1 ≤ 3) && decide (x.2.1 + x.2.2 ≤ len)) && sectionsApart ss &&
    (List.range n).all (fun i => zeros b (129 + 16 * i) (132 + 16 * i) && zeros b (140 + 16 * i) (144 + 16 * i))

/-- Which key hash of the generation in use an image's key matches (R612). -/
def keyMatch (s : State) (b : List Byte) : Option Nat :=
  let h := sha512 ((b.drop 16).take 32)
  [0, 1].find? (fun i => let k := otpRead s (genAt s.boot.gen + 0x10 + 0x40 * i) 64; !zeros k 0 64 && k == h)

/-- The digest D of an image (R612). -/
def imageDigest (b : List Byte) : List Byte :=
  let len := leAt b 8 4
  sha512 (b.take 48 ++ List.replicate 64 0 ++ (b.take len).drop 112)

/-- Step 5: the image is read and verified, the island's program copied, control passed (R612, R613). -/
def step5 (s : State) (ok : Bool) : State :=
  match imageBytes s with
  | none => failStart s 0x40
  | some (b, fromHost) =>
    if !ok then failStart s 0x41
    else
      let s1 := { s with hbm := memWrite s.hbm (hbmCap s - 0x400_0000) b }
      if !imageOkFmt b then failStart s1 0x42
      else match keyMatch s b with
        | none => failStart s1 0x43
        | some k =>
          let d := imageDigest b
          if !edVerify ((b.drop 16).take 32) d ((b.drop 48).take 64) then failStart s1 0x44
          else if leAt b 12 4 < s.boot.minVersion then failStart s1 0x45
          else
            let isl := ((sectionsOf b).find? (fun x => x.1 == 2)).map (fun x => (b.drop x.2.1).take x.2.2)
            let s2 := setBootFld (setRegN s1 (bt 0x120) (leAt b 12 4)) 19 1 (b2n fromHost)
            nextStep (setBoot s2 { s2.boot with keyUsed := k, digest := d, island := memWrite [] 0 (isl.getD []) })

/-- Step 3: every present stack is trained, or restored from its kept training in a warm start, and leaves self-refresh (R460, R604). -/
def step3 (s : State) (ok : Bool) : State :=
  if !ok then failStart s (if s.boot.cold then 0x20 else 0x21)
  else nextStep (setPwr (forAll (presentList s .hbm) (fun n t => setRegN t (hbmPg n + 0x144) (if s.boot.cold then 1 else 3)) s) { s.pwr with hbmSelf := false })

/-- START_STEP_COMPLETE: the work of the step under way ends (R604). -/
def stepAct (s : State) (ok : Bool) (rows : List Nat) : State :=
  if !s.boot.starting then s
  else match s.boot.step with
    | 1 => step1 s ok
    | 2 => step2 s ok rows
    | 3 => step3 s ok
    | 4 => step4 s ok rows
    | 5 => step5 s ok
    | _ => s

/-- TJ_HIGH (R606). -/
def tjHighAct (s : State) : State :=
  if s.boot.starting && s.boot.cold && s.boot.step == 1 && decide (380 ≤ s.pwr.tj) && decide (60000000000 ≤ since s s.boot.startAt) then failStart s 0x03 else s

/-- FW_HANG (R615). -/
def fwHangAct (s : State) : State :=
  if s.boot.starting && s.boot.step == 6 && decide (2000000000 ≤ since s s.boot.stepAt) then failStart s 0x50 else s

/-- Assignable instances in the order of the partition map (R625). -/
def mapOrder : List (Blk × Nat) :=
  [Blk.cams, .rpl, .sctl, .isp, .pyr, .warp, .str, .flw, .ftr, .nc, .vse, .ladle].flatMap (fun b => (List.range (blkCount b)).map (fun n => (b, n)))

/-- Give every present assignable instance its partition (R29, R625). -/
def assignParts (s : State) : State :=
  forAll mapOrder.zipIdx (fun x t =>
    let q := fld (leNat (otpRead s (genAt s.boot.gen + 0x90 + x.2 / 2) 1)) (4 * (x.2 % 2)) 4
    if present t x.1.1 x.1.2 then setRegN t (partAddr x.1.1 x.1.2) (if bitOf q 3 then q % 4 else 1) else t) s

/-- FW_READY: firmware completes the start (R29, R549, R603, R615, R618). -/
def fwReadyAct (s : State) : State :=
  if !s.boot.starting || s.boot.step != 6 || decide (2000000000 < since s s.boot.stepAt) then s
  else
    let s1 := bump (assignParts s) (bt (if s.boot.cold then 0x800 else 0x804)) 1
    let s2 := setRegN s1 (bt 0x124) (since s s.boot.startAt / 1000)
    let s3 := setBootFld (setBootFld (setBootFld (setBootFld s2 0 2 2) 4 3 0) 8 8 0) 16 2 0
    let s4 := orReg s3 (safePg + 0x104) 2
    let s5 := { s4 with
      safe := { s4.safe with hbOn := true, hbAt := s.time, hbPin := false }
      boot := { s4.boot with starting := false, step := 0, warmSince := if s.boot.cold then 0 else s.boot.warmSince + 1 } }
    raiseIrq (setPwr s5 { s5.pwr with vouts := s5.pwr.vouts ++ [oppV s5 s5.pwr.cur] }) .boot 0 8 none

/-! ## Reset -/

/-- RESET_N low: the device is in reset, once an OTP word being programmed is done; THERMTRIP_N is released (R638, R643). -/
def enterReset (s : State) : State :=
  let s1 := setBootFld (restart s true) 0 2 0
  { s1 with
    pwr := { s1.pwr with thermtrip := false }
    boot := { s1.boot with starting := false, step := 0, inReset := true } }
def resetAct (s : State) : State :=
  if s.boot.prog.isSome then setBoot { s with pwr := { s.pwr with thermtrip := false } } { s.boot with waiting := some 2 } else enterReset s

/-- REFCLK_LOSS: a CLOCK_FAULT; TIMECNT stops until the next start, and PTP is no longer locked (R641). -/
def refclkAct (s : State) : State := setLocked (hardFault { s with timeOn := false, slew := 0 } 0x03) false

/-! ## Programming -/

/-- Is a program refused (R627). -/
def progRefused (s : State) (a : Nat) : Bool :=
  if a < 0x100 then !(decide (0x60 ≤ a) && decide (a < 0x64)) && leNat (otpRead s 0xFC 1) != 0
  else
    let g := (a - 0x100) / 0x3C0
    decide (g ≤ s.boot.gen) || !s.boot.genBlank.contains g

/-- OTP_PROGRAM: firmware programs a word (R627). -/
def programAct (s : State) (v : Nat) : State :=
  if !bitOf v 0 || s.boot.prog.isSome then s
  else
    let a := regN s (ot 0x100) &&& 0xFFC
    if progRefused s a then raiseErr (orReg s (ot 0x110) 4) .otp 0 9 none
    else orReg (setBoot (clrReg s (ot 0x110) 6) { s.boot with prog := some (a, regN s (ot 0x108), s.time) }) (ot 0x110) 1

/-- OTP_PROGRAM_DONE: after 20 µs the word is read back; `ok` says whether the cells took the value, and where they did not each of the bits to be
set is open (R627, R628). What waited for the word begins. -/
def programDoneAct (s : State) (ok : Bool) : State :=
  match s.boot.prog with
  | none => s
  | some (a, v, t) =>
    if decide (since s t < 20000) then s
    else
      let old := leNat (otpRead s a 4)
      let word := old ||| (if ok then v else v &&& freeVal s)
      let bad := !ok && word != (old ||| v)
      let s1 := setBoot (if ok then s else drawn s) { s.boot with otp := memWrite s.boot.otp a (natLe 4 word), prog := none }
      let s2 := clrReg s1 (ot 0x110) 1
      let s3 := if bad then raiseErr (orReg s2 (ot 0x110) 2) .otp 0 8 none else s2
      match s.boot.waiting with
      | some 0 => requestStart (setBoot s3 { s3.boot with waiting := none }) true
      | some 1 => requestStart (setBoot s3 { s3.boot with waiting := none }) false
      | some _ => enterReset s3
      | none => s3

/-- The word OTP_DATA shows: 0 within DEVICE_SECRET (R629, R631). -/
def otpData (s : State) : Nat :=
  let a := regN s (ot 0x100) &&& 0xFFC
  if 0x80 ≤ a ∧ a < 0xA0 then 0 else leNat (otpRead s a 4)

/-! ## Identity and attestation -/

/-- The identity key's seed, and its public key (R629). -/
def idSeed (s : State) : List Byte := (sha512 ([0x50, 0x4C, 0x59, 0x4E, 0x2D, 0x49, 0x44, 0x4B] ++ otpRead s 0x80 32)).take 32
def idPub (s : State) : List Byte := edPub (idSeed s)

/-- ATT_CTL.GO (R630). -/
def attGoAct (s : State) : State :=
  if s.boot.att.isSome then orReg s (se 0x124) 4
  else setRegN (setBoot s { s.boot with att := some ((List.range 8).flatMap (fun i => natLe 4 (regN s (se (0x100 + 4 * i))))) }) (se 0x124) 1

/-- The first 192 bytes of a report (R630). -/
def reportHead (s : State) (nonce : List Byte) : List Byte :=
  let flags := b2n s.boot.cold + 2 * bootFld s 19 1 + 4 * b2n (bitOf s.boot.fuses 32) + 8 * b2n (!s.safe.safeN) + 16 * bootFld s 18 1
  natLe 4 0x31545441 ++ natLe 2 1 ++ natLe 2 flags ++ otpRead s 0 8 ++ natLe 4 (blkId .sys 0) ++ natLe 8 (fuseWord s) ++ natLe 1 s.boot.gen ++
    natLe 1 s.boot.keyUsed ++ natLe 1 (fld (regN s 0x184) 8 8) ++ natLe 1 (regN s (bt 0x114)) ++ natLe 4 (regN s (bt 0x120)) ++
    natLe 4 s.boot.minVersion ++ natLe 4 s.boot.warmSince ++ natLe 4 0 ++ natLe 8 s.time.toNat ++ (s.boot.digest ++ List.replicate 64 0).take 64 ++ nonce ++
    idPub s ++ natLe 8 0

/-- ATT_REPORT_DONE: SEC writes the report and sets DONE (R630). -/
def attDoneAct (s : State) : State :=
  match s.boot.att with
  | none => s
  | some nonce =>
    let h := reportHead s nonce
    let b := h ++ edSign (idSeed s) h
    let s1 := forAll (List.range 64) (fun i t => setRegN t (se (0x200 + 4 * i)) (leAt b (4 * i) 4)) s
    setRegN (setBoot s1 { s1.boot with att := none }) (se 0x124) (regN s (se 0x124) / 4 % 2 * 4 + 2)

end Sys2Proof.Machine
end

