-- ==== Sys2Proof/Machine/Debug.lean ====
section
/-! DEFINITION. Freezing, the global stop, memory read-out, scan, JTAG and crumb read-out (R575 to R599). -/

namespace Sys2Proof.Machine
open Sys2Proof

/-- Registers of the DBG page. -/
def db (o : Nat) : Nat := dbgPg + o

/-- Change the DBG state. -/
def setDbg (s : State) (d : Dbg) : State := { s with dbg := d }

/-! ## Freezing -/

/-- Units that count a task, with their running slots (R575). -/
def countedUnits : List (Blk × Nat) :=
  [Blk.isp, .pyr, .warp, .str, .flw, .ftr, .nc].flatMap (fun b => (List.range (blkCount b)).map (fun n => (b, n)))

/-- A unit's counters hold from the freeze instant on (R578). -/
def freezeUnit (x : Blk × Nat) (s : State) : State := setCnt s x.1 x.2 (cntStopped s x.1 x.2)

/-- A unit's counters go on at the unfreeze instant: the task then in the running slot is counted, as PARTIAL (R579). -/
def unfreezeUnit (t : DWord) (x : Blk × Nat) (s : State) : State :=
  match (unitAt s x.1 x.2).run with
  | none => s
  | some r =>
    let c := cntAt s x.1 x.2
    let n := nodeAt (graphAt s r.graph) r.node
    if c.running then setCnt s x.1 x.2 { c with isPartial := true, enteredAt := some t }
    else setCnt s x.1 x.2 { opid := n.opId, phase := n.phase, flow := n.flow, running := true, isPartial := true, enteredAt := some t }

/-- FREEZE_INSTANT: the instant requested comes (R578, R579). -/
def freezeInstantAct (s : State) : State :=
  match s.dbg.freezeAt with
  | none => s
  | some (t, f) =>
    if s.time.toNat < t.toNat then s
    else if f then
      let s1 := forAll countedUnits freezeUnit s
      raiseIrq (setRegN (setDbg s1 { s1.dbg with freezeAt := none }) (db 0x104) 1) .dbg 0 11 none
    else forAll countedUnits (unfreezeUnit t) (setRegN (setDbg s { s.dbg with freezeAt := none }) (db 0x104) 0)

/-- A read of CMD_OPID latches CMD_BUSY, CMD_STALL and CMD_STAT; in the instant a task enters, those of the task before (R575, R576). -/
def cmdOpidRead (s : State) (b : Blk) (n : Nat) : State :=
  let c := cntAt s b n
  let a := pg b n + 0xC00
  let old := !frozen s && c.enteredAt == some s.time
  let busy := (cntStopped s b n).busy
  let put := fun (op ph fl bu st : Nat) (pa : Bool) =>
    setRegN (setRegN (setRegN (setRegN s a (op % 2 ^ 24 + 2 ^ 24 * (ph % 256))) (a + 4) bu) (a + 8) st) (a + 0xC)
      (b2n (unitAt s b n).run.isSome + 2 * b2n pa + 2 ^ 16 * (fl % 65536))
  if old then put c.prevOpid c.prevPhase c.prevFlow c.prevBusy c.prevStall c.prevPartial
  else put c.opid c.phase c.flow busy c.stall c.isPartial

/-- GC_CTL: every global counter is cleared (R577). -/
def gcClearAct (s : State) : State :=
  forAll (List.range 64) (fun c t =>
    { setRegN t (db (0x800 + 8 * c)) 0 with hi := tset (fun _ => (0 : Word)) t.hi (db (0x800 + 8 * c)) 0 }) s

/-- A write of TRIG_CFG: arming clears TRIG_FIRED (R589). -/
def trigWrite (s : State) (v : Nat) : State :=
  let s1 := setRegN s (db 0x120) (v &&& 0x8000337F)
  if bitOf v 31 then setRegN s1 (db 0x128) 0 else s1

/-- A write of FREEZE_CTL (R578). -/
def freezeCtl (s : State) (v : Nat) : State :=
  let s1 := if bitOf v 0 then reqFreeze s true else s
  if bitOf v 1 then reqFreeze s1 false else s1

/-! ## Read-out of memories -/

/-- Bytes of 8-byte words with every unreadable one as ones; `bad` tells which words are. -/
def withUe (bad : Nat → Bool) (l : List Byte) : List Byte :=
  l.zipIdx.map (fun x => if bad (x.2 / 8) then 0xFF else x.1)

/-- The 544 bytes a read-out gives (R599). -/
def memrdBytes (s : State) : List Byte :=
  let t := regN s (db 0x320) % 16
  let a := regN s (db 0x324)
  if !isStopped s then []
  else if t < 8 then
    if !present s .nc t then []
    else
      let r := a % spRows
      withUe (fun w => s.spadUe.contains (spWord t r w)) (rowData s t r 0 512 ++ rowLane s t r 0 32)
  else if t = 8 then
    let o := a / 512 * 512
    if o < 0x300_0000 then withUe (fun w => s.tileUe.contains (o / 8 + w)) (memRead s.tile o 512) else []
  else []

/-- MEMRD_CTL: the data appears in MEMRD_DATA; zeros outside a stop (R599). -/
def memrdAct (s : State) (v : Nat) : State :=
  if !bitOf v 0 then s
  else
    let b := memrdBytes s
    forAll (List.range 136) (fun i t => setRegN t (db (0xC40 + 4 * i)) (leAt b (4 * i) 4)) s

/-! ## Crumb rings -/

/-- Has a block type crumb rings of its own (R590); the management core is selected as type 0x0001 (R601). -/
def crumbBlk (b : Blk) : Bool :=
  match b with
  | .sys | .cams | .rpl | .sctl | .isp | .pyr | .warp | .str | .flw | .ftr | .nc | .ncse | .vse | .ladle | .fgs | .dma => true
  | _ => false

/-- The ring CRUMB_SEL shows, if it is present. -/
def crumbSel (s : State) : Option Nat :=
  let v := regN s (db 0x300)
  match blkOfCode (fld v 0 16) with
  | none => none
  | some b =>
    let n := fld v 16 8
    if !crumbBlk b then none
    else if b = .dma then (if n < 32 && present s .dma 0 then some (ukey .dma n) else none)
    else if present s b n then some (ukey b n) else none

/-- Entries of a ring. -/
def crumbsOf (s : State) (k : Nat) : List Crumb := tget (fun _ => ([] : List Crumb)) s.dbg.crumbs k

/-- The 16 bytes of a crumb entry (R591). -/
def crumbBytes (c : Crumb) : List Byte :=
  natLe 8 c.time.toNat ++ natLe 1 c.event ++ natLe 1 c.part ++ natLe 2 c.arg ++ natLe 3 c.op ++ natLe 1 c.seq

/-- CRUMB_STAT and word j of CRUMBe of the selected ring (R601). -/
def crumbStat (s : State) : Nat := match crumbSel s with | some k => (crumbsOf s k).length + 256 | none => 0
def crumbWord (s : State) (e j : Nat) : Nat :=
  match (crumbSel s).bind (fun k => (crumbsOf s k)[e]?) with
  | some c => leAt (crumbBytes c) (4 * j) 4
  | none => 0

/-! ## Scan -/

/-- Select a chain: its shift begins anew (R598). -/
def scanSelect (s : State) (c : Nat) : State := setDbg s { s.dbg with chain := c % 256, shift := 0 }

/-- A write of SCAN_CTL (R598). -/
def scanCtl (s : State) (v : Nat) : State :=
  let s1 := setRegN s (db 0xC00) (v % 512)
  if bitOf v 8 || v % 256 != s.dbg.chain then scanSelect s1 v else s1

/-- Length of the selected chain. -/
def scanLen (s : State) : Nat := Config.chainLen s.dbg.chain % 2 ^ 32

/-- The next n bits of the selected chain: zeros outside a stop and of the chains of SEC and OTP (R598). -/
def scanBits (s : State) (n : Nat) : Nat × State :=
  if !isStopped s then (0, s)
  else
    let s1 := setDbg s { s.dbg with shift := (s.dbg.shift + n) % max 1 (scanLen s) }
    if Config.keyChain s.dbg.chain then (0, s1) else (freeVal s1 % 2 ^ n, drawn s1)

/-! ## JTAG -/

/-- The low n bits of a number, least significant first. -/
def bitsOf (n v : Nat) : List Bool := (List.range n).map (bitOf v)

/-- A number from bits, least significant first. -/
def ofBits (l : List Bool) : Nat := l.foldr (fun b v => b2n b + 2 * v) 0

/-- Shift bits through a register that holds others: what leaves it, and what it holds afterwards. -/
def shiftThrough (held bits : List Bool) : List Bool × List Bool :=
  ((held ++ bits).take bits.length, (held ++ bits).drop bits.length)

/-- Set what TDO showed. -/
def setTdo (s : State) (l : List Bool) : State := setDbg s { s.dbg with tdo := l }

/-- BYPASS: one bit that captures 0 (R597, IEEE 1149.1). -/
def bypassAct (s : State) (bits : List Bool) : State :=
  let t := setTdo s (shiftThrough [false] bits).1
  setDbg t { t.dbg with extest := false }

/-- IDCODE of the part (R597). -/
def idcodeOf (s : State) : Nat :=
  if leNat (otpRead s 8 2) = 0x4864 then 0x148641D7 else if leNat (otpRead s 8 2) = 0x2448 then 0x124481D7 else 0x148961D7

/-- IDCODE. -/
def idcodeAct (s : State) (bits : List Bool) : State :=
  let t := setTdo s (shiftThrough (bitsOf 32 (idcodeOf s)) bits).1
  setDbg t { t.dbg with extest := false }

/-- Is JTAG open: the fuse JTAG_EN of the OTP (R597, R624). -/
def jtagOpen (s : State) : Bool := bitOf s.boot.fuses 32

/-- An instruction that behaves as BYPASS while JTAG_EN reads 0 (R597). -/
def jtagOr (s : State) (bits : List Bool) (f : State → State) : State := if jtagOpen s then f s else bypassAct s bits

/-- SAMPLE/PRELOAD: the pins are captured and the cells loaded (R597). -/
def sampleAct (s : State) (pins bits : List Bool) : State :=
  jtagOr s bits (fun t => setDbg t { t.dbg with tdo := (shiftThrough pins bits).1, boundary := (shiftThrough pins bits).2, extest := false })

/-- EXTEST: the cells drive the pins, the pins are captured and the cells loaded (R597). -/
def extestAct (s : State) (pins bits : List Bool) : State :=
  jtagOr s bits (fun t => setDbg t { t.dbg with
    tdo := (shiftThrough pins bits).1, boundary := (shiftThrough pins bits).2, pins := (shiftThrough pins bits).2, extest := true })

/-- GSTOP (R593, R597). -/
def gstopAct (s : State) : State := if jtagOpen s then takeStop s 2 else s

/-- SCAN_SEL (R598). -/
def scanSelAct (s : State) (bits : List Bool) : State :=
  jtagOr s bits (fun t => scanSelect (setTdo t (shiftThrough (bitsOf 8 t.dbg.chain) bits).1) (ofBits (shiftThrough (bitsOf 8 t.dbg.chain) bits).2))

/-- SCAN_DR (R598). -/
def scanDrAct (s : State) (bits : List Bool) : State :=
  jtagOr s bits (fun t => let (v, u) := scanBits t bits.length; setTdo u (bitsOf bits.length v))

end Sys2Proof.Machine
end

