-- ==== Sys2Proof/Machine/Itrace.lean ====
section
/-! DEFINITION. The instruction-trace encoder of a core: RISC-V E-Trace version 2.0 as R584 restricts it; field widths are PRESUMED (log entry 31). -/

namespace Sys2Proof.Machine
open Sys2Proof

/-- The encoder of a core. -/
def itrAt (s : State) (u : Nat) : Itrace := tget (fun _ => ({} : Itrace)) s.dbg.itrace u
def setItr (s : State) (u : Nat) (e : Itrace) : State := setDbg s { s.dbg with itrace := tset (fun _ => {}) s.dbg.itrace u e }

/-- Is the core traced: ITRACE_EN (R601). -/
def itraceOn (s : State) (u : Nat) : Bool := bitOf (regN s (db 0x130)) u

/-- The next packet of a core is a synchronisation: at task start and at every resumption (R584). -/
def itraceSync (s : State) (u : Nat) : State := setItr s u {}

/-- A packet's fields, width and value from the least significant bit on, as a number and its width. -/
def packFields (l : List (Nat × Nat)) : Nat × Nat :=
  l.foldl (fun (a : Nat × Nat) f => (a.1 + f.2 % 2 ^ f.1 * 2 ^ a.2, a.2 + f.1)) (0, 0)

/-- Bytes from the most significant on without those that repeat the sign of the one below. -/
def dropSign : List Byte → List Byte
  | [] => []
  | [b] => [b]
  | b :: c :: r => if (b == 0 && decide (c.toNat < 128)) || (b == 0xFF && decide (128 ≤ c.toNat)) then dropSign (c :: r) else b :: c :: r

/-- The bytes of a packet, sign-compressed, with its length in front (R585). -/
def packetBytes (l : List (Nat × Nat)) : List Byte :=
  let (v, n) := packFields l
  let full := natLe (ceilDiv n 8) (if n % 8 != 0 && bitOf v (n - 1) then v + (2 ^ (roundUp n 8) - 2 ^ n) else v)
  let b := (dropSign full.reverse).reverse
  natLe 1 b.length ++ b

/-- One packet, in a record of its own (R585, log entry 31). -/
def sendPacket (s : State) (u : Nat) (l : List (Nat × Nat)) : State :=
  let x := cx s u
  let t := emit s ⟨s.time, 0x20, (cntAt s .nc u).isPartial, u, blkCode .nc, x.flow, fld x.ids 24 16, fld x.ids 0 24, fld x.ids 40 8, x.task.seq.toNat, 0, 0,
    x.part, packetBytes l⟩
  setItr t u { itrAt t u with pkts := (itrAt t u).pkts + 1 }

/-- Bits a branch map of n branches takes. -/
def mapBits (n : Nat) : Nat := if n = 0 then 0 else if n = 1 then 1 else if n ≤ 3 then 3 else if n ≤ 7 then 7 else if n ≤ 15 then 15 else 31

/-- An address reported as a difference, in format 1 or, with no branch to report, format 2. -/
def sendAddress (s : State) (u pc : Nat) : State :=
  let e := itrAt s u
  let d := trunc (((pc / 2 : Nat) : Int) - (e.addr / 2 : Nat)) 47
  let tail := List.replicate 3 (1, d / 2 ^ 46)
  let l := (if e.n = 0 then [(2, 2)] else [(2, 1), (5, e.n), (mapBits e.n, e.map)]) ++ [(47, d)] ++ tail
  let t := sendPacket s u l
  setItr t u { itrAt t u with addr := pc, map := 0, n := 0, jump := false }

/-- A synchronisation packet: format 3, subformat 0. -/
def sendSync (s : State) (u pc : Nat) (taken : Bool) : State :=
  let t := sendPacket s u [(2, 3), (2, 0), (1, b2n (!taken)), (2, 0), (16, (cx s u).flow), (47, pc / 2)]
  setItr t u { addr := pc }

/-- A trap packet: format 3, subformat 1, with the exception code and tval. -/
def sendTrap (s : State) (u pc : Nat) : State :=
  sendPacket s u [(2, 3), (2, 1), (1, 1), (2, 0), (16, (cx s u).flow), (6, regN s (ncPg u + 0x188)), (1, 0), (1, 0), (47, pc / 2),
    (64, reg64 s (ncPg u + 0x198) (ncPg u + 0x19C))]

/-- A support packet: format 3, subformat 3; tracing of the task has ended and its last instruction was reported. -/
def sendEnd (s : State) (u : Nat) : State := sendPacket s u [(2, 3), (2, 3), (1, 1), (1, 0), (2, 1), (5, 0)]

/-- Is an instruction a conditional branch; is its target one that the code does not tell. -/
def isBranch (w n : Nat) : Bool := if n = 4 then fld w 0 7 == 0x63 else w % 4 == 1 && decide (6 ≤ fld w 13 3)
def isIndirect (w n : Nat) : Bool :=
  if n = 4 then fld w 0 7 == 0x67 && fld w 15 5 != 0 else w % 4 == 2 && fld w 13 3 == 4 && fld w 2 5 == 0 && fld w 7 5 != 0

/-- Encode a retired instruction at pc, whose successor is `next`. -/
def encode1 (s : State) (u w n pc next : Nat) : State :=
  let e := itrAt s u
  let taken := next != pc + n
  let s1 :=
    if e.sync then sendSync s u pc (isBranch w n && taken)
    else
      let e1 := if isBranch w n then { e with map := e.map + b2n (!taken) * 2 ^ e.n, n := e.n + 1 } else e
      let t := setItr s u e1
      if e.jump || decide (1024 ≤ e.pkts) then sendAddress t u pc
      else if e1.n = 31 then
        let r := sendPacket t u [(2, 1), (5, 0), (31, e1.map)]
        setItr r u { itrAt r u with map := 0, n := 0 }
      else t
  let f := itrAt s1 u
  setItr s1 u { f with jump := isIndirect w n, sync := decide (1024 ≤ f.pkts), pkts := if 1024 ≤ f.pkts then 0 else f.pkts }

/-- Encode what an instruction did: `s` before it, `t` after (R584). -/
def itraceStep (u : Nat) (s t : State) : State :=
  if !itraceOn s u || !ncActive s u then t
  else
    let pc := (cx s u).pc.toNat
    let gone := (cx t u).kill.isSome
    let t1 := if (cx t u).instret != (cx s u).instret then
        match fetchInsn u s with
        | (.ok (w, n), _) => encode1 t u w n pc (cx t u).pc.toNat
        | _ => t
      else t
    if !gone then t1
    else
      let t2 := if (itrAt t1 u).n != 0 || (itrAt t1 u).addr != pc then sendAddress t1 u pc else t1
      sendEnd (if (cx t u).kill == some 0x0702 && (cx t u).instret == (cx s u).instret then sendTrap t2 u pc else t2) u

/-- An instruction's row, traced. -/
def traced (u : Nat) (f : State → State) (s : State) : State := itraceStep u s (f s)

end Sys2Proof.Machine
end

