-- ==== Sys2Proof/Machine/Registers.lean ====
section
/-! DEFINITION. Register pages as an accessor sees them: which pages are present, who may read a register, and what every register reads (R2 to R5, R13 to R16, R25 to R27, R66, R75, R90). -/

namespace Sys2Proof.Machine
open Sys2Proof

/-! ## Views of a page -/

/-- How a page answers an accessor: not at all, as absent, refusing, or as a page. -/
inductive View
  | absent
  | denied
  | shown
  deriving DecidableEq, Repr

/-- The function an access comes through; firmware is taken as function 0. -/
def whoFn : Who → Nat := whoPart

/-- May an accessor act at firmware level (R25). -/
def isFw : Who → Bool
  | .fw => true
  | .pf _ => false

/-- Pages readable in MGMT_ONLY (R617). -/
def mgmtPage : Blk → Bool
  | .sys | .boot | .otp | .sec | .pwr => true
  | _ => false

/-- Pages that are host-privileged as a whole: firmware-owned pages, DBG, NOC, scalar-debug pages, and pages 0 and 1 of the transport
(R16, R348, R478, R512, R601). -/
def hostPage (l : Loc) : Bool :=
  match l.blk with
  | .dbg | .noc | .ncd => true
  | .rolv => decide (l.off < 0x2000)
  | b => blkClass b == .firmware

/-- How a page answers an accessor (R4, R26, R27, R75, R512, R603, R617). -/
def viewOf (s : State) (who : Who) (l : Loc) : View :=
  if !present s l.blk l.inst || (l.blk == .rolv && !anyFab s) then .absent
  else if l.blk == .cmdw && bootState s != 2 then .absent
  else if bootState s == 3 && (!mgmtPage l.blk || !isHost who) then .absent
  else if isHost who then .shown
  else if hostPage l then (if blkClass l.blk == .assignable && owner s l.blk l.inst != whoFn who then .absent else .denied)
  else match blkClass l.blk with
    | .assignable => if owner s l.blk l.inst == whoFn who then .shown else .absent
    | .window => if l.inst == whoFn who then .shown else .absent
    | _ => .shown

/-! ## Levels -/

/-- The partition that owns the barrier group a function shows, if it is valid (R512). -/
def groupShown (s : State) (fn : Nat) : Nat := regN s (0x400_0000 * fn + rv 0x2100) % 256

/-- Owner of a barrier group as written; a group not valid belongs to none (R502, R512). -/
def groupOwner (s : State) (g : Nat) : Option Nat := if bgValid s g then some (bgOwner s g) else none

/-- The partition whose register this is, where only its own accessors reach it; none where the page decides. -/
def lvlPart (s : State) (fn : Nat) (l : Lvl) (k : Nat) : Option (Option Nat) :=
  match l with
  | .own => some (some k)
  | .fix p => some (some p)
  | .chan => some (movOwner s (.ch k))
  | .grp => some (groupOwner s (groupShown s fn))
  | .part | .host | .fw => none

/-- May an accessor read a register of a page shown to it (R16, R25, R90). -/
def mayRead (s : State) (who : Who) (l : Lvl) (k : Nat) : Bool :=
  isHost who || (match l with
    | .host | .fw => false
    | .part => true
    | _ => lvlPart s (whoFn who) l k == some (some (whoFn who)))

/-! ## The header -/

/-- Offset of a header register within its page, or none (R66). On page 3 of the transport the registers of partition 0 stand in the first 24
bytes instead (R512; log entry 32). -/
def headerOff (l : Loc) : Option Nat :=
  if l.off % 0x1000 < 0x28 ∧ ¬(l.blk = .rolv ∧ 0x3000 ≤ l.off ∧ l.off < 0x3018) then some (l.off % 0x1000) else none

/-- Bits of BLK_IRQ_STAT or BLK_ERR_STAT that an accessor sees: through PFn, causes of DMA channels it does not own read 0 (R456). -/
def causeMask (s : State) (who : Who) (b : Blk) : Nat :=
  if b == .dma && !isHost who then
    (List.range 32).foldl (fun m i => if 8 ≤ i ∧ i < 10 ∧ tget (fun _ => 0) s.irqCtx (pg .dma 0 * 32 + i) != whoFn who + 1 then m else m + 2 ^ i) 0
  else 2 ^ 32 - 1

/-- What a header register reads on a page that is shown (R66). -/
def headRead (s : State) (who : Who) (b : Blk) (n o : Nat) : Nat :=
  match o with
  | 0x00 => blkId b n
  | 0x04 => blkCap s b n
  | 0x08 => regN s (pg (headBlk b) n + 0x08)
  | 0x0C => blkStat s b n
  | 0x10 => regN s (pg b n + 0x10) &&& causeMask s who b
  | 0x14 => regN s (pg b n + 0x14)
  | 0x18 => regN s (pg b n + 0x18)
  | 0x20 => b2n (s.commits.contains (pg (headBlk b) n))
  | 0x24 => if blkClass b == .assignable then owner s b n else 0
  | _ => 0

/-! ## Registers that show other state -/

/-- Word i of a byte list. -/
def wordAt (b : List Byte) (i : Nat) : Nat := leAt b (4 * i) 4

/-- Low half, high half of a 64-bit value. -/
def half (v : Nat) (hi : Bool) : Nat := if hi then v / 2 ^ 32 % 2 ^ 32 else v % 2 ^ 32

/-- Set-window registers of the Feature Match Store for a function (R308). -/
def fmsRead (s : State) (who : Who) (o : Nat) : Nat :=
  let c := 0x400_0000 * whoFn who
  let m := regN s (c + fmsPg + 0x100) % 256
  let v := curVer s m
  let show_ := fun (x : Nat) => if isHost who || ownsSet s (whoFn who) m then x else 0
  match o with
  | 0x104 => show_ v.base
  | 0x108 => show_ v.count
  | 0x10C => show_ (tget (fun _ => 0) s.fms.gen m)
  | 0x110 => show_ (half v.digest false)
  | 0x118 => show_ (tget (fun _ => 0) s.fms.own m)
  | 0x11C => show_ (b2n (s.fms.loads.any (fun l => l.set == m && !l.deferred)) + 2 * b2n (s.fms.loads.any (fun l => l.set == m && l.deferred)) +
      256 * min 255 (retiring s m).length)
  | _ => regN s (c + fmsPg + o)

/-- The stream that STREAM_SEL of an engine's page shows (R455). -/
def streamShown (s : State) (b : Blk) (n : Nat) : Mov :=
  let k := regN s (pg b n + 0x10C)
  movAt s (if b == .ncse then 16 * n + k % 16 else 128 + 32 * n + k % 32)

/-- STREAM_STAT to FLT_INFO (R455). -/
def streamRead (v : Mov) (o : Nat) : Nat :=
  let c := v.active.getD { part := 0 }
  match o with
  | 0x110 => b2n v.active.isSome + 2 * b2n v.shadow.isSome + 4 * b2n v.halted + 8 * b2n v.final + 256 * (v.cause % 256) +
      2 ^ 16 * (if v.active.isSome then c.flow % 2 ^ 16 else 0)
  | 0x114 => v.pair % 2 ^ 16
  | 0x118 => v.elem % 2 ^ 32
  | 0x11C => half v.fltAddr false
  | 0x120 => half v.fltAddr true
  | _ => v.fltInfo

/-- Channel registers (R456). -/
def chanRead (s : State) (c o : Nat) : Nat :=
  let v := movAt s (256 + c)
  match o with
  | 0x08 => b2n v.active.isSome + 2 * b2n v.shadow.isSome + 4 * b2n v.halted + 8 * b2n v.final + 16 * b2n ((slotHolders s).contains (256 + c)) +
      32 * b2n v.reqWait + 256 * (v.cause % 256) + 2 ^ 16 * (v.retries % 8)
  | 0x0C => v.pair % 2 ^ 16
  | 0x10 => v.elem % 2 ^ 32
  | 0x14 => half v.fltAddr false
  | 0x18 => half v.fltAddr true
  | _ => regN s (pg .dma 0 + 0x200 + 0x20 * c + o)

/-- LADLE_STAT and ABORT_SEQ (R457). -/
def ladleRead_ (s : State) (n o : Nat) : Nat :=
  let l := ladleAt s n
  if o = 0x100 then l.q.length % 128 + 2 ^ 16 * b2n l.bound.isSome + 2 ^ 17 * b2n (!l.aborted.isEmpty) + 2 ^ 24 * (l.bound.getD 0 % 256)
  else (l.aborted.getLast?.getD 0) % 2 ^ 31

/-- Sequencer entries in use by a partition (R91, R92, R132). -/
def fgsUse (s : State) (p o : Nat) : Nat :=
  if o = 0 then tableUse s (some p) (fun im => im.flows.length) % 2 ^ 11 + 2 ^ 16 * (tableUse s (some p) (fun im => im.nodes.length) % 2 ^ 13)
  else tableUse s (some p) (fun im => im.tasks.length) % 2 ^ 15 + 2 ^ 16 * (tableUse s (some p) (fun _ => 1) % 2 ^ 9)

/-- Repair entry e of the bank shown: position and VALID (R397, R402). -/
def repairShown (s : State) (n : Nat) : List Repair :=
  s.boot.repair.filter (fun r => r.core == n && r.bank == regN s (spc n + 0x200) % 64)

/-- The context of a core that the scalar debug page shows after a global stop (R348). -/
def ncdRead (s : State) (n o : Nat) : Nat :=
  if !isStopped s then 0
  else match (coreAt s n).ctx with
    | none => 0
    | some x =>
      if o < 0x200 then half x.pc.toNat (o == 0x104)
      else half (xr s n ((o - 0x200) / 8)).toNat (o % 8 == 4)

/-- The age slot and the dual flow the SAFE page shows (R528, R546). -/
def safeRead (s : State) (o : Nat) : Nat :=
  let a := ageAt s (regN s (safePg + 0x300) % 256)
  let d : DualFlow := tget (fun _ => {}) s.safe.dual (regN s (safePg + 0x340) % 64)
  match o with
  | 0x104 => (regN s (safePg + 0x104) &&& 0x3FF07) + 8 * b2n s.safe.hbOn
  | 0x140 => s.safe.faults.length
  | 0x304 => a.flowId % 2 ^ 16 + 2 ^ 16 * (a.part % 4) + 2 ^ 31 * b2n a.valid
  | 0x308 => a.bound
  | 0x30C => a.worst
  | 0x310 => a.stale
  | 0x344 => d.flowId % 2 ^ 16 + 2 ^ 31 * b2n d.valid
  | 0x348 => d.count
  | 0x34C => (d.times.filter (fun t => decide (s.time.toNat < t.toNat + 1000000000))).length % 4
  | _ =>
    if 0x160 ≤ o ∧ o < 0x180 then (match s.safe.faults.head? with | some r => wordAt (faultBytes r) ((o - 0x160) / 4) | none => 0)
    else if 0x280 ≤ o ∧ o < 0x2E8 then
      (match tasterUnits[(o - 0x280) / 4]? with
        | some (b, n) => (regN s (safePg + o) &&& 0xFFFF0001) + 2 * b2n (unitAt s b n).quarantined + 4 * b2n (present s b n)
        | none => 0)
    else regN s (safePg + o)

/-- Registers of the PWR page (R572). -/
def pwrRead (s : State) (o : Nat) : Nat :=
  let e : Phase := tget (fun _ => {}) s.pwr.phases (regN s (pw 0x300) % 64)
  match o with
  | 0x104 => oppStat s
  | 0x304 => trunc e.mean 32
  | 0x308 => trunc e.peak 32
  | 0x30C => e.dur % 2 ^ 32
  | 0x310 => e.count % 2 ^ 32
  | 0x314 => e.pref
  | 0x824 => half (s.pwr.energy / 1000) false
  | _ => regN s (pw o)

/-- Registers of the DBG page (R601). -/
def dbgRead (s : State) (o : Nat) : Nat :=
  if o = 0x104 then b2n (frozen s) + 2 * b2n (match s.dbg.freezeAt with | some (t, _) => decide (s.time.toNat < t.toNat) | none => false)
  else if o = 0x304 then crumbStat s
  else if 0x400 ≤ o ∧ o < 0x800 then (if injArmed s .dbg 0 0 then 2 ^ 32 - 1 else crumbWord s ((o - 0x400) / 16) (o % 16 / 4))
  else if o = 0xC04 then scanLen s
  else regN s (db o)

/-- Barrier-group window of page 2 (R512). -/
def rolvRead (s : State) (who : Who) (o : Nat) : Nat :=
  let g := groupShown s (whoFn who)
  match o with
  | 0x2100 => g
  | 0x2104 => regN s (bg g 0)
  | 0x2108 => regN s (bg g 1)
  | 0x210C => regN s (bg g 2)
  | 0x2110 => regN s (bg g 3)
  | _ => regN s (rv o)

/-- SYS_REX_STAT (R39). -/
def rexStat (s : State) : Nat := 0x100 + 2 * b2n (s.commits.contains (pg .sys 0)) + b2n (rexActive s)

/-- SETTINGS_NOW: the bundle in effect for the frame that comes next (R162, R172). -/
def settingsNow (s : State) (n : Nat) : Nat :=
  settingsFor s n (match (camsAt s n).prev with | some q => q + 1 | none => 0) % 2 ^ 16

/-- The value of a register that its level lets the accessor read. -/
def shownRead (s : State) (who : Who) (l : Loc) (k : Nat) : Nat :=
  let o := l.off
  let raw := regN s (pg l.blk l.inst + o)
  match l.blk with
  | .sys => if o = 0x184 then rexStat s else raw
  | .cmdw => if o = 0x148 then outstanding s l.inst else if o = 0x174 then cplStat s l.inst else raw
  | .cams => if o = 0x138 then settingsNow s l.inst else raw
  | .sctl =>
    if o = 0x15C then (raw &&& 0x100) + (sctlAt s l.inst).queue.length
    else if 4 ≤ l.inst ∧ 0x1A0 ≤ o ∧ o < 0x1C0 then 0 else raw
  | .fms => if o < 0x180 then fmsRead s who o else if 0x190 ≤ o ∧ o < 0x1A0 then fmsUse s k else raw
  | .ncd => ncdRead s l.inst o
  | .spc =>
    if o = 0x204 then (repairShown s l.inst).length
    else if 0x240 ≤ o ∧ o < 0x280 then (match (repairShown s l.inst).find? (fun r => r.spare == k) with | some r => r.pos + 2 ^ 15 | none => 0)
    else raw
  | .ncse | .vse => if 0x110 ≤ o ∧ o < 0x128 then streamRead (streamShown s l.blk l.inst) o else raw
  | .dma => if o = 0x180 then (slotHolders s).length else if 0x200 ≤ o ∧ o < 0x600 then chanRead s k ((o - 0x200) % 0x20) else raw
  | .ladle => if o < 0x800 then ladleRead_ s l.inst o else raw
  | .fgs => if 0x160 ≤ o ∧ o < 0x180 then fgsUse s k (o % 8) else raw
  | .hbm =>
    let q := tget (fun _ => ([] : List (List Byte))) s.hbmRec l.inst
    let t := Config.hbmTemp l.inst s.time.toNat % 256
    if o = 0x140 then t + 256 * b2n (bitOf (app s (pg .hbm l.inst + 0x100)) 1 && decide (85 < t))
    else if o = 0x180 then q.length else if 0x1A0 ≤ o ∧ o < 0x1C0 then wordAt (q.head?.getD []) ((o - 0x1A0) / 4) else raw
  | .rolv => rolvRead s who o
  | .safe => safeRead s o
  | .pwr => pwrRead s o
  | .dbg => dbgRead s o
  | .otp => if o = 0x104 then otpData s else raw
  | .sec => if 0x140 ≤ o ∧ o < 0x160 then wordAt (idPub s) ((o - 0x140) / 4)
    else if 0x180 ≤ o ∧ o < 0x1C0 then wordAt s.boot.digest ((o - 0x180) / 4) else raw
  | _ => raw

/-- Is an offset of BAR0 in the MSI-X table or pending-bit array (R70). -/
def isMsix (a : Nat) : Bool := (decide (0x0E_0000 ≤ a) && decide (a < 0x0E_0400)) || (decide (0x0F_0000 ≤ a) && decide (a < 0x0F_0008))

/-- What a page that refuses an accessor reads: BLK_ID at all times (R66), and the whole header of a scalar-debug page (R348; log entry 117). -/
def deniedRead (s : State) (who : Who) (l : Loc) : Nat :=
  match headerOff l with
  | some o => if o = 0 ∨ l.blk = .ncd then headRead s who l.blk l.inst o else 0
  | none => 0

/-- What a 32-bit read of BAR0 offset a answers (R4, R13, R16, R66, R70). During reset the link is down and a read has no answer. -/
def regRead (s : State) (who : Who) (a : Nat) : Nat :=
  if s.boot.inReset then 2 ^ 32 - 1
  else match locate a with
  | none => if isMsix a then regN s (0x400_0000 * whoFn who + a) else 0
  | some l => match viewOf s who l with
    | .shown => match headerOff l with
      | some o => headRead s who l.blk l.inst o
      | none => match rowAt l with
        | some (r, k) => if r.acc == .wo || !mayRead s who r.r k then 0 else shownRead s who l k
        | none => 0
    | .denied => deniedRead s who l
    | .absent => 0

/-- Answer a read: the value goes out as four bytes. -/
def answered (s : State) (v : Nat) : State := { s with rdata := natLe 4 v }

end Sys2Proof.Machine
end

