-- ==== Sys2Proof/Machine/Bus.lean ====
section
/-! DEFINITION. Writes of registers: header, shadow and commit, soft reset, ownership, injections, rings, and what each block's control registers do (R13 to R16, R28, R48, R66 to R77, R84, R87, R90, R526, R652). -/

namespace Sys2Proof.Machine
open Sys2Proof

/-! ## Who may write -/

/-- The answer to a write: done, ignored in silence, or ignored with NO_PERMISSION. -/
inductive Admit
  | ok
  | silent
  | refuse
  deriving DecidableEq, Repr

/-- Is a page, seen through PF0, one of another partition: an assignable instance of D1 to D3 or their command window (R75, R90). -/
def foreign (s : State) (who : Who) (l : Loc) : Bool :=
  match who with
  | .fw => false
  | .pf f => f == 0 && (match blkClass l.blk with
    | .assignable => owner s l.blk l.inst != 0
    | .window => l.inst != 0
    | _ => false)

/-- May an accessor write a register of a level on a page shown to it (R16, R25, R90, R512). -/
def mayWrite (s : State) (who : Who) (l : Loc) (w : Lvl) (k : Nat) : Admit :=
  match who with
  | .fw => .ok
  | .pf f =>
    match w with
    | .fw => .refuse
    | .host => if f = 0 then .ok else .refuse
    | .part => if foreign s who l then .refuse else .ok
    | .grp => if f = 0 || groupOwner s (groupShown s f) == some f then .ok else .silent
    | _ =>
      match lvlPart s f w k with
      | some (some q) => if q = f then .ok else if f = 0 then .refuse else .silent
      | _ => .silent

/-- Carry out a write that is admitted. -/
def admitted (s : State) (who : Who) (a : Admit) (f : State → State) : State :=
  match a with
  | .ok => f s
  | .silent => s
  | .refuse => noPerm s (whoPart who)

/-! ## Interrupt causes and enables -/

/-- Write 1 to clear of BLK_IRQ_STAT: a bit cleared forgets its context (R67, R87). -/
def irqClear (s : State) (b : Blk) (n v : Nat) : State :=
  let s1 := clrReg s (pg b n + 0x10) v
  forAll ((List.range 32).filter (bitOf v)) (fun i t => { t with irqCtx := tset (fun _ => 0) t.irqCtx (pg b n * 32 + i) 0 }) s1

/-- Write of BLK_IRQ_EN: an enable that becomes 1 over a bit that reads 1 sends a message (R67, R87). -/
def irqEnable (s : State) (b : Blk) (n v : Nat) : State :=
  let old := regN s (pg b n + 0x14)
  let s1 := setRegN s (pg b n + 0x14) (v &&& irqBits b)
  forAll ((List.range 32).filter (fun i => bitOf (v &&& irqBits b) i && !bitOf old i && bitOf (regN s (pg b n + 0x10)) i))
    (fun i t => deliver t (irqDest t b n i) b) s1

/-- Write of IRQ_ROUTE: MASK that becomes 0 sends a message for every enabled bit of the type that reads 1 and goes to the partition (R87). -/
def routeWrite (s : State) (p t v : Nat) : State :=
  let a := pg .cmdw p + 0x400 + 4 * t
  let old := regN s a
  let s1 := setRegN s a (v &&& 0x13F)
  match blkOfCode t with
  | some b =>
    if bitOf old 8 && !bitOf v 8 then
      forAll (presentList s b) (fun n u =>
        forAll ((List.range 32).filter (fun i => bitOf (regN s (pg b n + 0x10) &&& regN s (pg b n + 0x14)) i && irqDest s b n i == p))
          (fun _ x => deliver x p b) u) s1
    else s1
  | none => s1

/-- Write of the MSI-X table of a function: a vector unmasked with its pending bit set sends its message (R62, R70). -/
def msixWrite (s : State) (fn a : Nat) (v : Word) : State :=
  if a < 0x0E_0400 then
    let vec := (a - 0x0E_0000) / 16
    let w := if a % 16 = 0 then v &&& ~~~3 else if a % 16 = 12 then v &&& 1 else v
    let s1 := setReg s (0x400_0000 * fn + a) w
    if a % 16 = 12 ∧ w = 0 ∧ bitOf (regN s1 (msixPba fn vec)) (vec % 32) then
      sendMsi (clrReg s1 (msixPba fn vec) (2 ^ (vec % 32))) fn vec
    else s1
  else s

/-! ## Ring configuration -/

/-- A LOG2 field as it takes effect: values outside its range read back as 0. -/
def log2In (lo hi v : Nat) : Nat := if lo ≤ v % 32 ∧ v % 32 ≤ hi then v % 32 else 0

/-- Frame-drop log registers of a partition (R43, R47, R48, R652): offset within the partition's group. -/
def dlogReg (s : State) (p o : Nat) (v : Word) : State :=
  if o = 0x10 then
    if rdIdxOk s (dl p + 0xC) (dl p + 8) v then
      let t := setReg s (dl p + 0x10) v
      if (dlogAt t p).fault then dlogRetry t p else dlogOwed t p
    else s
  else if partStarted s p || (dlogAt s p).lost != 0 || (dlogAt s p).fault then rexViol s 4
  else if o = 8 then setDlog (setRegN (setRegN (setRegN s (dl p + 8) (log2In 7 20 v.toNat)) (dl p + 0xC) 0) (dl p + 0x10) 0) p {}
  else setDlog (setReg s (dl p + o) v) p {}

/-- Completion log registers of a partition (R83, R84, R652). -/
def cplReg (s : State) (p o : Nat) (v : Word) : State :=
  if o = 0x160 then (if rdIdxOk s (cw p + 0x15C) (cw p + 0x158) v then cplRetry (setReg s (cw p + 0x160) v) p else s)
  else if outstanding s p != 0 || partStarted s p || cplHeld s p then raiseErr s .cmdw p 11 none
  else if o = 0x158 then writeBack (setRegN (setRegN (setRegN s (cw p + 0x158) (log2In 8 20 v.toNat)) (cw p + 0x15C) 0) (cw p + 0x160) 0) p
  else setReg s (cw p + o) v

/-- Verdict ring registers (R525, R526, R652). -/
def vrReg (s : State) (o : Nat) (v : Word) : State :=
  if o = 0x130 then (if rdIdxOk s (safePg + 0x12C) (safePg + 0x128) v then vRetry (setReg s (safePg + 0x130) v) else s)
  else if partStarted s 0 || !s.safe.vheld.isEmpty then raiseErr s .safe 0 10 none
  else if o = 0x128 then
    let t := setRegN (setRegN (setRegN s (safePg + 0x128) (log2In 8 20 v.toNat)) (safePg + 0x12C) 0) (safePg + 0x130) 0
    { t with safe := { t.safe with vcount := 0, vfault := false } }
  else setReg s (safePg + o) v

/-- Sink registers (R586, R587, R652): sink k, offset within its group. -/
def sinkReg (s : State) (k o : Nat) (v : Word) : State :=
  if o = 8 then setRegN (setRegN (setRegN s (sk k + 8) (log2In 10 24 v.toNat)) (sk k + 0x14) 0) (sk k + 0x18) 0
  else if o = 0x18 then (if rdIdxOk s (sk k + 0x14) (sk k + 8) v then sinkOwed (setReg s (sk k + 0x18) v) k else s)
  else if o = 0xC then sinkCfg s k v
  else setReg s (sk k + o) v

/-- Discovery ring registers (R495, R652). -/
def discReg (s : State) (o : Nat) (v : Word) : State :=
  if o = 0x148 then setRegN (setRegN (setRegN s (rv 0x148) (log2In 6 16 v.toNat)) (rv 0x14C) 0) (rv 0x150) 0
  else if rdIdxOk s (rv 0x14C) (rv 0x148) v then setReg s (rv 0x150) v
  else s

/-! ## Soft reset -/

/-- RW and RWS registers of one page of an instance, contexts of the functions and windowed groups among them. -/
def resetList (b : Blk) (n : Nat) : List Nat :=
  (rwOffsets (blkRows b)).map (fun o => pg b n + o) ++
  (match b with
    | .fms => [1, 2, 3].flatMap (fun f => [0x100, 0x140, 0x144, 0x148].map (fun o => 0x400_0000 * f + fmsPg + o))
    | .rolv => (List.range 256).flatMap (fun g => [bg g 0, bg g 1, bg g 2]) ++ [1, 2, 3].map (fun f => 0x400_0000 * f + rv 0x2100)
    | _ => [])

/-- Ring indices that a reset of their configuration sets to 0 (R48, R84, R526). -/
def resetIndices : Blk → Nat → List Nat
  | .sys, _ => (List.range 4).map (fun p => dl p + 0xC)
  | .cmdw, p => [cw p + 0x15C]
  | .safe, _ => [safePg + 0x12C]
  | .dbg, _ => (List.range 4).map (fun k => sk k + 0x14)
  | .rolv, _ => [rv 0x14C]
  | _, _ => []

/-- A pending commit of an instance is over (R71, R74). -/
def commitEnds (s : State) (b : Blk) (n : Nat) : State :=
  let t := { s with commits := s.commits.filter (fun x => x != pg b n) }
  if b = .isp then setTone n 0 t else t

/-- SOFT_RESET of an instance: every RW and RWS field returns to its reset value, shadow and applied, and a pending commit is dropped;
BLK_PART stays (R74). The rings of the instance are then disabled, with their indices at 0 (log entry 118). A halt of a context or replay channel ends with it. -/
def softReset (s : State) (b : Blk) (n : Nat) : State :=
  let l := (pageGroup b).flatMap (fun x => resetList x n ++ resetIndices x n)
  let heads := (pageGroup b).map (fun x => pg x n + 0x14) ++ [pg b n + 0x08]
  let s1 := forAll (l ++ heads) (fun a t => setBoth t a (regRst a)) (commitEnds s b n)
  match b with
  | .sys => lockEnds s1
  | .cams => camsEnable s1 n
  | .rpl => setRpl s1 n {}
  | .sctl => forAll ((List.range 16).filter (fun f => fsyncSctl f == n)) (fun f t => setFsync t f { fsyncAt t f with armed := false }) s1
  | .vtm => { s1 with clearing := s1.clearing.filter (fun x => x != pg .vtm 0) }
  | .fms => { s1 with fms := { s1.fms with own := [] } }
  | .safe => { s1 with safe := { s1.safe with vcount := 0 } }
  | .pwr => { s1 with pwr := { s1.pwr with phases := s1.pwr.phases.map (fun e => (e.1, { e.2 with pref := 0 })) } }
  | _ => s1

/-! ## Ownership -/

/-- Is an instance named by a started graph bound to it (R28, R30). -/
def named (s : State) (b : Blk) (n : Nat) : Bool :=
  s.graphs.any (fun e => isStarted e.2 && e.2.binds.any (fun x => x.1 == blkCode b && x.2.2 == n))

/-- The instances that one write of BLK_PART moves: a core takes its stream engine with it (R26, R66). -/
def partGroup : Blk → List Blk
  | .nc | .ncm | .ncv | .ncd | .spc | .ncse => [.nc, .ncm, .ncv, .ncd, .spc, .ncse]
  | b => [b]

/-- Light and command counters of a page return to 0 (R574). -/
def clearCounts (s : State) (b : Blk) (n : Nat) : State :=
  let gone := fun (a : Nat) => decide (pg b n + 0x800 ≤ a) && decide (a < pg b n + 0x1000)
  setCnt { s with regs := s.regs.filter (fun e => !gone e.1), hi := s.hi.filter (fun e => !gone e.1) } b n {}

/-- Write of BLK_PART (R26, R28, R387, R574). -/
def partWrite (s : State) (b : Blk) (n v : Nat) : State :=
  if blkClass b != .assignable then s
  else if owner s b n = v % 4 then s
  else if (partGroup b).all (fun x => blkIdle s x n && !named s x n) then
    let s1 := forAll (partGroup b) (fun x t => clearCounts t x n) (setRegN s (partAddr b n) (v % 4))
    if (partGroup b).contains .nc then { s1 with clearing := if s1.clearing.contains (pg .spc n) then s1.clearing else s1.clearing ++ [pg .spc n] } else lockEnds s1
  else s

/-- SCRATCHPAD_CLEAR_DONE: the clear of a core's scratchpad after a change of owner ends (R387). -/
def spadClearDone (s : State) (n : Nat) : State :=
  if s.clearing.contains (pg .spc n) then
    let t := spadClear s n
    { t with clearing := t.clearing.filter (fun x => x != pg .spc n) }
  else s

/-! ## Error injection -/

/-- Defined bits of BLK_ERR_INJ. -/
def injBits : Blk → Nat
  | .cams | .isp | .pyr | .warp | .str | .flw | .ftr | .fms | .vtm | .ncm | .ncv | .spc | .ladle => 3
  | .nc | .noc | .fabp | .dbg => 1
  | .ncse | .vse | .dma | .fgs | .hbm | .pwr => 7
  | .safe => 15
  | _ => 0

/-- Write of BLK_ERR_INJ: an injection waits for the event it acts on, or acts at once (R66, R134, R546, R572). -/
def errInj (s : State) (b : Blk) (n v : Nat) : State :=
  let m := v &&& injBits b
  match b with
  | .fgs =>
    let s1 := if bitOf m 0 then raiseErr s .fgs 0 8 none else s
    let s2 := if bitOf m 1 then fault (raiseErr s1 .fgs 0 9 none) 0x30 .fgs 0 else s1
    if bitOf m 2 then fault (raiseErr s2 .fgs 0 10 none) 0x31 .fgs 0 else s2
  | .safe =>
    let s1 := orReg s (pg b n + 0x1C) (m &&& 0xB)
    if bitOf m 2 then lockstepAct s1 else s1
  | .pwr =>
    let s1 := orReg s (pg b n + 0x1C) (m &&& 4)
    let s2 := if bitOf m 0 then
        let t := tripDetectors s1 (sins s1.pwr.tripped 0)
        { t with pwr := { t.pwr with injTrip := some (t.time + 200) } }
      else s1
    if bitOf m 1 then { s2 with pwr := { s2.pwr with injTemp := some (s2.time + 1000000) } } else s2
  | _ => orReg s (pg b n + 0x1C) m

/-! ## Shadow and commit -/

/-- Write of 1 to BLK_COMMIT (R39, R71, R200). -/
def commitWrite (s : State) (b : Blk) (n : Nat) : State :=
  if s.commits.contains (pg b n) then s
  else
    let s1 := { s with commits := s.commits ++ [pg b n] }
    if b = .sys ∧ !(startedGraphs s).isEmpty then rexViol s1 0
    else if b = .isp then toneBegin s1
    else s1

/-- Is an instance at its block boundary (R39, R72, R132, R346, R437). -/
def atBoundary (s : State) (b : Blk) (n : Nat) : Bool :=
  match b with
  | .sys => (startedGraphs s).isEmpty
  | .cams => (camsAt s n).frame.isNone
  | .sctl => (sctlAt s n).bus.isNone
  | .isp | .pyr | .warp | .str | .flw | .ftr | .nc => (unitAt s b n).run.isNone
  | .ncse => moversIdle s (rangeFrom (16 * n) 16)
  | .vse => moversIdle s (rangeFrom (128 + 32 * n) 32)
  | .dma => (rangeFrom 256 32).all (fun k => (movAt s k).descs.isEmpty)
  | .rolv => (List.range 256).all (fun u => (unitAt s .rolv u).run.isNone)
  | .fms => !s.fms.loads.any (·.started)
  | .pwr => false
  | _ => true

/-- The park areas of a core, as its shadow gives one and as applied (R394). -/
def parkSpans (s : State) (n : Nat) : List (Nat × Nat) :=
  [regN s (pg .nc n + 0x100), app s (pg .nc n + 0x100)].filterMap (fun v => if bitOf v 31 then some (v % 2 ^ 17, 2048) else none)

/-- Shares of a stream engine's bandwidth in the shadow (R455). -/
def sharesOk (v : Nat) : Bool :=
  let l := [fld v 0 5, fld v 8 5, fld v 16 5]
  l.all (fun x => decide (1 ≤ x) && decide (x ≤ 14)) && l.foldl (· + ·) 0 == 16

/-- Does a started graph of the owner of a barrier group name the group (R502). -/
def groupNamed (s : State) (g : Nat) : Bool :=
  s.graphs.any (fun e => isStarted e.2 && e.2.part == bgOwner s g && e.2.img.nodes.zipIdx.any (fun x => x.1.utype == blkCode .rolv &&
    (rangeFrom x.1.firstTask x.1.nTask).any (fun i => match remCmdOf s ⟨e.1, 0, 0, x.2, i, 0⟩ with
      | some c => c.op == 1 && c.group == g
      | none => false)))

/-- The commit check of a block's shadow (R71 and the checks of R171 to R173, R208, R346, R394, R400, R455, R466, R473, R502). -/
def commitCheck (s : State) (b : Blk) (n : Nat) : Bool :=
  match b with
  | .camp => campCheck s n
  | .cams => camsCheck s n
  | .sctl => sctlCheck s n
  | .rpl => rplCheck s n
  | .isp => ispCheck s n
  | .nc => decide (regN s (pg .nc n + 0x100) % 2 ^ 17 ≤ 129024) && winCheckCfg s n (parkSpans s n)
  | .ncse | .vse => sharesOk (regN s (pg b n + 0x100))
  | .vtm => vtmCheck s
  | .hbm => decide (((List.range 4).map (fun p => regN s (pg .hbm n + 0x110 + 4 * p))).foldl (· + ·) 0 ≤ 56)
  | .noc => (List.range 4).all (fun p => !partStarted s p ||
      (regN s (nocPg + 0x100 + 8 * p) == app s (nocPg + 0x100 + 8 * p) && regN s (nocPg + 0x104 + 8 * p) == app s (nocPg + 0x104 + 8 * p)))
  | .rolv => (List.range 256).all (fun g => [bg g 0, bg g 1, bg g 2].all (fun a => regN s a == app s a) || !(bgValid s g && groupNamed s g))
  | _ => true

/-- Shadowed registers of one page of an instance. -/
def shadowList (b : Blk) (n : Nat) : List Nat :=
  (rwsOffsets (blkRows b)).map (fun o => pg b n + o) ++
  (match b with
    | .rolv => (List.range 256).flatMap (fun g => [bg g 0, bg g 1, bg g 2])
    | _ => [])

/-- Every shadowed field of an instance applies at once (R71). -/
def applyShadow (s : State) (b : Blk) (n : Nat) : State :=
  forAll ((pageGroup b).flatMap (fun x => shadowList x n)) (fun a t => setApp t a (reg s a)) s

/-- A commit that passed its check completes (R71). -/
def commitDone (s : State) (b : Blk) (n : Nat) : State :=
  crumb (raiseIrq (commitEnds (applyShadow s b n) b n) b n 0 none) (ukey b n) 5 (if blkClass b == .assignable then owner s b n else 0xFF) 0 0 0

/-- A commit reaches its boundary: the check, then it applies or is rejected; regions of the tile memory are cleared first (R71, R400). -/
def commitResolve (s : State) (b : Blk) (n : Nat) : State :=
  if !commitCheck s b n then
    crumb (raiseErr (commitEnds s b n) b n 0 none) (ukey b n) 6 (if blkClass b == .assignable then owner s b n else 0xFF) 0 0 0
  else if b = .vtm ∧ !(granulesIn s).isEmpty then { s with clearing := s.clearing ++ [pg .vtm 0] }
  else if b = .fabp then linksGone n (commitDone s b n)
  else commitDone s b n

/-- Pages that stay accessible in a global stop (R595, R596, R602): BOOT_CTL begins the start that ends it. -/
def openInStop (l : Loc) : Bool :=
  match l.blk with
  | .dbg | .sys | .pwr | .safe => true
  | .boot => l.off == 0x104
  | _ => false

/-- COMMIT_APPLIED: a pending commit at its block's boundary (R71, R72). PWR commits apply at the tick and a held tone commit at a formation. -/
def commitApplied (s : State) (a : Nat) : State :=
  match locate a with
  | none => s
  | some l =>
    let b := headBlk l.blk
    if s.commits.contains (pg b l.inst) && atBoundary s b l.inst && !(b == .isp && commitHeld s l.inst) && !(isStopped s && !openInStop l) &&
      !(b == .vtm && s.clearing.contains (pg .vtm 0)) then commitResolve s b l.inst
    else s

/-- TILE_CLEAR_DONE: the granules that enter a region are cleared and the commit completes (R400). -/
def tileClearDone (s : State) : State :=
  if s.clearing.contains (pg .vtm 0) then
    commitDone (forAll (granulesIn s) granuleClear { s with clearing := s.clearing.filter (fun x => x != pg .vtm 0) }) .vtm 0
  else s

/-- At a hamper's formation, commits of ISP pages that graphs since stopped held are held no more: each applies now, or at the end of the
task that runs (R42, R200). -/
def toneApply (s : State) : State :=
  forAll ((presentList s .isp).filter (fun u => toneSt s u == 2))
    (fun u t => if atBoundary t .isp u then commitResolve t .isp u else setTone u 3 t) s

/-- A pending commit of the PWR page applies at the tick (R551, R572). -/
def pwrCommit (s : State) : State := if s.commits.contains (pg .pwr 0) then commitDone s .pwr 0 else s

/-! ## Header writes -/

/-- Write of BLK_CTL (R66, R74, R139, R170). -/
def ctlWrite (s : State) (b : Blk) (n v : Nat) : State :=
  if bitOf v 1 then softReset s b n
  else
    let was := bitOf (regN s (pg b n + 8)) 0
    let s1 := setRegN s (pg b n + 8) (v &&& 0xF5)
    if !was && bitOf v 0 then
      (match b with
        | .cams => camsEnable s1 n
        | .sctl => sctlEnable s1 n
        | .rpl => setRpl s1 n { rplAt s1 n with halted := false }
        | _ => s1)
    else s1

/-- Write of a header register on a page that is shown (R16, R28, R66, R90). -/
def headWrite (s : State) (who : Who) (l : Loc) (o : Nat) (v : Word) : State :=
  let b := l.blk
  let n := l.inst
  let own := if foreign s who l then Admit.refuse else .ok
  let host := if isHost who && !(b == .cmdw && foreign s who l) then Admit.ok else .refuse
  match o with
  | 0x08 => admitted s who (if blkClass b == .shared then host else own) (fun t => ctlWrite t (headBlk b) n v.toNat)
  | 0x10 => admitted s who own (fun t => irqClear t b n (v.toNat &&& causeMask s who b))
  | 0x14 => admitted s who own (fun t => irqEnable t b n v.toNat)
  | 0x18 => admitted s who own (fun t => clrReg t (pg b n + 0x18) v.toNat)
  | 0x1C => admitted s who host (fun t => errInj t b n v.toNat)
  | 0x20 => admitted s who own (fun t => if bitOf v.toNat 0 then commitWrite t (headBlk b) n else t)
  | 0x24 => if blkClass b == .assignable then admitted s who host (fun t => partWrite t b n v.toNat) else admitted s who own id
  | _ => admitted s who own id

/-! ## Control registers of each block -/

/-- An RW register takes the value's defined bits. -/
def plainWrite (s : State) (l : Loc) (v : Word) : State := setReg s (pg l.blk l.inst + l.off) v

/-- An RWS register holds the value in its shadow; one written while a commit waits is lost (R73). -/
def shadowWrite (s : State) (b : Blk) (n a : Nat) (v : Word) : State :=
  if s.commits.contains (pg (headBlk b) n) then raiseErr s b n 1 none else setReg s a v

/-- FSYNC registers of an SCTL page (R164, R165). -/
def fsyncReg (s : State) (n o : Nat) (v : Word) : State :=
  let f := if o < 0x1A0 then n else 12 + n
  if 0x1A0 ≤ o ∧ 4 ≤ n then s
  else if o % 0x20 = 0x10 then fsyncWrite s f v
  else if (fsyncAt s f).armed then raiseErr s .sctl n 9 none
  else setReg s (pg .sctl n + o) v

/-- Is a grant to a partition overridden by a safe-state request not yet acted on (R21). -/
def grantBlocked (s : State) (p : Nat) : Bool := s.safe.react.any (fun r => r.cls == 3 || (r.cls == 2 && p == 0))

/-- Registers of the command window (R75, R76, R83, R84, R86, R87). -/
def cmdwReg (s : State) (l : Loc) (k : Nat) (v : Word) : State :=
  let p := l.inst
  if l.off = 0x140 then badOpcode p (submitAct s p v.toNat)
  else if 0x150 ≤ l.off ∧ l.off ≤ 0x160 then cplReg s p l.off v
  else if l.off = 0x16C then coalExpire (plainWrite s l v) p
  else if 0x400 ≤ l.off then routeWrite s p k v.toNat
  else plainWrite s l v

/-- Registers of the Feature Match Store, by the function's context (R308). -/
def fmsReg (s : State) (who : Who) (l : Loc) (v : Word) : State :=
  let f := whoFn who
  let c := 0x400_0000 * f + fmsPg
  if l.off = 0x118 then setOwnWrite s (regN s (c + 0x100) % 256) v.toNat
  else if l.off = 0x14C then (if bitOf v.toNat 8 then loadRequest s f v.toNat false else if bitOf v.toNat 9 then loadRequest s f v.toNat true else s)
  else if l.off < 0x180 then setReg s (c + l.off) v
  else plainWrite s l v

/-- CHc_PART and CHc_CTL (R444, R449, R456). -/
def dmaReg (s : State) (l : Loc) (k : Nat) (v : Word) : State :=
  if l.off < 0x200 then plainWrite s l v
  else if (l.off - 0x200) % 0x20 = 0 then
    let m := movAt s (256 + k)
    if m.active.isNone && m.shadow.isNone && unitIdle s .dma k then plainWrite s l v else s
  else
    let s1 := if bitOf v.toNat 0 then resumeMov s (.ch k) else s
    if bitOf v.toNat 1 then stopCh s1 k else s1

/-- Registers of the transport (R496, R497, R512). -/
def rolvReg (s : State) (who : Who) (l : Loc) (k : Nat) (v : Word) : State :=
  if l.off = 0x148 ∨ l.off = 0x150 then discReg s l.off v
  else if l.off = 0x184 then
    let s1 := if bitOf v.toNat 0 then peerReadAct s else s
    if bitOf v.toNat 1 then peerWriteAct s1 else s1
  else if l.off = 0x2100 then setReg s (0x400_0000 * whoFn who + rv 0x2100) v
  else if 0x2104 ≤ l.off ∧ l.off < 0x2110 then shadowWrite s .rolv 0 (bg (groupShown s (whoFn who)) ((l.off - 0x2104) / 4)) v
  else if l.off % 0x100 = 4 ∧ 0x3000 ≤ l.off then live (fun t => rsubAct t k v.toNat) s
  else plainWrite s l v

/-- Registers of the SAFE page (R517, R526, R530, R546). -/
def safeReg (s : State) (l : Loc) (v : Word) : State :=
  if l.off = 0x100 then (if bitOf v.toNat 0 then safeReleaseAct s else s)
  else if l.off = 0x10C then (if 100 ≤ v.toNat ∧ v.toNat ≤ 5000 then plainWrite s l v else s)
  else if 0x120 ≤ l.off ∧ l.off ≤ 0x130 then vrReg s l.off v
  else if l.off = 0x144 then (if bitOf v.toNat 0 then faultPopAct s else s)
  else if 0x200 ≤ l.off ∧ l.off < 0x280 then (if v.toNat ≤ 4960 then plainWrite s l v else s)
  else plainWrite s l v

/-- Registers of the PWR page (R572). -/
def pwrReg (s : State) (l : Loc) (v : Word) : State :=
  if l.off = 0x184 then setRegN s (pw 0x184) (min v.toNat 0x1A4)
  else if l.off = 0x314 then
    let k := regN s (pw 0x300) % 64
    let e : Phase := tget (fun _ => {}) s.pwr.phases k
    setPwr s { s.pwr with phases := tset (fun _ => ({} : Phase)) s.pwr.phases k { e with pref := v.toNat } }
  else if l.off = 0x318 then phaseCtl s v.toNat
  else plainWrite s l v

/-- Registers of the DBG page (R577, R578, R586, R589, R593, R598, R599, R601). -/
def dbgReg (s : State) (l : Loc) (k : Nat) (v : Word) : State :=
  match l.off with
  | 0x100 => freezeCtl s v.toNat
  | 0x110 => if bitOf v.toNat 0 then takeStop s 1 else s
  | 0x120 => trigWrite s v.toNat
  | 0x310 => if bitOf v.toNat 0 then gcClearAct s else s
  | 0x328 => memrdAct s v.toNat
  | 0xC00 => scanCtl s v.toNat
  | o => if 0x140 ≤ o ∧ o < 0x1C0 then sinkReg s k ((o - 0x140) % 0x20) v else plainWrite s l v

/-- Registers of the BOOT page (R602, R603, R614, R631). -/
def bootReg (s : State) (l : Loc) (v : Word) : State :=
  if l.off = 0x104 then
    if bitOf v.toNat 1 then requestStart s true
    else if bitOf v.toNat 0 then requestStart s false
    else if bitOf v.toNat 2 && bootState s == 3 then requestStart s true
    else s
  else if l.off = 0x128 then (if bitOf v.toNat 0 then fwReadyAct s else s)
  else plainWrite s l v

/-- The effect of an admitted write of an RW or WO register, its reserved bits removed. -/
def regEffect (s : State) (who : Who) (l : Loc) (k : Nat) (v : Word) : State :=
  match l.blk with
  | .sys => if 0x1A0 ≤ l.off then dlogReg s k ((l.off - 0x1A0) % 0x20) v else plainWrite s l v
  | .cmdw => cmdwReg s l k v
  | .sctl =>
    if l.off = 0x158 then (if bitOf v.toNat 0 then live (fun t => bundlePushAct t l.inst) s else s)
    else if 0x180 ≤ l.off ∧ l.off < 0x1C0 then fsyncReg s l.inst l.off v
    else plainWrite s l v
  | .fms => fmsReg s who l v
  | .ncse => if l.off = 0x108 then resumeMov s (.nc l.inst (v.toNat % 16)) else plainWrite s l v
  | .vse => if l.off = 0x108 then resumeMov s (.vs l.inst (v.toNat % 32)) else plainWrite s l v
  | .dma => dmaReg s l k v
  | .fgs => if 0x120 ≤ l.off ∧ l.off < 0x130 then (if grantBlocked s k then s else plainWrite s l v) else plainWrite s l v
  | .hbm => if l.off = 0x184 then (if bitOf v.toNat 0 then errPopAct s l.inst else s) else plainWrite s l v
  | .noc => if l.off = 0x148 then xlatInvAct s v.toNat else plainWrite s l v
  | .rolv => rolvReg s who l k v
  | .safe => safeReg s l v
  | .pwr => pwrReg s l v
  | .dbg => dbgReg s l k v
  | .otp => if l.off = 0x10C then programAct s v.toNat else plainWrite s l v
  | .boot => bootReg s l v
  | .sec => if l.off = 0x120 then (if bitOf v.toNat 0 then attGoAct s else s) else plainWrite s l v
  | _ => plainWrite s l v

/-- A write of a read-only register changes nothing; an accessor that its level shuts out gets NO_PERMISSION (R16, R75, R90). -/
def roPut (s : State) (who : Who) (l : Loc) (r : RegRow) (k : Nat) : State :=
  match mayWrite s who l r.r k with
  | .refuse => noPerm s (whoPart who)
  | _ => s

/-- A write of a register of a table (R13, R14, R16, R73). -/
def rowPut (s : State) (who : Who) (l : Loc) (r : RegRow) (k : Nat) (v : Word) : State :=
  let m := v &&& BitVec.ofNat 32 r.mask
  match r.acc with
  | .ro | .rc => roPut s who l r k
  | .w1c => admitted s who (mayWrite s who l r.w k) (fun t => clrReg t (pg l.blk l.inst + l.off) m.toNat)
  | .rws =>
    admitted s who (mayWrite s who l r.w k) (fun t =>
      if l.blk = .rolv ∧ 0x2000 ≤ l.off then rolvReg t who l k m else shadowWrite t l.blk l.inst (pg l.blk l.inst + l.off) m)
  | .rw | .wo => admitted s who (mayWrite s who l r.w k) (fun t => regEffect t who l k m)

/-- Registers writable in MGMT_ONLY (R617). -/
def mgmtWritable (l : Loc) : Bool :=
  match l.blk with
  | .boot => l.off == 0x104 || l.off == 0x108 || l.off == 0x10C || l.off == 0x110
  | .sec => decide (0x100 ≤ l.off) && decide (l.off ≤ 0x120)
  | _ => false

/-- A 32-bit write of BAR0 offset a (R5, R13 to R16, R66, R70, R90, R595, R617). -/
def regWrite (s : State) (who : Who) (a : Nat) (v : Word) : State :=
  if s.boot.inReset then s
  else match locate a with
  | none => if isMsix a then msixWrite s (whoFn who) a v else s
  | some l => match viewOf s who l with
    | .absent => s
    | .denied => if headerOff l = some 0x24 ∧ blkClass l.blk ≠ .assignable then s else noPerm s (whoPart who)
    | .shown =>
      if (isStopped s && !openInStop l) || (bootState s == 3 && !mgmtWritable l) then s
      else match headerOff l with
        | some o => headWrite s who l o v
        | none => match rowAt l with
          | none => admitted s who (if foreign s who l then .refuse else .ok) id
          | some (r, k) => rowPut s who l r k v

end Sys2Proof.Machine
end

