-- ==== Sys2Proof/Machine/Package.lean ====
section
/-! DEFINITION. Function-level and conventional reset, and the memory windows of BAR2 and BAR4 (R34, R64, R65, R88, R89). -/

namespace Sys2Proof.Machine
open Sys2Proof

/-! ## Function-level reset -/

/-- A flow's formed hampers are discarded with no record written (R88). -/
def discardSilent (s : State) (gi f : Nat) : State :=
  let g := graphAt s gi
  let s1 := normUnits (unplace s gi f)
  let s2 := modHampers s1 (fun h => h.graph == gi && h.flow == f) (fun h => { h with tasks := h.tasks.map removeWaiting, cancelled := true })
  let gone := ((flowAt g f).resv.filter (fun r => r.handle == 0)).length
  sweep (countAbandoned (modFlow s2 gi f (fun x => { x with resv := [] })) g.part gone)

/-- A task reference under another key of its graph. -/
def reRef (a b : Nat) (r : TRef) : TRef := if r.graph = a then { r with graph := b } else r

/-- A slot's command under another key of its graph. -/
def reCmd (a b : Nat) (c : MovCmd) : MovCmd := { c with task := c.task.map (reRef a b) }

/-- A unit under another key of a graph. -/
def reUnit (a b : Nat) (u : UnitSt) : UnitSt :=
  { u with
    run := u.run.map (reRef a b)
    pre := u.pre.map (reRef a b)
    parks := u.parks.map (fun (x : TRef × Nat × Bool) => (reRef a b x.1, x.2)) }

/-- A core under another key of a graph. -/
def reCore (a b : Nat) (c : Core) : Core :=
  let f := fun (x : Ctx) => { x with task := reRef a b x.task }
  { c with
    ctx := c.ctx.map f
    parked := c.parked.map (fun (p : Parked) => { p with ctx := f p.ctx })
    mq := c.mq.map (fun (m : MCmd) => { m with task := reRef a b m.task })
    sq := c.sq.map (fun (m : SCmd) => { m with task := reRef a b m.task }) }

/-- A running graph leaves its index and ends under a key of its own, which frees the index (R88). -/
def rekeyGraph (s : State) (a b : Nat) : State :=
  let g := graphAt s a
  let s1 := setGraph (setGraph s a {}) b g
  { s1 with
    hampers := s1.hampers.map (fun (h : Hamper) => if h.graph = a then { h with graph := b } else h)
    units := s1.units.map (fun (e : Nat × UnitSt) => (e.1, reUnit a b e.2))
    fifos := s1.fifos.map (fun (e : Nat × List Fin) => (e.1, e.2.map (fun (f : Fin) => { f with ref := reRef a b f.ref })))
    movers := s1.movers.map (fun (e : Nat × Mov) => (e.1, { e.2 with active := e.2.active.map (reCmd a b), shadow := e.2.shadow.map (reCmd a b) }))
    cores := s1.cores.map (fun (e : Nat × Core) => (e.1, reCore a b e.2))
    ringSigs := s1.ringSigs.map (fun (r : RingSig) => { r with task := reRef a b r.task })
    ladles := s1.ladles.map (fun (e : Nat × Ladle) => (e.1, if e.2.bound = some a then { e.2 with bound := some b } else e.2))
    ages := s1.ages.map (fun (e : Nat × AgeSlot) => (e.1, if e.2.graph = a then { e.2 with graph := b } else e.2))
    safe := { s1.safe with
      dual := s1.safe.dual.map (fun (e : Nat × DualFlow) => (e.1, if e.2.graph = a then { e.2 with graph := b } else e.2))
      pairs := s1.safe.pairs.map (fun (d : DualPair) => if d.graph = a then { d with graph := b } else d) }
    fms := { s1.fms with
      sets := s1.fms.sets.map (fun (e : Nat × List MsVer) => (e.1, e.2.map (fun (v : MsVer) => { v with holders := v.holders.map (reRef a b) })))
      loads := s1.fms.loads.map (fun (l : MsLoad) => { l with task := l.task.map (fun (x : TRef × Nat) => (reRef a b x.1, x.2)) }) } }

/-- The first key above the 256 indices, of the same low byte, that no graph holds. -/
def freeKey (s : State) (gi : Nat) : Nat :=
  gi + 256 * (((List.range (s.graphs.length + 1)).find? (fun k => (graphAt s (gi + 256 * (k + 1))).stat == .free)).getD 0 + 1)

/-- A graph of the partition stops with no record written; its index is free at once, and a started one ends under a key of its own
(R88, R656). -/
def flushGraph (gi0 : Nat) (s0 : State) : State :=
  if !isStarted (graphAt s0 gi0) then setGraph s0 gi0 {}
  else if (graphAt s0 gi0).stat == .flushed then s0
  else
    let gi := freeKey s0 gi0
    let s := rekeyGraph s0 gi0 gi
    let g := graphAt s gi
    let s1 := if g.stat = .started then forAll (flowsById g) (fun f t => logFlowStop t gi f 2) s else s
    let s2 := setGraph s1 gi { graphAt s1 gi with stat := .flushed, handle := 0, stopHandle := 0 }
    finishGraph (finalOfGraph gi (forAll (flowsById g) (fun f t => discardSilent t gi f) s2)) gi

/-- FUNCTION_LEVEL_RESET of function n (R88): its graphs stop, its copies are cancelled, and its window forgets what it held. One that arrives
during a global stop is ignored, which the spec does not say (log entry 93). -/
def flrAct (s : State) (n : Nat) : State :=
  if decide (3 < n) || s.boot.inReset || isStopped s then s
  else
    let w := cmdwAt s n
    let crcs := w.held.map (fun r => leAt (cplBytes r) 28 4)
    let s1 := forAll ((s.graphs.filter (fun e => e.2.part == n && e.2.stat != .free)).map Prod.fst) flushGraph (flrCopies s n)
    let s2 := { s1 with
      pwr := { s1.pwr with setOpp := s1.pwr.setOpp.map (fun h => if fld h 29 2 = n then 0 else h) }
      safe := { s1.safe with vheld := if n = 0 then s1.safe.vheld.filter (fun v => v.crc = 0 || !crcs.contains v.crc) else s1.safe.vheld }
      regs := s1.regs.filter (fun e => !(decide (cw n ≤ e.1) && decide (e.1 < cw n + 0x1000)))
      irqCtx := s1.irqCtx.filter (fun e => e.1 / 32 != cw n) }
    setCmdw s2 n { slots := w.slots.map (fun e => (e.1, { e.2 with busy := false, op := 0, ref := 0 })) }

/-! ## BAR2 -/

/-- Device-virtual address of BAR2 offset x of a function (R64). -/
def bar2Va (s : State) (n x : Nat) : Nat := regN s (cw n + 0x178) + 2 ^ 32 * regN s (cw n + 0x17C) + x

/-- An offset that reaches no HBM of the partition (R34, R64). -/
def bar2Miss (s : State) (n : Nat) : State := raiseErr s .cmdw n 9 none

/-- Does BAR2 reach HBM at a device-virtual piece (R34, R64). -/
def bar2Hit (s : State) (n va : Nat) (pm : Perm) : Bool :=
  match xlate s n va pm with
  | .ok a => a.target == 0
  | .error _ => false

/-- Read one piece through BAR2. -/
def bar2ReadPiece (n va k : Nat) (s : State) : List Byte × State :=
  let ones := List.replicate k 255
  if bar2Hit s n va .r then
    match meetRead s n va k .r with
    | (.ok b, t) => (b, t)
    | (.error _, t) => (ones, t)
  else (ones, bar2Miss s n)

/-- Write one piece through BAR2. -/
def bar2WritePiece (n va : Nat) (b : List Byte) (s : State) : State :=
  if bar2Hit s n va .w then (meetWrite s n va b).1 else bar2Miss s n

/-- Size of BAR2 of a function: a power of two from 1 GiB to 128 GiB, 64 GiB by default (R62). -/
def bar2Size (s : State) (n : Nat) : Nat := 2 ^ tget (fun _ => 36) s.bar2 n

/-- BAR2_ACCESS: a read of `len` bytes, or a write (R34, R62, R64, R595); one that
passes the window's end does not reach the device (log entry 119). -/
def bar2Act (s : State) (n a len : Nat) (wr : Option (List Byte)) : State :=
  let dead := decide (3 < n) || s.boot.inReset || isStopped s || bootState s != 2 ||
    decide (bar2Size s n < a + (match wr with | none => len | some b => b.length))
  match wr with
  | none =>
    if dead then { s with rdata := List.replicate len 255 }
    else
      let r := (piecesOf (bar2Va s n a) len).foldl (fun x c => let q := bar2ReadPiece n c.1 c.2 x.2; (x.1 ++ q.1, q.2)) (([] : List Byte), s)
      { r.2 with rdata := r.1 }
  | some b =>
    if dead then s
    else ((piecesOf (bar2Va s n a) b.length).foldl (fun x c => (x.1.drop c.2, bar2WritePiece n c.1 (x.1.take c.2) x.2)) (b, s)).2

/-! ## BAR4 -/

/-- What a BAR4 offset reaches, with the bytes left there: data of a scratchpad, a scale lane, tile memory, or nothing (R65, R375, R398). -/
inductive Bar4
  | data (n o : Nat)
  | lane (n o : Nat)
  | tile (o : Nat)
  | none_
  deriving DecidableEq, Repr

/-- Decode a BAR4 offset. -/
def bar4At (s : State) (a : Nat) : Bar4 :=
  if a < 0x2000_0000 then (if present s .nc (a / 0x400_0000) then .data (a / 0x400_0000) (a % 0x400_0000) else .none_)
  else if a < 0x2000_0000 + 0x300_0000 then .tile (a - 0x2000_0000)
  else if 0x8000_0000 ≤ a ∧ a < 0x8200_0000 then
    (if present s .nc ((a - 0x8000_0000) / 0x40_0000) then .lane ((a - 0x8000_0000) / 0x40_0000) (a % 0x40_0000) else .none_)
  else .none_

/-- Bytes with those of uncorrectable words, numbered from word w0 at byte b of the first, read as ones (R383). -/
def withOnes (bad : Nat → Bool) (w0 b : Nat) (l : List Byte) : List Byte :=
  l.zipIdx.map (fun x => if bad (w0 + (b + x.2) / 8) then 255 else x.1)

/-- Read within one row through a scratchpad's port: the words from `w0` of row r, of which the bytes from `b` (R382, R383). -/
def bar4Row (n r w0 b : Nat) (l : List Byte) (s : State) : List Byte × State :=
  let t := (rowUse n r w0 ((b + l.length + 7) / 8) s).2
  (withOnes (fun w => t.spadUe.contains (spWord n r w)) w0 b l, t)

/-- Read data bytes of a scratchpad through BAR4. -/
def bar4Data (n o k : Nat) (s : State) : List Byte × State :=
  (rowPieces o k).foldl (fun x c =>
    let q := bar4Row n c.1 (c.2.1 / 8) (c.2.1 % 8) (rowData x.2 n c.1 c.2.1 c.2.2) x.2
    (x.1 ++ q.1, q.2)) (([] : List Byte), s)

/-- Pieces of an access of the lanes, one per row: row, first byte, count (R375). -/
def lanePieces (o n : Nat) : List (Nat × Nat × Nat) :=
  (rangeFrom (o / 32) ((o + n + 31) / 32 - o / 32)).map (fun r => let a := max o (32 * r); (r, a - 32 * r, min (o + n) (32 * r + 32) - a))

/-- Read lane bytes through BAR4, row by row. -/
def bar4Lane (n o k : Nat) (s : State) : List Byte × State :=
  (lanePieces o k).foldl (fun x c =>
    let q := bar4Row n c.1 (64 + c.2.1 / 8) (c.2.1 % 8) (rowLane x.2 n c.1 c.2.1 c.2.2) x.2
    (x.1 ++ q.1, q.2)) (([] : List Byte), s)

/-- Read entries of the Feature Match Store through BAR4 (R296, R308): the first entry read meets an armed injection, and reads as ones where it is
uncorrectable. -/
def bar4Store (o k : Nat) (s : State) : List Byte × State :=
  match storeMeet s with
  | (false, t) => (memRead t.tile o k, t)
  | (true, t) =>
    let n := min k (36 - (o - vtmArea) % 36)
    (List.replicate n 255 ++ memRead t.tile (o + n) (k - n), t)

/-- Read tile memory through BAR4 (R296, R398, R401): its words, then what lies in the store. -/
def bar4Tile (o k : Nat) (s : State) : List Byte × State :=
  let n := min k (vtmArea - o)
  let r := if n = 0 then ([], s)
    else
      let t := (vtmUse 0 o n s).2
      (withOnes (fun w => t.tileUe.contains w) (o / 8) (o % 8) (memRead t.tile o n), t)
  if n = k then r
  else
    let q := bar4Store (o + n) (k - n) r.2
    (r.1 ++ q.1, q.2)

/-- BAR4_ACCESS: a read of `len` bytes, or a write (R34, R65, R296, R375, R383, R384, R398, R595). An access lies within one range. -/
def bar4Act (s : State) (n a len : Nat) (wr : Option (List Byte)) : State :=
  let dead := s.boot.inReset || isStopped s
  match wr with
  | none =>
    if dead then { s with rdata := List.replicate len 255 }
    else if n != 0 || bootState s == 3 then { s with rdata := List.replicate len 0 }
    else
      let r := match bar4At s a with
        | .data c o => bar4Data c o (min len (spBytes - o)) s
        | .lane c o => bar4Lane c o (min len (laneBytes - o)) s
        | .tile o => bar4Tile o (min len (0x300_0000 - o)) s
        | .none_ => ([], s)
      { r.2 with rdata := r.1 ++ List.replicate (len - r.1.length) 0 }
  | some b =>
    if dead || n != 0 || bootState s == 3 then s
    else
      match bar4At s a with
      | .data c o => (spWrite c o (b.take (spBytes - o)) s).2
      | .lane c o =>
        let d := b.take (laneBytes - o)
        (Eng.each (lanePieces o d.length) (fun x => laneWrite c x.1 x.2.1 ((d.drop (32 * x.1 + x.2.1 - o)).take x.2.2)) s).2
      | .tile o => (vtmStore 0 o [] (b.take (vtmArea - o)) s).2
      | .none_ => s

end Sys2Proof.Machine
end

