-- ==== Sys2Proof/Machine/Act.lean ====
section
/-! DEFINITION. What every command shares: time passes, the effect, and what follows it at once; and the operations that several commands call. -/

namespace Sys2Proof.Machine
open Sys2Proof

/-! ## The frame of a command -/

/-- Every byte memory and every table of the state in its one canonical form. -/
def canonical (s : State) : State :=
  { s with
    hbm := memOf s.hbm
    host := memOf s.host
    tile := memOf s.tile
    spad := memOf s.spad
    lane := memOf s.lane
    regs := tblOf regRst s.regs
    applied := tblOf regRst s.applied
    hi := tblOf (fun _ => 0) s.hi
    irqCtx := tblOf (fun _ => 0) s.irqCtx
    tone := tblOf (fun _ => 0) s.tone
    bar2 := tblOf (fun _ => 36) s.bar2
    cmdw := tblOf (fun _ => {}) s.cmdw
    dlog := tblOf (fun _ => {}) s.dlog
    graphs := tblOf (fun _ => {}) s.graphs
    units := tblOf (fun _ => {}) s.units
    fifos := tblOf (fun _ => []) s.fifos
    ages := tblOf (fun _ => {}) s.ages
    ladles := tblOf (fun _ => {}) s.ladles
    cams := tblOf (fun _ => {}) s.cams
    sctl := tblOf (fun _ => {}) s.sctl
    fsync := tblOf (fun _ => {}) s.fsync
    rpl := tblOf (fun _ => {}) s.rpl
    movers := tblOf (fun _ => {}) s.movers
    cores := tblOf (fun _ => {}) s.cores
    hbmRec := tblOf (fun _ => []) s.hbmRec
    safe := { s.safe with dual := tblOf (fun _ => {}) s.safe.dual, ueBurst := tblOf (fun _ => (0, 0)) s.safe.ueBurst }
    dbg := { s.dbg with
      crumbs := tblOf (fun _ => []) s.dbg.crumbs
      owed := tblOf (fun _ => 0) s.dbg.owed
      cnt := tblOf (fun _ => {}) s.dbg.cnt
      itrace := tblOf (fun _ => {}) s.dbg.itrace }
    fms := { s.fms with
      own := tblOf (fun _ => 0) s.fms.own
      gen := tblOf (fun _ => 0) s.fms.gen
      sets := tblOf (fun _ => []) s.fms.sets }
    pwr := { s.pwr with
      phases := tblOf (fun _ => {}) s.pwr.phases
      grpSum := tblOf (fun _ => 0) s.pwr.grpSum
      pout := tblOf (fun _ => 0) s.pwr.pout
      vmode := tblOf (fun _ => 0x17) s.pwr.vmode
      temps := tblOf (fun _ => 0) s.pwr.temps }
    rolv := { s.rolv with
      peers := tblOf (fun _ => List.replicate 64 0) s.rolv.peers
      conns := tblOf (fun _ => {}) s.rolv.conns
      ops := tblOf (fun _ => {}) s.rolv.ops
      lldpAt := tblOf (fun _ => 0) s.rolv.lldpAt
      helloAt := tblOf (fun _ => 0) s.rolv.helloAt
      submits := tblOf (fun _ => none) s.rolv.submits }
    boot := { s.boot with otp := memOf s.boot.otp, spi := memOf s.boot.spi, island := memOf s.boot.island } }

/-- A pending commit of an instance that is between two frames, commands or tasks takes its boundary as the next begins (R71, R72). -/
def boundary (b : Blk) (n : Nat) (s : State) : State := if s.commits.contains (pg b n) then commitApplied s (pg b n) else s

/-- Move the prefetched task of a unit into an empty running slot, unless a taster window or a parked task has it: a pending commit applies
between the task that ended and this one (R72, R112, R117, R118, R200, R346). -/
def startTask (s : State) (b : Blk) (u : Nat) : State :=
  match (unitAt s b u).pre, slotFor s b u with
  | some r, some i =>
    let t := enterRun (boundary b u s) b u i r
    if b = .ftr then ftrEnter t i else t
  | _, _ => s

/-- Prefetched tasks move to the running slots that may take them (R112, R117, R118). -/
def startAll (s : State) : State :=
  forAll s.units (fun e t => match blkOfCode (e.1 / 256) with | some b => startTask t b (e.1 % 256) | none => t) s

/-- DMA channels take the tasks that entered their slots (R434). -/
def armUnits (s : State) : State :=
  forAll (List.range 32) (fun ch t => if (unitAt t .dma ch).run.isNone && (movAt t (256 + ch)).shadow.isNone then t else armUnit t ch) s

/-- What follows a command in the same instant: parked tasks whose wait has ended become eligible (R117), prefetched tasks start (R112), flows
with room grant credits (R501), channels take their tasks (R434), compared pairs are forgotten. -/
def settle (s : State) : State := prunePairs (live (fun t => armUnits (grantOwed (startAll (refreshParks t)))) s)

/-- The state in which a command takes effect: dt ns of TIMECNT have passed, and what they bring has come. -/
def arrive (dt : Nat) (s : State) : State := canonical (pwrAdvance (elapse dt s))

/-- The end of a command: the memories in canonical form, the queue as it was, no actor. -/
def finish (s u : State) : State := { canonical u with pending := s.pending, actor := (0, 0, 0) }

/-- The close of a command that took effect: what follows it in the same instant, then its end. -/
def closing (s u : State) : State := finish s (settle u)

/-- A command: time passes, it takes effect unless RESET_N is low (R603), and the queue stays as it was. -/
def act (dt : Nat) (f : State → State) (s : State) : Host.Outcome State Fault Refusal :=
  let t := arrive dt s
  .next (if t.boot.inReset then finish s t else closing s (f t))

/-- A command of the data plane: it takes effect only while the device runs and is not stopped (R595, R603). -/
def actLive (dt : Nat) (f : State → State) (s : State) : Host.Outcome State Fault Refusal := act dt (live f) s

/-- A command that acts in reset too: the host's accesses of BAR2 and BAR4, and a cold start. -/
def actAny (dt : Nat) (f : State → State) (s : State) : Host.Outcome State Fault Refusal := .next (closing s (f (arrive dt s)))

/-- DROOP_TRIP: a core more than 60 mV below its setpoint has undefined effect (R633); otherwise the detectors act. -/
def droopOutcome (dt : Nat) (mv : List Nat) (s : State) : Host.Outcome State Fault Refusal :=
  if mv.any (fun x => decide (60 < x)) then .fault .coreUndervoltage else act dt (fun t => droopTripAct t mv) s

/-! ## Tasks on units -/

/-- Operator ID of the task in a unit's running slot. -/
def opOf (s : State) (b : Blk) (u : Nat) : Nat :=
  match (unitAt s b u).run with
  | some r => (nodeAt (graphAt s r.graph) r.node).opId
  | none => 0

/-- Does a unit exist: an instance that is present; of the transport, one of its 256 remote-operation slots (R6, R94). -/
def unitThere (s : State) (b : Blk) (u : Nat) : Bool := if b = .rolv then rolvOn s && decide (u < 256) else present s b u

/-- The work of a unit's task: the task in the prefetched slot starts if it may, and the unit acts on its behalf (R112, R469). -/
def onUnit (b : Blk) (u : Nat) (f : State → State) (s : State) : State :=
  if !unitThere s b u then s
  else
    let t := startTask s b (if b = .rolv then 0 else u)
    f (asActor b u (opOf t b u) t)

/-- The work of a core's running task. -/
def onCore (u : Nat) (f : State → State) (s : State) : State :=
  if present s .nc u then f (asActor .nc u (opOf s .nc u) s) else s

/-- The work of a stream or channel. -/
def onMover (m : Mover) (f : State → State) (s : State) : State :=
  if movPresent s m then
    let op := match (movAt s (movKey m)).active with | some c => c.opId | none => 0
    f (asActor (movBlk m).1 (movBlk m).2 op s)
  else s

/-- TASK_END: a task whose work is done leaves the running slot once its ladles have room (R111, R112, R120, R124). -/
def taskEndAct (s : State) (b u : Nat) : State :=
  match blkOfCode b with
  | none => s
  | some .nc => ncTaskEnd s u
  | some x =>
    if !unitTypes.contains x then s
    else
      let w := unitAt s x u
      match w.run, w.done with
      | some r, some st =>
        if ladleRoom s (graphAt s r.graph) r.node st then taskEnd (if x = .ftr then fmsRelease s r else s) x u r st 0 else s
      | _, _ => s

/-! ## Triggers, formation and release -/

/-- The instant of the k-th tick of a TIMER trigger (R101): the first lies strictly after the graph's start. -/
def tickTime (g : Graph) (t : GTrig) (k : Nat) : Nat :=
  let a : Int := g.startAt.toNat + 1
  (a + ((t.phase : Int) - a) % (max 1 t.period : Nat)).toNat + k * t.period

/-- TIMER_TRIGGER: the next instant of a flow's timer has passed; it reserves its sequence, or is missed (R101, R109). A missed instant counts
in TIMER_MISSED alone, not in JOINS_ABANDONED (R132; log entry 123). -/
def timerAct (s : State) (gi f : Nat) : State :=
  let g := graphAt s gi
  let t := trigOf g f
  let x := flowAt g f
  let k := x.ticks
  if g.stat != .started || t.kind != 2 || x.stopped || decide (now s < tickTime g t k) then s
  else
    let room := roomFor s gi f
    let s1 := modFlow s gi f (fun y => { y with ticks := k + 1 })
    if room then reserve s1 gi f { seq := BitVec.ofNat 32 k, stamp := BitVec.ofNat 64 (tickTime g t k) }
    else raiseIrq (bump s1 (fgsCnt g.part 0x14) 1) .fgs 0 10 (some g.part)

/-- HAMPER_FORM: the first flow in order that can form a hamper forms it (R105, R108); updates that waited for a replay-exact graph to stop
apply (R42). -/
def hamperFormAct (s : State) : State :=
  match (formOrder s).findSome? (fun x => (formable s x.1 x.2).map (fun r => (x.1, x.2, r))) with
  | some (g, f, r) => toneApply (undefer (formHamper s g f r))
  | none => s

/-- HAMPER_RELEASE: the oldest hamper of a flow that can be released is, unless a log holds the partition's results (R83, R126, R525). -/
def hamperReleaseAct (s : State) (g f : Nat) : State :=
  match (hampersOf s g f).find? (releasable s) with
  | some h => if mayRelease s (graphAt s g).part then release s h else s
  | none => s

/-! ## Reads with an effect -/

/-- Is the register at an offset shown to an accessor and readable at its level. -/
def readable (s : State) (who : Who) (a : Nat) : Bool :=
  !s.boot.inReset && (match locate a with
    | some l => (match viewOf s who l with | .shown => true | _ => false) &&
      (match rowAt l with | some (r, k) => r.acc != .wo && mayRead s who r.r k | none => false)
    | none => false)

/-- A read whose effect, if the register can be read and the page is not frozen by a stop, is f; it answers the register's value. -/
def readAct (s : State) (who : Who) (a : Nat) (f : State → State) : State :=
  let t := answered s (regRead s who a)
  let held := isStopped s && (match locate a with | some l => !openInStop l | none => true)
  if readable s who a && !held then f t else t

/-- The high half that reading a low half latches: its value, and the offset it shows at (R372, R455, R456, R477, R512, R577). -/
def latchOf (s : State) (who : Who) (a : Nat) : Option (Nat × Nat) :=
  let raw := some ((tget (fun _ => (0 : Word)) s.hi a).toNat, a + 4)
  match locate a with
  | none => none
  | some l =>
    let o := l.off
    match l.blk with
    | .pyr | .warp | .str | .flw => if o = 0x804 then raw else none
    | .ftr => if o = 0x808 then raw else none
    | .nc => if o = 0x810 then raw else none
    | .ncm => if o = 0x808 ∨ (0x900 ≤ o ∧ o < 0x958 ∧ o % 8 = 0) then raw else none
    | .ncv => if o = 0x800 then raw else none
    | .ncse | .vse => if 0x800 ≤ o ∧ o ≤ 0x818 ∧ o % 8 = 0 then raw else none
    | .dma => if o = 0x800 ∨ o = 0x808 ∨ o = 0x81C then raw else none
    | .hbm => if 0x840 ≤ o ∧ o < 0x860 ∧ o % 8 = 0 then raw else none
    | .dbg => if 0x800 ≤ o ∧ o < 0xA00 ∧ o % 8 = 0 then raw else none
    | .fms =>
      let c := 0x400_0000 * whoFn who + fmsPg
      let m := regN s (c + 0x100) % 256
      if o = 0x110 then some (if isHost who || ownsSet s (whoFn who) m then half (curVer s m).digest true else 0, c + 0x114) else none
    | .rolv =>
      if o = 0x2110 then some ((tget (fun _ => (0 : Word)) s.hi (bg (groupShown s (whoFn who)) 3)).toNat, rv 0x2114)
      else if 0x2200 ≤ o ∧ o < 0x2220 ∧ o % 8 = 0 then raw else none
    | .pwr => if o = 0x824 then some (half (s.pwr.energy / 1000) true, a + 4) else none
    | _ => none

/-- LATCHING_LO_READ: the low half is answered, the high half latched (R372). -/
def latchRead (s : State) (who : Who) (a : Nat) : State :=
  readAct s who a (fun t => match latchOf s who a with
    | some (v, h) => setRegN t h v
    | none => t)

/-- HIGH_WATER_READ: the register is answered and cleared (R457). -/
def clearingRead (s : State) (who : Who) (a : Nat) : State := readAct s who a (fun t => setRegN t a 0)

/-- AGE_WORST_READ: the age slot shown is answered and cleared (R528). -/
def ageWorstAct (s : State) (who : Who) : State :=
  readAct s who (safePg + 0x30C) (fun t => let k := regN t (safePg + 0x300) % 256; setAge t k { ageAt t k with worst := 0 })

/-- CMD_OPID_READ: the counters of the task counted are latched, and the register answered (R575, R576). -/
def opidRead (s : State) (who : Who) (b u : Nat) : State :=
  match blkOfCode b with
  | none => s
  | some x =>
    let a := pg x u + 0xC00
    if !countedUnits.contains (x, u) then answered s (regRead s who a)
    else
      let t := readAct s who a (fun t => cmdOpidRead t x u)
      answered t (regRead t who a)

/-- SCAN_DATA_READ: the next 32 bits of the chain (R598). -/
def scanRead (s : State) (who : Who) : State :=
  if readable s who (db 0xC08) then
    let (v, t) := scanBits s 32
    answered (setRegN t (db 0xC08) v) v
  else answered s 0

/-! ## Camera events without a function of their own -/

/-- GENERIC_SHORT_PACKET: counted as a packet of no context, and discarded (R136). -/
def shortPacket (s : State) (port : Nat) (fix : Bool) : State :=
  if !portOn s port then s
  else bump (if fix then bump s (cport port + 0x800) 1 else s) (cport port + 0x80C) 1

/-- LINK_DOWN: a camera port loses lock (R171). -/
def camLinkDown (s : State) (port : Nat) : State := if portOn s port then raiseIrq s .camp port 8 none else s

/-- A start-of-transmission error of a port is counted and sets SOT_ERROR (R171). -/
def sotError (s : State) (port : Nat) : State := raiseErr (bump s (cport port + 0x810) 1) .camp port 8 none

/-- HEADER_UNCORRECTABLE on a port (R138).
DESIGN CHOICE (log 143): where the burst began with a start-of-transmission error, that error is recorded first, and the header is lost. -/
def headerBad (s : State) (port : Nat) (sot : Bool) : State :=
  if portOn s port then headerLost (if sot then sotError s port else s) port else s

/-- XLAT_INV_DONE: the invalidation of a partition completes, and its faulted rings are tried again (R465, R651). -/
def invDone (s : State) (p : Nat) : State :=
  if !s.invs.contains p then s
  else
    let l := s.invs.filter (fun q => q != p)
    let s1 := { s with invs := l }
    let s2 := if l.isEmpty then orReg s1 (nocPg + 0x14C) 1 else s1
    let s3 := if (dlogAt s2 p).fault then dlogRetry s2 p else s2
    let s4 := if (cmdwAt s3 p).fault || (cmdwAt s3 p).wbFault then cplRetry s3 p else s3
    if p = 0 ∧ s4.safe.vfault then vRetry s4 else s4

/-- COLD_START of a device in reset or without power: RESET_N rises, or power comes (R602). -/
def coldStart (s : State) : State :=
  requestStart { s with boot := { s.boot with inReset := false, waiting := if s.boot.waiting == some 2 then none else s.boot.waiting } } true

end Sys2Proof.Machine
end

