-- ==== Sys2Proof/Machine/BootCommands.lean ====
section
/-! DEFINITION. The commands of boot, OTP and attestation: one meaning for each. -/

namespace Sys2Proof.Machine
open Sys2Proof

/-- BOOT_WARM (R602): software asks for a warm start. -/
def execBootWarm (dt : Nat) (who : Who) (s : State) : Host.Outcome State Fault Refusal :=
  act dt (fun t => regWrite t who (bt 0x104) 1) s

/-- BOOT_COLD (R602): software asks for a cold start. -/
def execBootCold (dt : Nat) (who : Who) (s : State) : Host.Outcome State Fault Refusal :=
  act dt (fun t => regWrite t who (bt 0x104) 2) s

/-- HOST_GO (R614): in the management-only state, a cold start begins. -/
def execHostGo (dt : Nat) (who : Who) (s : State) : Host.Outcome State Fault Refusal :=
  act dt (fun t => regWrite t who (bt 0x104) 4) s

/-- COLD_START (R602): power comes or RESET_N rises. -/
def execColdStart (dt : Nat) (s : State) : Host.Outcome State Fault Refusal :=
  actAny dt coldStart s

/-- WARM_START (R602): a warm start is requested. -/
def execWarmStart (dt : Nat) (s : State) : Host.Outcome State Fault Refusal :=
  act dt (fun t => requestStart t false) s

/-- START_STEP_COMPLETE (R604 to R619): the work of the present step ends. -/
def execStartStepComplete (dt : Nat) (ok : Bool) (rows : List Nat) (s : State) : Host.Outcome State Fault Refusal :=
  act dt (fun t => stepAct t ok rows) s

/-- FW_READY (R603): firmware completes the start. -/
def execFwReady (dt : Nat) (s : State) : Host.Outcome State Fault Refusal :=
  act dt fwReadyAct s

/-- FW_HANG (R615): firmware does not complete the start in time. -/
def execFwHang (dt : Nat) (s : State) : Host.Outcome State Fault Refusal :=
  act dt fwHangAct s

/-- TJ_HIGH (R606): the device stays too hot to start. -/
def execTjHigh (dt : Nat) (s : State) : Host.Outcome State Fault Refusal :=
  act dt tjHighAct s

/-- RESET_N_FALL (R602): RESET_N falls. -/
def execResetNFall (dt : Nat) (s : State) : Host.Outcome State Fault Refusal :=
  act dt resetAct s

/-- REFCLK_LOSS (R641): the reference clock is lost. -/
def execRefclkLoss (dt : Nat) (s : State) : Host.Outcome State Fault Refusal :=
  act dt refclkAct s

/-- OTP_PROGRAM (R620 to R622): a word of the OTP is programmed. -/
def execOtpProgram (dt : Nat) (who : Who) (v : Word) (s : State) : Host.Outcome State Fault Refusal :=
  act dt (fun t => regWrite t who (ot 0x10C) v) s

/-- OTP_PROGRAM_DONE (R620, R622): the programming ends. -/
def execOtpProgramDone (dt : Nat) (ok : Bool) (s : State) : Host.Outcome State Fault Refusal :=
  act dt (fun t => programDoneAct t ok) s

/-- ATT_GO (R630): an attestation report is asked for. -/
def execAttGo (dt : Nat) (who : Who) (s : State) : Host.Outcome State Fault Refusal :=
  act dt (fun t => regWrite t who (se 0x120) 1) s

/-- ATT_REPORT_DONE (R630): the report is written. -/
def execAttReportDone (dt : Nat) (s : State) : Host.Outcome State Fault Refusal :=
  act dt attDoneAct s

end Sys2Proof.Machine
end

