-- ==== Sys2Proof/Machine/CameraCommands.lean ====
section
/-! DEFINITION. The commands of camera ingress, sensor control and replay: one meaning for each. -/

namespace Sys2Proof.Machine
open Sys2Proof

/-- LIST_WR_IDX_WRITE (R166): items of a replay list become ready. -/
def execListWrIdxWrite (dt : Nat) (who : Who) (r : Nat) (l : Nat) (v : Word) (s : State) : Host.Outcome State Fault Refusal :=
  act dt (fun t => regWrite t who (rp r + 0x11C + 0x10 * l) v) s

/-- BUNDLE_PUSH (R157, R158): a settings bundle is read and queued. -/
def execBundlePush (dt : Nat) (who : Who) (u : Nat) (v : Word) (s : State) : Host.Outcome State Fault Refusal :=
  act dt (fun t => regWrite t who (sp u + 0x158) v) s

/-- BUNDLE_ISSUE (R159, R160): a queued bundle goes out on the bus. -/
def execBundleIssue (dt : Nat) (u : Nat) (s : State) : Host.Outcome State Fault Refusal :=
  actLive dt (fun t => bundleIssueAct (boundary .sctl u t) u) s

/-- BUNDLE_DONE (R161, R162): the bundle on the bus ends. -/
def execBundleDone (dt : Nat) (u : Nat) (nack : Bool) (s : State) : Host.Outcome State Fault Refusal :=
  actLive dt (fun t => bundleDoneAct t u nack) s

/-- SETTINGS_WINDOW_CLOSE (R159, R163): a profile's settings window closes. -/
def execSettingsWindowClose (dt : Nat) (u : Nat) (f : Nat) (s : State) : Host.Outcome State Fault Refusal :=
  actLive dt (fun t => windowCloseAct t u f) s

/-- FSYNC_ARM (R164, R165): FSYNC_CTL is written with ARM = 1. -/
def execFsyncArm (dt : Nat) (who : Who) (n : Nat) (v : Word) (s : State) : Host.Outcome State Fault Refusal :=
  act dt (fun t => regWrite t who (fsyncBase n + 0x10) (v ||| 1)) s

/-- FSYNC_DISARM (R165): FSYNC_CTL is written with ARM = 0. -/
def execFsyncDisarm (dt : Nat) (who : Who) (n : Nat) (v : Word) (s : State) : Host.Outcome State Fault Refusal :=
  act dt (fun t => regWrite t who (fsyncBase n + 0x10) (v &&& ~~~1)) s

/-- FSYNC_PULSE (R144, R145, R165): a pulse of a frame-sync output begins. -/
def execFsyncPulse (dt : Nat) (n : Nat) (s : State) : Host.Outcome State Fault Refusal :=
  actLive dt (fun t => pulse t n) s

/-- FRAME_START (R101, R103, R142, R144): a frame start packet arrives. -/
def execFrameStart (dt : Nat) (port : Nat) (vc : Nat) (num : Nat) (fix : Bool) (s : State) : Host.Outcome State Fault Refusal :=
  actLive dt (fun t => toCtx t port vc none fix false (fun n x => startOn (boundary .cams) x n num)) s

/-- LINE_PACKET (R136, R139, R147, R148): a long packet of pixel data arrives. -/
def execLinePacket (dt : Nat) (port : Nat) (vc : Nat) (ty : Nat) (bytes : List Byte) (bad : Bool) (fix : Bool) (s : State) : Host.Outcome State Fault Refusal :=
  actLive dt (fun t => linePkt t port vc ty bytes bad fix) s

/-- EMBEDDED_PACKET (R136, R151): a long packet of embedded data arrives. -/
def execEmbeddedPacket (dt : Nat) (port : Nat) (vc : Nat) (ty : Nat) (bytes : List Byte) (bad : Bool) (fix : Bool) (s : State) : Host.Outcome State Fault Refusal :=
  actLive dt (fun t => embPkt t port vc ty bytes bad fix) s

/-- GENERIC_SHORT_PACKET (R136): a generic short packet arrives. -/
def execGenericShortPacket (dt : Nat) (port : Nat) (fix : Bool) (s : State) : Host.Outcome State Fault Refusal :=
  actLive dt (fun t => shortPacket t port fix) s

/-- HEADER_UNCORRECTABLE (R138, R150, R171): a packet header is lost, in a burst that began well or with a start-of-transmission error. -/
def execHeaderUncorrectable (dt : Nat) (burst : LostHeader) (s : State) : Host.Outcome State Fault Refusal :=
  actLive dt (fun t => headerBad t burst.port burst.sot) s

/-- FRAME_END (R142, R147, R149): a frame end packet arrives. -/
def execFrameEnd (dt : Nat) (port : Nat) (vc : Nat) (_num : Nat) (fix : Bool) (s : State) : Host.Outcome State Fault Refusal :=
  actLive dt (fun t => endPkt t port vc fix) s

/-- FRAME_TIMEOUT (R150): an open frame has waited FRAME_TIMEOUT. -/
def execFrameTimeout (dt : Nat) (n : Nat) (s : State) : Host.Outcome State Fault Refusal :=
  actLive dt (fun t => frameTimeoutAct t n) s

/-- LINK_DOWN (R171): a camera port loses lock. -/
def execLinkDown (dt : Nat) (port : Nat) (s : State) : Host.Outcome State Fault Refusal :=
  actLive dt (fun t => camLinkDown t port) s

/-- REPLAY_FRAME_ITEM (R166, R167, R170): a replay channel injects a frame. -/
def execReplayFrameItem (dt : Nat) (r : Nat) (s : State) : Host.Outcome State Fault Refusal :=
  actLive dt (fun t => replayItem (boundary .cams) (boundary .rpl r t) r 1) s

/-- REPLAY_DROP_ITEM (R51, R167): a replay channel replays a drop. -/
def execReplayDropItem (dt : Nat) (r : Nat) (s : State) : Host.Outcome State Fault Refusal :=
  actLive dt (fun t => replayItem (boundary .cams) t r 2) s

/-- REPLAY_END_ITEM (R167): a replay list ends. -/
def execReplayEndItem (dt : Nat) (r : Nat) (s : State) : Host.Outcome State Fault Refusal :=
  actLive dt (fun t => replayItem (boundary .cams) t r 3) s

end Sys2Proof.Machine
end

