-- ==== Sys2Proof/Machine/CoreCommands.lean ====
section
/-! DEFINITION. The commands of the neural cores: one meaning for each. -/

namespace Sys2Proof.Machine
open Sys2Proof

/-- NC_RUN (R310 to R314): a core enters its task's program. -/
def execNcRun (dt : Nat) (u : Nat) (s : State) : Host.Outcome State Fault Refusal :=
  actLive dt (onUnit .nc u (fun t => ncRunAct (itraceSync t u) u)) s

/-- NC_MMA (R309, R325): a matrix multiplication is queued. -/
def execNcMma (dt : Nat) (u : Nat) (s : State) : Host.Outcome State Fault Refusal :=
  actLive dt (onCore u (traced u (fun t => ncCustom 0 t u))) s

/-- NC_MDRAIN (R309, R327): a drain is queued. -/
def execNcMdrain (dt : Nat) (u : Nat) (s : State) : Host.Outcome State Fault Refusal :=
  actLive dt (onCore u (traced u (fun t => ncCustom 1 t u))) s

/-- NC_MRAWST (R309, R330): a raw store is queued. -/
def execNcMrawst (dt : Nat) (u : Nat) (s : State) : Host.Outcome State Fault Refusal :=
  actLive dt (onCore u (traced u (fun t => ncCustom 2 t u))) s

/-- NC_MRAWADD (R309, R330): a raw addition is queued. -/
def execNcMrawadd (dt : Nat) (u : Nat) (s : State) : Host.Outcome State Fault Refusal :=
  actLive dt (onCore u (traced u (fun t => ncCustom 3 t u))) s

/-- NC_SE (R309, R320): a stream command is queued. -/
def execNcSe (dt : Nat) (u : Nat) (s : State) : Host.Outcome State Fault Refusal :=
  actLive dt (onCore u (traced u (fun t => ncCustom 4 t u))) s

/-- NC_WAIT (R320, R323): the task waits for a ticket. -/
def execNcWait (dt : Nat) (u : Nat) (s : State) : Host.Outcome State Fault Refusal :=
  actLive dt (onCore u (traced u (fun t => ncCustom 5 t u))) s

/-- NC_LPOP (R320, R323, R453): a ladle handle is popped. -/
def execNcLpop (dt : Nat) (u : Nat) (s : State) : Host.Outcome State Fault Refusal :=
  actLive dt (onCore u (traced u (fun t => ncCustom 6 t u))) s

/-- NC_RSIG (R320, R343): a ring signal is sent. -/
def execNcRsig (dt : Nat) (u : Nat) (s : State) : Host.Outcome State Fault Refusal :=
  actLive dt (onCore u (traced u (fun t => ncCustom 7 t u))) s

/-- NC_RWAIT (R320, R323, R343): the task waits for a ring counter. -/
def execNcRwait (dt : Nat) (u : Nat) (s : State) : Host.Outcome State Fault Refusal :=
  actLive dt (onCore u (traced u (fun t => ncCustom 8 t u))) s

/-- NC_FENCE (R320, R322): the task waits for everything it issued. -/
def execNcFence (dt : Nat) (u : Nat) (s : State) : Host.Outcome State Fault Refusal :=
  actLive dt (onCore u (traced u (fun t => ncCustom 9 t u))) s

/-- NC_END (R320, R324): the task's program ends. -/
def execNcEnd (dt : Nat) (u : Nat) (s : State) : Host.Outcome State Fault Refusal :=
  actLive dt (onCore u (traced u (fun t => ncCustom 10 t u))) s

/-- SCALAR_INSTRUCTION (R309, R315 to R319): one RV64IMAC instruction runs. -/
def execScalarInstruction (dt : Nat) (u : Nat) (s : State) : Host.Outcome State Fault Refusal :=
  actLive dt (onCore u (traced u (fun t => scalarAct t u))) s

/-- VECTOR_INSTRUCTION (R336 to R338): one RVV 1.0 instruction runs. -/
def execVectorInstruction (dt : Nat) (u : Nat) (s : State) : Host.Outcome State Fault Refusal :=
  actLive dt (onCore u (traced u (fun t => vectorAct t u))) s

/-- MATRIX_COMMAND_COMPLETE (R325 to R335): the oldest matrix command completes. -/
def execMatrixCommandComplete (dt : Nat) (u : Nat) (s : State) : Host.Outcome State Fault Refusal :=
  actLive dt (onCore u (fun t => matrixAct t u)) s

/-- RING_SIGNAL_ARRIVE (R343, R344): a ring signal reaches its core. -/
def execRingSignalArrive (dt : Nat) (u : Nat) (s : State) : Host.Outcome State Fault Refusal :=
  actLive dt (fun t => ringSignalAct t u) s

end Sys2Proof.Machine
end

