-- ==== Sys2Proof/Machine/DebugCommands.lean ====
section
/-! DEFINITION. The commands of counters, trace, stop and JTAG: one meaning for each. -/

namespace Sys2Proof.Machine
open Sys2Proof

/-- FREEZE (R578): the counters are to freeze. -/
def execFreeze (dt : Nat) (who : Who) (s : State) : Host.Outcome State Fault Refusal :=
  act dt (fun t => regWrite t who (db 0x100) 1) s

/-- UNFREEZE (R578, R579): the counters are to go on. -/
def execUnfreeze (dt : Nat) (who : Who) (s : State) : Host.Outcome State Fault Refusal :=
  act dt (fun t => regWrite t who (db 0x100) 2) s

/-- FREEZE_INSTANT (R578, R579): the instant comes. -/
def execFreezeInstant (dt : Nat) (s : State) : Host.Outcome State Fault Refusal :=
  act dt freezeInstantAct s

/-- GLOBAL_STOP (R593 to R595): every block stops. -/
def execGlobalStop (dt : Nat) (who : Who) (s : State) : Host.Outcome State Fault Refusal :=
  act dt (fun t => regWrite t who (db 0x110) 1) s

/-- GC_CLEAR (R577): the global counters are cleared. -/
def execGcClear (dt : Nat) (who : Who) (s : State) : Host.Outcome State Fault Refusal :=
  act dt (fun t => regWrite t who (db 0x310) 1) s

/-- MEMRD (R599): a row of a stopped memory is read out. -/
def execMemrd (dt : Nat) (who : Who) (v : Word) (s : State) : Host.Outcome State Fault Refusal :=
  act dt (fun t => regWrite t who (db 0x328) v) s

/-- TRIG_ARM (R589): the trigger is armed. -/
def execTrigArm (dt : Nat) (who : Who) (v : Word) (s : State) : Host.Outcome State Fault Refusal :=
  act dt (fun t => regWrite t who (db 0x120) (v ||| 0x8000_0000)) s

/-- SCAN_RESTART (R598): the shift of a chain begins anew. -/
def execScanRestart (dt : Nat) (who : Who) (v : Word) (s : State) : Host.Outcome State Fault Refusal :=
  act dt (fun t => regWrite t who (db 0xC00) (v ||| 0x100)) s

/-- SCAN_DATA_READ (R598): the next 32 bits of the chain are read. -/
def execScanDataRead (dt : Nat) (who : Who) (s : State) : Host.Outcome State Fault Refusal :=
  act dt (fun t => scanRead t who) s

/-- BYPASS (R597): the bypass register is shifted. -/
def execBypass (dt : Nat) (bits : List Bool) (s : State) : Host.Outcome State Fault Refusal :=
  act dt (fun t => bypassAct t bits) s

/-- IDCODE (R597): the identification register is shifted. -/
def execIdcode (dt : Nat) (bits : List Bool) (s : State) : Host.Outcome State Fault Refusal :=
  act dt (fun t => idcodeAct t bits) s

/-- SAMPLE/PRELOAD (R597): the boundary cells capture the pins and are loaded. -/
def execSamplePreload (dt : Nat) (pins : List Bool) (bits : List Bool) (s : State) : Host.Outcome State Fault Refusal :=
  act dt (fun t => sampleAct t pins bits) s

/-- EXTEST (R597): the boundary cells drive the pins. -/
def execExtest (dt : Nat) (pins : List Bool) (bits : List Bool) (s : State) : Host.Outcome State Fault Refusal :=
  act dt (fun t => extestAct t pins bits) s

/-- GSTOP (R593, R597): a global stop through JTAG. -/
def execGstop (dt : Nat) (s : State) : Host.Outcome State Fault Refusal :=
  act dt gstopAct s

/-- SCAN_SEL (R597, R598): a scan chain is selected. -/
def execScanSel (dt : Nat) (bits : List Bool) (s : State) : Host.Outcome State Fault Refusal :=
  act dt (fun t => scanSelAct t bits) s

/-- SCAN_DR (R597, R598): a scan chain is shifted. -/
def execScanDr (dt : Nat) (bits : List Bool) (s : State) : Host.Outcome State Fault Refusal :=
  act dt (fun t => scanDrAct t bits) s

end Sys2Proof.Machine
end

