-- ==== Sys2Proof/Machine/EngineCommands.lean ====
section
/-! DEFINITION. The commands of the image pipes, the vision engines and the Feature Match Store: one meaning for each. -/

namespace Sys2Proof.Machine
open Sys2Proof

/-- ISP_FRAME (R175 to R206): an image pipe processes one frame. -/
def execIspFrame (dt : Nat) (u : Nat) (s : State) : Host.Outcome State Fault Refusal :=
  actLive dt (onUnit .isp u (fun t => ispAct t u)) s

/-- PYR_BUILD (R211, R213 to R217): pyramid levels are built. -/
def execPyrBuild (dt : Nat) (u : Nat) (s : State) : Host.Outcome State Fault Refusal :=
  actLive dt (onUnit .pyr u (fun t => pyrAct t u)) s

/-- WARP_MESH (R212, R218 to R222): a view is warped by a mesh. -/
def execWarpMesh (dt : Nat) (u : Nat) (s : State) : Host.Outcome State Fault Refusal :=
  actLive dt (onUnit .warp u (fun t => warpMeshAct t u)) s

/-- WARP_HOMOGRAPHY (R212, R219 to R222): a view is warped by a homography. -/
def execWarpHomography (dt : Nat) (u : Nat) (s : State) : Host.Outcome State Fault Refusal :=
  actLive dt (onUnit .warp u (fun t => warpHomAct t u)) s

/-- STR_DISPARITY (R231 to R252): disparities of one tile are computed. -/
def execStrDisparity (dt : Nat) (u : Nat) (s : State) : Host.Outcome State Fault Refusal :=
  actLive dt (onUnit .str u (fun t => strAct t u)) s

/-- FLW_FLOW (R257 to R278): optical flow and scene flow of one tile are computed. -/
def execFlwFlow (dt : Nat) (u : Nat) (s : State) : Host.Outcome State Fault Refusal :=
  actLive dt (onUnit .flw u (fun t => flwAct t u)) s

/-- FTR_DETECT (R283 to R295, R303): features are detected and described. -/
def execFtrDetect (dt : Nat) (u : Nat) (s : State) : Host.Outcome State Fault Refusal :=
  actLive dt (onUnit .ftr u (fun t => ftrDetectAct t u)) s

/-- FTR_MATCH (R295, R303): features are matched against a set. -/
def execFtrMatch (dt : Nat) (u : Nat) (s : State) : Host.Outcome State Fault Refusal :=
  actLive dt (onUnit .ftr u (fun t => ftrMatchAct t u)) s

/-- FMS_LOAD (R299, R303): a task loads a match set. -/
def execFmsLoad (dt : Nat) (u : Nat) (s : State) : Host.Outcome State Fault Refusal :=
  actLive dt (onUnit .ftr u (fun t => fmsLoadAct t u)) s

/-- LOAD_GO (R299, R302, R308): the host asks for a load of a match set. -/
def execLoadGo (dt : Nat) (who : Who) (v : Word) (s : State) : Host.Outcome State Fault Refusal :=
  act dt (fun t => regWrite t who (fmsPg + 0x14C) (v ||| 0x100)) s

/-- LOAD_CLEAR (R299, R302, R308): the host asks to clear a match set. -/
def execLoadClear (dt : Nat) (who : Who) (v : Word) (s : State) : Host.Outcome State Fault Refusal :=
  act dt (fun t => regWrite t who (fmsPg + 0x14C) ((v &&& ~~~0x100) ||| 0x200)) s

/-- SET_OWN_WRITE (R297, R308): the set that FMS_SEL shows is assigned. -/
def execSetOwnWrite (dt : Nat) (who : Who) (v : Word) (s : State) : Host.Outcome State Fault Refusal :=
  act dt (fun t => regWrite t who (fmsPg + 0x118) v) s

/-- FMS_LOAD_START (R298, R299): a queued load begins. -/
def execFmsLoadStart (dt : Nat) (s : State) : Host.Outcome State Fault Refusal :=
  actLive dt (fun t => loadStart (boundary .fms 0 t)) s

/-- FMS_VERSION_SWITCH (R299, R301): a loaded version becomes current. -/
def execFmsVersionSwitch (dt : Nat) (s : State) : Host.Outcome State Fault Refusal :=
  actLive dt versionSwitch s

end Sys2Proof.Machine
end

