-- ==== Sys2Proof/Machine/HostCommands.lean ====
section
/-! DEFINITION. The commands of the command windows and of the package: one meaning for each. -/

namespace Sys2Proof.Machine
open Sys2Proof

/-- LOAD_GRAPH (R79, R80, R99): a graph image is checked and enters the sequencer tables. -/
def execLoadGraph (dt : Nat) (p : Nat) (args : Option (List Word)) (s : State) : Host.Outcome State Fault Refusal :=
  act dt (fun t => cmdRow 1 p args (loadReasons p) (loadAct p) t) s

/-- IMAGE_RESIDENT (R80): the image is resident and LOAD_GRAPH completes. -/
def execImageResident (dt : Nat) (g : Nat) (s : State) : Host.Outcome State Fault Refusal :=
  actLive dt (fun t => residentAct t g) s

/-- UNLOAD_GRAPH (R79, R80): the graph index becomes free. -/
def execUnloadGraph (dt : Nat) (p : Nat) (args : Option (List Word)) (s : State) : Host.Outcome State Fault Refusal :=
  act dt (fun t => cmdRow 2 p args (unloadReasons p) unloadAct t) s

/-- START_GRAPH (R40, R41, R80, R100): the graph is bound and starts. -/
def execStartGraph (dt : Nat) (p : Nat) (args : Option (List Word)) (s : State) : Host.Outcome State Fault Refusal :=
  act dt (fun t => cmdRow 3 p args (startReasons p) (startAct p) t) s

/-- STOP_GRAPH (R80, R85, R130, R653, R656): formation stops; the graph drains or is cancelled. -/
def execStopGraph (dt : Nat) (p : Nat) (args : Option (List Word)) (s : State) : Host.Outcome State Fault Refusal :=
  act dt (fun t => cmdRow 4 p args (stopReasons p) (fun w h x => stopGraphAct x (argN w 0) h (bitOf (argN w 1) 0)) t) s

/-- RUN_ONCE (R80, R101, R109): one sequence of a COMMAND trigger's flow is reserved. -/
def execRunOnce (dt : Nat) (p : Nat) (args : Option (List Word)) (s : State) : Host.Outcome State Fault Refusal :=
  act dt (fun t => cmdRow 5 p args (runReasons p) runAct t) s

/-- DMA_COPY (R80, R432, R444): a copy enters a channel of the partition. -/
def execDmaCopy (dt : Nat) (p : Nat) (args : Option (List Word)) (s : State) : Host.Outcome State Fault Refusal :=
  act dt (fun t => cmdRow 6 p args (copyReasons p) (copyAct p) t) s

/-- SET_OPP (R80, R552, R553): the operating point is requested. -/
def execSetOpp (dt : Nat) (p : Nat) (args : Option (List Word)) (s : State) : Host.Outcome State Fault Refusal :=
  act dt (fun t => cmdRow 7 p args (oppReasons p) oppAct t) s

/-- QUERY (R80): a packed result is written to memory. -/
def execQuery (dt : Nat) (p : Nat) (args : Option (List Word)) (s : State) : Host.Outcome State Fault Refusal :=
  act dt (fun t => cmdRow 8 p args (queryReasons p) (queryAct p) t) s

/-- COAL_TIME_EXPIRY (R86): the oldest record not signalled has waited COAL_TIME. -/
def execCoalTimeExpiry (dt : Nat) (p : Nat) (s : State) : Host.Outcome State Fault Refusal :=
  act dt (fun t => live (fun x => coalExpire x p) t) s

/-- FUNCTION_LEVEL_RESET (R88): one partition's graphs, handles and command window are reset. -/
def execFunctionLevelReset (dt : Nat) (n : Nat) (s : State) : Host.Outcome State Fault Refusal :=
  act dt (fun t => flrAct t n) s

/-- CONVENTIONAL_RESET (R89): a warm start. -/
def execConventionalReset (dt : Nat) (s : State) : Host.Outcome State Fault Refusal :=
  act dt (fun t => requestStart t false) s

/-- BAR2_ACCESS (R34, R64): the function's window on its partition's HBM. -/
def execBar2Access (dt : Nat) (n : Nat) (a : Nat) (len : Nat) (wr : Option (List Byte)) (s : State) : Host.Outcome State Fault Refusal :=
  actAny dt (fun t => bar2Act t n a len wr) s

/-- BAR4_ACCESS (R34, R65): scratchpads and tile memory through PF0. -/
def execBar4Access (dt : Nat) (n : Nat) (a : Nat) (len : Nat) (wr : Option (List Byte)) (s : State) : Host.Outcome State Fault Refusal :=
  actAny dt (fun t => bar4Act t n a len wr) s

end Sys2Proof.Machine
end

