-- ==== Sys2Proof/Machine/MoverCommands.lean ====
section
/-! DEFINITION. The commands of the stream engines, DMA, HBM and the mesh: one meaning for each. -/

namespace Sys2Proof.Machine
open Sys2Proof

/-- STREAM_ARM (R426, R427): the stream queue's head enters a slot of its stream. -/
def execStreamArm (dt : Nat) (vs : Bool) (u : Nat) (k : Nat) (s : State) : Host.Outcome State Fault Refusal :=
  actLive dt (fun t => let m := if vs then Mover.vs u k else .nc u k; onMover m (fun x => streamArmAct x m) t) s

/-- DESCRIPTOR_BATCH (R427, R428): a list processor reads and checks descriptor pairs. -/
def execDescriptorBatch (dt : Nat) (m : Mover) (s : State) : Host.Outcome State Fault Refusal :=
  actLive dt (fun t => onMover m (fun x => fetchBatch x m) t) s

/-- STREAM_COMMAND_COMPLETE (R429 to R432): a command's last byte is written. -/
def execStreamCommandComplete (dt : Nat) (m : Mover) (s : State) : Host.Outcome State Fault Refusal :=
  actLive dt (fun t => onMover m (fun x => completeCmd x m) t) s

/-- FAULT_HALT (R439, R440): a stream or channel halts at the element that fails. -/
def execFaultHalt (dt : Nat) (m : Mover) (s : State) : Host.Outcome State Fault Refusal :=
  actLive dt (fun t => onMover m (fun x => faultHalt x m) t) s

/-- DMA_RETRY (R445): a transfer that met an error response is retried. -/
def execDmaRetry (dt : Nat) (c : Nat) (s : State) : Host.Outcome State Fault Refusal :=
  actLive dt (fun t => onMover (.ch c) (fun x => dmaRetryAct x c) t) s

/-- DMA_BURST (R446, R447): a paced burst is written. -/
def execDmaBurst (dt : Nat) (c : Nat) (line : Bool) (s : State) : Host.Outcome State Fault Refusal :=
  actLive dt (fun t => onMover (.ch c) (fun x => burstAct x c line) t) s

/-- MOVE (R444): a channel takes the task in its slot. -/
def execMove (dt : Nat) (c : Nat) (s : State) : Host.Outcome State Fault Refusal :=
  actLive dt (fun t => onMover (.ch c) (fun x => moveAct x c) t) s

/-- SE_RESUME (R441): a halted stream restarts. -/
def execSeResume (dt : Nat) (who : Who) (vs : Bool) (u : Nat) (k : Nat) (s : State) : Host.Outcome State Fault Refusal :=
  act dt (fun t => regWrite t who (pg (if vs then .vse else .ncse) u + 0x108) (BitVec.ofNat 32 k)) s

/-- CH_RESUME (R441): a halted channel restarts. -/
def execChResume (dt : Nat) (who : Who) (c : Nat) (s : State) : Host.Outcome State Fault Refusal :=
  act dt (fun t => regWrite t who (pg .dma 0 + 0x21C + 0x20 * c) 1) s

/-- CH_STOP (R449): a channel's copy is stopped. -/
def execChStop (dt : Nat) (who : Who) (c : Nat) (s : State) : Host.Outcome State Fault Refusal :=
  act dt (fun t => regWrite t who (pg .dma 0 + 0x21C + 0x20 * c) 2) s

/-- RESUME_TIMEOUT (R441): a halt becomes final for want of a resume. -/
def execResumeTimeout (dt : Nat) (m : Mover) (s : State) : Host.Outcome State Fault Refusal :=
  actLive dt (fun t => onMover m (fun x => resumeExpire x m) t) s

/-- XLAT_INV (R465): an invalidation of cached translations starts. -/
def execXlatInv (dt : Nat) (who : Who) (v : Word) (s : State) : Host.Outcome State Fault Refusal :=
  act dt (fun t => regWrite t who (nocPg + 0x148) v) s

/-- XLAT_INV_DONE (R465, R651): an invalidation completes. -/
def execXlatInvDone (dt : Nat) (p : Nat) (s : State) : Host.Outcome State Fault Refusal :=
  actLive dt (fun t => invDone t p) s

/-- ERR_POP (R469, R477): the oldest HBM error record is removed. -/
def execErrPop (dt : Nat) (who : Who) (n : Nat) (s : State) : Host.Outcome State Fault Refusal :=
  act dt (fun t => regWrite t who (hbmPg n + 0x184) 1) s

/-- SCRUB (R469, R470): the scrubber reads a word. -/
def execScrub (dt : Nat) (n : Nat) (word : Nat) (err : Nat) (s : State) : Host.Outcome State Fault Refusal :=
  actLive dt (fun t => scrubAct t n word err) s

/-- NOC_CRC_FAIL (R476): a mesh packet fails its CRC. -/
def execNocCrcFail (dt : Nat) (fails : Nat) (s : State) : Host.Outcome State Fault Refusal :=
  actLive dt (fun t => nocCrcAct t fails) s

end Sys2Proof.Machine
end

