-- ==== Sys2Proof/Machine/PowerCommands.lean ====
section
/-! DEFINITION. The commands of power and thermal control: one meaning for each. -/

namespace Sys2Proof.Machine
open Sys2Proof

/-- PWR_TICK (R551, R552, R564, R566, R567, R569): the 1 ms tick. -/
def execPwrTick (dt : Nat) (s : State) : Host.Outcome State Fault Refusal :=
  act dt (fun t => if since t t.pwr.tickAt < 1000000 then t else tickAct (pwrCommit t)) s

/-- ACTIVITY_SAMPLE (R563, R565): the estimator takes one µs of activity. -/
def execActivitySample (dt : Nat) (acts : List (Nat × Nat × List Nat)) (s : State) : Host.Outcome State Fault Refusal :=
  act dt (fun t => activityAct t acts) s

/-- PMBUS_POLL (R561, R562): a regulator is read. -/
def execPmbusPoll (dt : Nat) (rail : Nat) (code : Nat) (val : Option Nat) (s : State) : Host.Outcome State Fault Refusal :=
  act dt (fun t => pmbusAct t rail code val) s

/-- PMBUS_ALERT (R562): a regulator raises its alert. -/
def execPmbusAlert (dt : Nat) (rail : Nat) (status : Nat) (s : State) : Host.Outcome State Fault Refusal :=
  act dt (fun t => pmbusAlertAct t rail status) s

/-- VOUT_COMMAND_ACK (R553, R561): a regulator answers VOUT_COMMAND. -/
def execVoutCommandAck (dt : Nat) (ok : Bool) (s : State) : Host.Outcome State Fault Refusal :=
  act dt (fun t => voutAckAct t ok) s

/-- VSETTLE_EXPIRY (R553): the supply has settled. -/
def execVsettleExpiry (dt : Nat) (s : State) : Host.Outcome State Fault Refusal :=
  act dt settleAct s

/-- PLL_LOCK_DONE (R553): the standby PLLs have locked. -/
def execPllLockDone (dt : Nat) (ok : Bool) (s : State) : Host.Outcome State Fault Refusal :=
  act dt (fun t => lockDoneAct t ok) s

/-- PLL_SWITCH (R553): every core's clock moves to its standby PLL. -/
def execPllSwitch (dt : Nat) (s : State) : Host.Outcome State Fault Refusal :=
  act dt switchAct s

/-- DROOP_TRIP (R555, R556, R633): droop detectors trip; below the setpoint less 60 mV the behaviour is undefined. -/
def execDroopTrip (dt : Nat) (mv : List Nat) (s : State) : Host.Outcome State Fault Refusal :=
  droopOutcome dt mv s

/-- DROOP_LEVEL_STEP (R557): the droop level falls by a step. -/
def execDroopLevelStep (dt : Nat) (s : State) : Host.Outcome State Fault Refusal :=
  act dt droopStepAct s

/-- RAIL_QUIET (R557): the rail is quiet again. -/
def execRailQuiet (dt : Nat) (s : State) : Host.Outcome State Fault Refusal :=
  act dt railQuietAct s

/-- THERMAL_SAMPLE (R568, R569): the sensors are read. -/
def execThermalSample (dt : Nat) (temps : List Int) (s : State) : Host.Outcome State Fault Refusal :=
  act dt (fun t => thermalAct t temps) s

/-- EMERG_LEVEL_STEP (R569, R570): the emergency level falls by a step. -/
def execEmergLevelStep (dt : Nat) (s : State) : Host.Outcome State Fault Refusal :=
  act dt emergStepAct s

/-- THERMAL_SHUTDOWN (R571): the device shuts down and asserts THERMTRIP. -/
def execThermalShutdown (dt : Nat) (s : State) : Host.Outcome State Fault Refusal :=
  act dt shutdownAct s

/-- PHASE_CLEAR (R565, R572): the selected phase entry is cleared. -/
def execPhaseClear (dt : Nat) (who : Who) (v : Word) (s : State) : Host.Outcome State Fault Refusal :=
  act dt (fun t => regWrite t who (pw 0x318) ((v &&& ~~~2) ||| 1)) s

/-- PHASE_CLEAR_ALL (R565, R572): every phase entry is cleared. -/
def execPhaseClearAll (dt : Nat) (who : Who) (s : State) : Host.Outcome State Fault Refusal :=
  act dt (fun t => regWrite t who (pw 0x318) 2) s

end Sys2Proof.Machine
end

