-- ==== Sys2Proof/Machine/RegisterCommands.lean ====
section
/-! DEFINITION. The commands that write or read registers of every page: one meaning for each. -/

namespace Sys2Proof.Machine
open Sys2Proof

/-- COMMIT (R71): 1 is written to BLK_COMMIT of a page. -/
def execCommit (dt : Nat) (who : Who) (page : Nat) (s : State) : Host.Outcome State Fault Refusal :=
  act dt (fun t => regWrite t who (page / 0x1000 * 0x1000 + 0x20) 1) s

/-- COMMIT_APPLIED (R71, R72): a pending commit reaches the block's boundary. -/
def execCommitApplied (dt : Nat) (page : Nat) (s : State) : Host.Outcome State Fault Refusal :=
  act dt (fun t => commitApplied t page) s

/-- SOFT_RESET (R74): BLK_CTL is written with SOFT_RESET = 1. -/
def execSoftReset (dt : Nat) (who : Who) (page : Nat) (s : State) : Host.Outcome State Fault Refusal :=
  act dt (fun t => regWrite t who (page / 0x1000 * 0x1000 + 0x08) 2) s

/-- BLK_PART_WRITE (R28): BLK_PART of a page is written. -/
def execBlkPartWrite (dt : Nat) (who : Who) (page : Nat) (v : Word) (s : State) : Host.Outcome State Fault Refusal :=
  act dt (fun t => regWrite t who (page / 0x1000 * 0x1000 + 0x24) v) s

/-- SCRATCHPAD_CLEAR_DONE (R387): the clear that follows a change of a core's owner ends. -/
def execScratchpadClearDone (dt : Nat) (u : Nat) (s : State) : Host.Outcome State Fault Refusal :=
  act dt (live (fun t => spadClearDone t u)) s

/-- TILE_CLEAR_DONE (R400): the granules that enter a region are cleared, and the commit completes. -/
def execTileClearDone (dt : Nat) (s : State) : Host.Outcome State Fault Refusal :=
  act dt (live tileClearDone) s

/-- BLK_ERR_INJ (R66): injections of a page are triggered. -/
def execBlkErrInj (dt : Nat) (who : Who) (page : Nat) (v : Word) (s : State) : Host.Outcome State Fault Refusal :=
  act dt (fun t => regWrite t who (page / 0x1000 * 0x1000 + 0x1C) v) s

/-- REGISTER_WRITE (R13, R16, R25, R66, R90): a 32-bit write of BAR0. -/
def execRegisterWrite (dt : Nat) (who : Who) (a : Nat) (v : Word) (s : State) : Host.Outcome State Fault Refusal :=
  act dt (fun t => regWrite t who a v) s

/-- IRQ_ENABLE_WRITE (R87): an interrupt enable or an IRQ_ROUTE entry is written. -/
def execIrqEnableWrite (dt : Nat) (who : Who) (a : Nat) (v : Word) (s : State) : Host.Outcome State Fault Refusal :=
  act dt (fun t => regWrite t who a v) s

/-- CPL_RD_IDX_WRITE (R83, R651, R652): completion records are consumed. -/
def execCplRdIdxWrite (dt : Nat) (who : Who) (p : Nat) (v : Word) (s : State) : Host.Outcome State Fault Refusal :=
  act dt (fun t => regWrite t who (cw p + 0x160) v) s

/-- DLOG_RD_IDX_WRITE (R47, R651, R652): frame-drop log entries are consumed. -/
def execDlogRdIdxWrite (dt : Nat) (who : Who) (p : Nat) (v : Word) (s : State) : Host.Outcome State Fault Refusal :=
  act dt (fun t => regWrite t who (dl p + 0x10) v) s

/-- VR_RD_IDX_WRITE (R525, R651, R652): verdict records are consumed. -/
def execVrRdIdxWrite (dt : Nat) (who : Who) (v : Word) (s : State) : Host.Outcome State Fault Refusal :=
  act dt (fun t => regWrite t who (safePg + 0x130) v) s

/-- SINK_RD_IDX_WRITE (R587, R652): trace records are consumed. -/
def execSinkRdIdxWrite (dt : Nat) (who : Who) (k : Nat) (v : Word) (s : State) : Host.Outcome State Fault Refusal :=
  act dt (fun t => regWrite t who (sk k + 0x18) v) s

/-- DISC_RD_IDX_WRITE (R495, R652): discovery entries are consumed. -/
def execDiscRdIdxWrite (dt : Nat) (who : Who) (v : Word) (s : State) : Host.Outcome State Fault Refusal :=
  act dt (fun t => regWrite t who (rv 0x150) v) s

/-- CPL_LOG_CONFIG_WRITE (R84): the completion log is placed or sized. -/
def execCplLogConfigWrite (dt : Nat) (who : Who) (a : Nat) (v : Word) (s : State) : Host.Outcome State Fault Refusal :=
  act dt (fun t => regWrite t who a v) s

/-- DLOG_CONFIG_WRITE (R43, R48): a frame-drop log is placed or sized. -/
def execDlogConfigWrite (dt : Nat) (who : Who) (a : Nat) (v : Word) (s : State) : Host.Outcome State Fault Refusal :=
  act dt (fun t => regWrite t who a v) s

/-- VR_CONFIG_WRITE (R526): the verdict ring is placed or sized. -/
def execVrConfigWrite (dt : Nat) (who : Who) (a : Nat) (v : Word) (s : State) : Host.Outcome State Fault Refusal :=
  act dt (fun t => regWrite t who a v) s

/-- CPL_COAL_WRITE (R86): the coalescing conditions change. -/
def execCplCoalWrite (dt : Nat) (who : Who) (p : Nat) (v : Word) (s : State) : Host.Outcome State Fault Refusal :=
  act dt (fun t => regWrite t who (cw p + 0x16C) v) s

/-- FGS_GRANT_WRITE (R20, R21): firmware grants a partition. -/
def execFgsGrantWrite (dt : Nat) (who : Who) (p : Nat) (v : Word) (s : State) : Host.Outcome State Fault Refusal :=
  act dt (fun t => regWrite t who (fgsPg + 0x120 + 4 * p) v) s

/-- HIGH_WATER_READ (R457): HIGH_WATER of a ladle is read and cleared. -/
def execHighWaterRead (dt : Nat) (who : Who) (l : Nat) (s : State) : Host.Outcome State Fault Refusal :=
  act dt (fun t => clearingRead t who (pg .ladle l + 0x814)) s

/-- AGE_WORST_READ (R528): AGE_WORST of the slot shown is read and cleared. -/
def execAgeWorstRead (dt : Nat) (who : Who) (s : State) : Host.Outcome State Fault Refusal :=
  act dt (fun t => ageWorstAct t who) s

/-- LATCHING_LO_READ (R372): a low half is read and its high half latched. -/
def execLatchingLoRead (dt : Nat) (who : Who) (a : Nat) (s : State) : Host.Outcome State Fault Refusal :=
  act dt (fun t => latchRead t who a) s

/-- CMD_OPID_READ (R575, R576): the command counters of a unit are latched. -/
def execCmdOpidRead (dt : Nat) (who : Who) (b : Nat) (u : Nat) (s : State) : Host.Outcome State Fault Refusal :=
  act dt (fun t => opidRead t who b u) s

end Sys2Proof.Machine
end

