-- ==== Sys2Proof/Machine/SafetyCommands.lean ====
section
/-! DEFINITION. The commands of the safety island: one meaning for each. -/

namespace Sys2Proof.Machine
open Sys2Proof

/-- TASTER_WINDOW_DUE (R118, R530): a unit's taster window falls due. -/
def execTasterWindowDue (dt : Nat) (b : Nat) (u : Nat) (s : State) : Host.Outcome State Fault Refusal :=
  actLive dt (fun t => match blkOfCode b with | some x => tasterDueAct t x u | none => t) s

/-- TASTER_BEGIN (R118, R530, R531): a taster window begins. -/
def execTasterBegin (dt : Nat) (b : Nat) (u : Nat) (s : State) : Host.Outcome State Fault Refusal :=
  actLive dt (fun t => match blkOfCode b with | some x => tasterBeginAct t x u | none => t) s

/-- TASTER_END (R529, R531, R532): a taster window ends with its signature. -/
def execTasterEnd (dt : Nat) (b : Nat) (u : Nat) (fin : Bool) (sig : Option Nat) (s : State) : Host.Outcome State Fault Refusal :=
  actLive dt (fun t => match blkOfCode b with | some x => tasterEndAct t x u fin sig | none => t) s

/-- TASTER_WEDGED (R532): a due window could not begin in time. -/
def execTasterWedged (dt : Nat) (b : Nat) (u : Nat) (s : State) : Host.Outcome State Fault Refusal :=
  actLive dt (fun t => match blkOfCode b with | some x => tasterWedgedAct t x u | none => t) s

/-- DUAL_COMPARE (R536 to R540): the two copies of a task are compared. -/
def execDualCompare (dt : Nat) (s : State) : Host.Outcome State Fault Refusal :=
  actLive dt dualCompareAct s

/-- AGE_EXAMINE (R527): the age monitor examines its slots. -/
def execAgeExamine (dt : Nat) (s : State) : Host.Outcome State Fault Refusal :=
  actLive dt ageExamineAct s

/-- FAULT_REACTION (R517 to R522, R131): the island reacts to a fault. -/
def execFaultReaction (dt : Nat) (s : State) : Host.Outcome State Fault Refusal :=
  act dt faultReactionAct s

/-- LOCKSTEP (R514, R520): the island's cores diverge. -/
def execLockstep (dt : Nat) (s : State) : Host.Outcome State Fault Refusal :=
  act dt lockstepAct s

/-- CLOCK_MONITOR_WINDOW (R515): the clock monitor compares its counts. -/
def execClockMonitorWindow (dt : Nat) (counts : List Nat) (s : State) : Host.Outcome State Fault Refusal :=
  act dt (fun t => clockWindowAct t counts) s

/-- SAFE_HB (R518): the heartbeat output toggles. -/
def execSafeHb (dt : Nat) (s : State) : Host.Outcome State Fault Refusal :=
  act dt safeHbAct s

/-- FAULT_POP (R546, R547): the oldest fault record is removed. -/
def execFaultPop (dt : Nat) (who : Who) (s : State) : Host.Outcome State Fault Refusal :=
  act dt (fun t => regWrite t who (safePg + 0x144) 1) s

/-- SAFE_RELEASE (R517, R546): SAFE_N is deasserted. -/
def execSafeRelease (dt : Nat) (who : Who) (s : State) : Host.Outcome State Fault Refusal :=
  act dt (fun t => regWrite t who (safePg + 0x100) 1) s

/-- ISLAND_MEM_UE (R514, R520): an uncorrectable error in the island's memory. -/
def execIslandMemUe (dt : Nat) (s : State) : Host.Outcome State Fault Refusal :=
  act dt islandMemAct s

end Sys2Proof.Machine
end

