-- ==== Sys2Proof/Machine/SequencerCommands.lean ====
section
/-! DEFINITION. The commands of the frame-graph sequencer: one meaning for each. -/

namespace Sys2Proof.Machine
open Sys2Proof

/-- TIMER_TRIGGER (R101, R109): an instant of a timer passes. -/
def execTimerTrigger (dt : Nat) (g : Nat) (f : Nat) (s : State) : Host.Outcome State Fault Refusal :=
  actLive dt (fun t => timerAct t g f) s

/-- HAMPER_FORM (R42, R105 to R108): a hamper is formed. -/
def execHamperForm (dt : Nat) (s : State) : Host.Outcome State Fault Refusal :=
  actLive dt hamperFormAct s

/-- TASK_PREFETCH (R110, R113, R114): a ready task is placed in a unit's prefetched slot. -/
def execTaskPrefetch (dt : Nat) (s : State) : Host.Outcome State Fault Refusal :=
  actLive dt prefetchOne s

/-- TASK_END (R111, R112, R120, R124): a task leaves its running slot. -/
def execTaskEnd (dt : Nat) (b : Nat) (u : Nat) (s : State) : Host.Outcome State Fault Refusal :=
  actLive dt (fun t => taskEndAct t b u) s

/-- COLLECTOR_ENTRY (R124, R125): the collector takes one completion entry. -/
def execCollectorEntry (dt : Nat) (s : State) : Host.Outcome State Fault Refusal :=
  actLive dt collect s

/-- HAMPER_RELEASE (R126 to R128): a result is released in its flow's sequence. -/
def execHamperRelease (dt : Nat) (g : Nat) (f : Nat) (s : State) : Host.Outcome State Fault Refusal :=
  actLive dt (fun t => hamperReleaseAct t g f) s

/-- PARK (R116, R340): a waiting task leaves the running slot of a core. -/
def execPark (dt : Nat) (u : Nat) (s : State) : Host.Outcome State Fault Refusal :=
  actLive dt (onCore u (fun t => parkAct t u)) s

/-- RESUME (R117, R341): a parked task returns to the running slot. -/
def execResume (dt : Nat) (u : Nat) (s : State) : Host.Outcome State Fault Refusal :=
  actLive dt (onCore u (fun t => resumeAct t u)) s

end Sys2Proof.Machine
end

