-- ==== Sys2Proof/Machine/TransportCommands.lean ====
section
/-! DEFINITION. The commands of the Rolven transport: one meaning for each. -/

namespace Sys2Proof.Machine
open Sys2Proof

/-- BARRIER (R503, R504): a barrier task arrives and is released. -/
def execBarrier (dt : Nat) (k : Nat) (s : State) : Host.Outcome State Fault Refusal :=
  actLive dt (onUnit .rolv k (fun t => barrierAct t k)) s

/-- SIGNAL (R500, R501): a signal task sends its trigger. -/
def execSignal (dt : Nat) (k : Nat) (s : State) : Host.Outcome State Fault Refusal :=
  actLive dt (onUnit .rolv k (fun t => signalAct t k)) s

/-- WRITE (R482 to R491): a WRITE arrives. -/
def execWrite (dt : Nat) (link : Nat) (g : Dgram) (s : State) : Host.Outcome State Fault Refusal :=
  actLive dt (rxPacket 0x1 link g) s

/-- READ_REQ (R482 to R491): a READ_REQ arrives. -/
def execReadReq (dt : Nat) (link : Nat) (g : Dgram) (s : State) : Host.Outcome State Fault Refusal :=
  actLive dt (rxPacket 0x2 link g) s

/-- READ_RESP (R482 to R491): a READ_RESP arrives. -/
def execReadResp (dt : Nat) (link : Nat) (g : Dgram) (s : State) : Host.Outcome State Fault Refusal :=
  actLive dt (rxPacket 0x3 link g) s

/-- ACK (R484, R485): an ACK arrives. -/
def execAck (dt : Nat) (link : Nat) (g : Dgram) (s : State) : Host.Outcome State Fault Refusal :=
  actLive dt (rxPacket 0x4 link g) s

/-- NACK (R491): a NACK arrives. -/
def execNack (dt : Nat) (link : Nat) (g : Dgram) (s : State) : Host.Outcome State Fault Refusal :=
  actLive dt (rxPacket 0x5 link g) s

/-- CMD (R497, R498): a remote submission arrives. -/
def execCmd (dt : Nat) (link : Nat) (g : Dgram) (s : State) : Host.Outcome State Fault Refusal :=
  actLive dt (rxPacket 0x6 link g) s

/-- CMD_RESP (R497, R498): the answer to a remote submission arrives. -/
def execCmdResp (dt : Nat) (link : Nat) (g : Dgram) (s : State) : Host.Outcome State Fault Refusal :=
  actLive dt (rxPacket 0x7 link g) s

/-- TRIGGER (R500): a trigger message arrives. -/
def execTrigger (dt : Nat) (link : Nat) (g : Dgram) (s : State) : Host.Outcome State Fault Refusal :=
  actLive dt (rxPacket 0x8 link g) s

/-- CREDIT (R501): credits arrive. -/
def execCredit (dt : Nat) (link : Nat) (g : Dgram) (s : State) : Host.Outcome State Fault Refusal :=
  actLive dt (rxPacket 0x9 link g) s

/-- CREDIT_REQ (R501): a sender asks for credits. -/
def execCreditReq (dt : Nat) (link : Nat) (g : Dgram) (s : State) : Host.Outcome State Fault Refusal :=
  actLive dt (rxPacket 0xF link g) s

/-- ARRIVE (R503): a member arrives at a barrier. -/
def execArrive (dt : Nat) (link : Nat) (g : Dgram) (s : State) : Host.Outcome State Fault Refusal :=
  actLive dt (rxPacket 0xA link g) s

/-- RELEASE (R503): a barrier is released. -/
def execRelease (dt : Nat) (link : Nat) (g : Dgram) (s : State) : Host.Outcome State Fault Refusal :=
  actLive dt (rxPacket 0xB link g) s

/-- THROTTLE_NOTICE (R505): a peer throttles or no longer does. -/
def execThrottleNotice (dt : Nat) (link : Nat) (g : Dgram) (s : State) : Host.Outcome State Fault Refusal :=
  actLive dt (rxPacket 0xC link g) s

/-- KEEPALIVE (R486): a KEEPALIVE arrives. -/
def execKeepalive (dt : Nat) (link : Nat) (g : Dgram) (s : State) : Host.Outcome State Fault Refusal :=
  actLive dt (rxPacket 0xD link g) s

/-- HELLO (R494): a HELLO arrives. -/
def execHello (dt : Nat) (link : Nat) (g : Dgram) (s : State) : Host.Outcome State Fault Refusal :=
  actLive dt (fun t => helloAct t link g) s

/-- LLDP (R493, R495): an LLDP frame arrives. -/
def execLldp (dt : Nat) (link : Nat) (frame : List Byte) (s : State) : Host.Outcome State Fault Refusal :=
  actLive dt (fun t => lldpAct t link frame) s

/-- NEIGHBOUR_SOLICITATION (R481): an ARP or neighbour solicitation is answered. -/
def execNeighbourSolicitation (dt : Nat) (link : Nat) (frame : List Byte) (s : State) : Host.Outcome State Fault Refusal :=
  actLive dt (fun t => solicitAct t link frame) s

/-- RTO_EXPIRY (R485): unacknowledged packets are sent again. -/
def execRtoExpiry (dt : Nat) (peer : Nat) (s : State) : Host.Outcome State Fault Refusal :=
  actLive dt (fun t => rtoAct t peer) s

/-- ACK_TIMER (R485): packets received are acknowledged. -/
def execAckTimer (dt : Nat) (peer : Nat) (s : State) : Host.Outcome State Fault Refusal :=
  actLive dt (fun t => ackTimerAct t peer) s

/-- KEEPALIVE_TIMER (R486): a KEEPALIVE is sent. -/
def execKeepaliveTimer (dt : Nat) (peer : Nat) (s : State) : Host.Outcome State Fault Refusal :=
  actLive dt (fun t => keepaliveAct t peer) s

/-- PEER_TIMEOUT (R486, R507): a silent peer is down. -/
def execPeerTimeout (dt : Nat) (peer : Nat) (s : State) : Host.Outcome State Fault Refusal :=
  actLive dt (fun t => peerTimeoutAct t peer) s

/-- LINK_CHANGE (R511): a fabric link comes up or goes down. -/
def execLinkChange (dt : Nat) (link : Nat) (up : Bool) (s : State) : Host.Outcome State Fault Refusal :=
  actLive dt (fun t => linkChangeAct t link up) s

/-- LLDP_TIMER (R493): an LLDP frame is sent. -/
def execLldpTimer (dt : Nat) (link : Nat) (s : State) : Host.Outcome State Fault Refusal :=
  actLive dt (fun t => lldpTimerAct t link) s

/-- HELLO_TIMER (R494): a HELLO is sent. -/
def execHelloTimer (dt : Nat) (link : Nat) (s : State) : Host.Outcome State Fault Refusal :=
  actLive dt (fun t => helloTimer t link) s

/-- RATE_PERIOD (R487): a peer's rate is adjusted. -/
def execRatePeriod (dt : Nat) (peer : Nat) (s : State) : Host.Outcome State Fault Refusal :=
  actLive dt (fun t => rateAct t peer) s

/-- PTP_EVENT_MESSAGE (R509): a PTP message arrives. -/
def execPtpEventMessage (dt : Nat) (link : Nat) (msg : List Byte) (stamp : DWord) (s : State) : Host.Outcome State Fault Refusal :=
  actLive dt (fun t => ptpMessage t link msg stamp) s

/-- PTP_SYNC_LOSS (R510): synchronisation is lost. -/
def execPtpSyncLoss (dt : Nat) (s : State) : Host.Outcome State Fault Refusal :=
  actLive dt ptpLoss s

/-- PEER_READ (R496, R512): a peer entry is shown. -/
def execPeerRead (dt : Nat) (who : Who) (v : Word) (s : State) : Host.Outcome State Fault Refusal :=
  act dt (fun t => regWrite t who (rv 0x184) ((v &&& ~~~2) ||| 1)) s

/-- PEER_WRITE (R484, R496, R512): a peer entry is written. -/
def execPeerWrite (dt : Nat) (who : Who) (v : Word) (s : State) : Host.Outcome State Fault Refusal :=
  act dt (fun t => regWrite t who (rv 0x184) ((v &&& ~~~1) ||| 2)) s

/-- RSUB_OP (R497): a partition submits a command to a peer. -/
def execRsubOp (dt : Nat) (who : Who) (v : Word) (s : State) : Host.Outcome State Fault Refusal :=
  act dt (fun t => regWrite t who (rv (0x3004 + 0x100 * whoPart who)) v) s

end Sys2Proof.Machine
end

