-- ==== Sys2Proof/Machine/Dispatch.lean ====
section
/-! DEFINITION. One arm per command: each calls its meaning. -/

namespace Sys2Proof.Machine
open Sys2Proof

/-- What a command does to everything but the queue. -/
def exec (i : Instr) (s : State) : Host.Outcome State Fault Refusal :=
  match i with
  | .loadGraph dt p args => Sys2Proof.Machine.execLoadGraph dt p args s
  | .imageResident dt g => Sys2Proof.Machine.execImageResident dt g s
  | .unloadGraph dt p args => Sys2Proof.Machine.execUnloadGraph dt p args s
  | .startGraph dt p args => Sys2Proof.Machine.execStartGraph dt p args s
  | .stopGraph dt p args => Sys2Proof.Machine.execStopGraph dt p args s
  | .runOnce dt p args => Sys2Proof.Machine.execRunOnce dt p args s
  | .dmaCopy dt p args => Sys2Proof.Machine.execDmaCopy dt p args s
  | .setOpp dt p args => Sys2Proof.Machine.execSetOpp dt p args s
  | .query dt p args => Sys2Proof.Machine.execQuery dt p args s
  | .commit dt who page => Sys2Proof.Machine.execCommit dt who page s
  | .commitApplied dt page => Sys2Proof.Machine.execCommitApplied dt page s
  | .softReset dt who page => Sys2Proof.Machine.execSoftReset dt who page s
  | .blkPartWrite dt who page v => Sys2Proof.Machine.execBlkPartWrite dt who page v s
  | .scratchpadClearDone dt u => Sys2Proof.Machine.execScratchpadClearDone dt u s
  | .tileClearDone dt => Sys2Proof.Machine.execTileClearDone dt s
  | .blkErrInj dt who page v => Sys2Proof.Machine.execBlkErrInj dt who page v s
  | .registerWrite dt who a v => Sys2Proof.Machine.execRegisterWrite dt who a v s
  | .irqEnableWrite dt who a v => Sys2Proof.Machine.execIrqEnableWrite dt who a v s
  | .cplRdIdxWrite dt who p v => Sys2Proof.Machine.execCplRdIdxWrite dt who p v s
  | .dlogRdIdxWrite dt who p v => Sys2Proof.Machine.execDlogRdIdxWrite dt who p v s
  | .vrRdIdxWrite dt who v => Sys2Proof.Machine.execVrRdIdxWrite dt who v s
  | .sinkRdIdxWrite dt who k v => Sys2Proof.Machine.execSinkRdIdxWrite dt who k v s
  | .discRdIdxWrite dt who v => Sys2Proof.Machine.execDiscRdIdxWrite dt who v s
  | .cplLogConfigWrite dt who a v => Sys2Proof.Machine.execCplLogConfigWrite dt who a v s
  | .dlogConfigWrite dt who a v => Sys2Proof.Machine.execDlogConfigWrite dt who a v s
  | .vrConfigWrite dt who a v => Sys2Proof.Machine.execVrConfigWrite dt who a v s
  | .cplCoalWrite dt who p v => Sys2Proof.Machine.execCplCoalWrite dt who p v s
  | .coalTimeExpiry dt p => Sys2Proof.Machine.execCoalTimeExpiry dt p s
  | .fgsGrantWrite dt who p v => Sys2Proof.Machine.execFgsGrantWrite dt who p v s
  | .seResume dt who vs u k => Sys2Proof.Machine.execSeResume dt who vs u k s
  | .chResume dt who c => Sys2Proof.Machine.execChResume dt who c s
  | .chStop dt who c => Sys2Proof.Machine.execChStop dt who c s
  | .resumeTimeout dt m => Sys2Proof.Machine.execResumeTimeout dt m s
  | .listWrIdxWrite dt who r l v => Sys2Proof.Machine.execListWrIdxWrite dt who r l v s
  | .bundlePush dt who u v => Sys2Proof.Machine.execBundlePush dt who u v s
  | .bundleIssue dt u => Sys2Proof.Machine.execBundleIssue dt u s
  | .bundleDone dt u nack => Sys2Proof.Machine.execBundleDone dt u nack s
  | .settingsWindowClose dt u f => Sys2Proof.Machine.execSettingsWindowClose dt u f s
  | .fsyncArm dt who n v => Sys2Proof.Machine.execFsyncArm dt who n v s
  | .fsyncDisarm dt who n v => Sys2Proof.Machine.execFsyncDisarm dt who n v s
  | .fsyncPulse dt n => Sys2Proof.Machine.execFsyncPulse dt n s
  | .frameStart dt port vc num fix => Sys2Proof.Machine.execFrameStart dt port vc num fix s
  | .linePacket dt port vc ty bytes bad fix => Sys2Proof.Machine.execLinePacket dt port vc ty bytes bad fix s
  | .embeddedPacket dt port vc ty bytes bad fix => Sys2Proof.Machine.execEmbeddedPacket dt port vc ty bytes bad fix s
  | .genericShortPacket dt port fix => Sys2Proof.Machine.execGenericShortPacket dt port fix s
  | .headerUncorrectable dt burst => Sys2Proof.Machine.execHeaderUncorrectable dt burst s
  | .frameEnd dt port vc num fix => Sys2Proof.Machine.execFrameEnd dt port vc num fix s
  | .frameTimeout dt n => Sys2Proof.Machine.execFrameTimeout dt n s
  | .linkDown dt port => Sys2Proof.Machine.execLinkDown dt port s
  | .replayFrameItem dt r => Sys2Proof.Machine.execReplayFrameItem dt r s
  | .replayDropItem dt r => Sys2Proof.Machine.execReplayDropItem dt r s
  | .replayEndItem dt r => Sys2Proof.Machine.execReplayEndItem dt r s
  | .timerTrigger dt g f => Sys2Proof.Machine.execTimerTrigger dt g f s
  | .hamperForm dt => Sys2Proof.Machine.execHamperForm dt s
  | .taskPrefetch dt => Sys2Proof.Machine.execTaskPrefetch dt s
  | .ispFrame dt u => Sys2Proof.Machine.execIspFrame dt u s
  | .pyrBuild dt u => Sys2Proof.Machine.execPyrBuild dt u s
  | .warpMesh dt u => Sys2Proof.Machine.execWarpMesh dt u s
  | .warpHomography dt u => Sys2Proof.Machine.execWarpHomography dt u s
  | .strDisparity dt u => Sys2Proof.Machine.execStrDisparity dt u s
  | .flwFlow dt u => Sys2Proof.Machine.execFlwFlow dt u s
  | .ftrDetect dt u => Sys2Proof.Machine.execFtrDetect dt u s
  | .ftrMatch dt u => Sys2Proof.Machine.execFtrMatch dt u s
  | .fmsLoad dt u => Sys2Proof.Machine.execFmsLoad dt u s
  | .ncRun dt u => Sys2Proof.Machine.execNcRun dt u s
  | .move dt c => Sys2Proof.Machine.execMove dt c s
  | .barrier dt k => Sys2Proof.Machine.execBarrier dt k s
  | .signal dt k => Sys2Proof.Machine.execSignal dt k s
  | .taskEnd dt b u => Sys2Proof.Machine.execTaskEnd dt b u s
  | .collectorEntry dt => Sys2Proof.Machine.execCollectorEntry dt s
  | .hamperRelease dt g f => Sys2Proof.Machine.execHamperRelease dt g f s
  | .park dt u => Sys2Proof.Machine.execPark dt u s
  | .resume dt u => Sys2Proof.Machine.execResume dt u s
  | .tasterWindowDue dt b u => Sys2Proof.Machine.execTasterWindowDue dt b u s
  | .tasterBegin dt b u => Sys2Proof.Machine.execTasterBegin dt b u s
  | .tasterEnd dt b u fin sig => Sys2Proof.Machine.execTasterEnd dt b u fin sig s
  | .tasterWedged dt b u => Sys2Proof.Machine.execTasterWedged dt b u s
  | .ncMma dt u => Sys2Proof.Machine.execNcMma dt u s
  | .ncMdrain dt u => Sys2Proof.Machine.execNcMdrain dt u s
  | .ncMrawst dt u => Sys2Proof.Machine.execNcMrawst dt u s
  | .ncMrawadd dt u => Sys2Proof.Machine.execNcMrawadd dt u s
  | .ncSe dt u => Sys2Proof.Machine.execNcSe dt u s
  | .ncWait dt u => Sys2Proof.Machine.execNcWait dt u s
  | .ncLpop dt u => Sys2Proof.Machine.execNcLpop dt u s
  | .ncRsig dt u => Sys2Proof.Machine.execNcRsig dt u s
  | .ncRwait dt u => Sys2Proof.Machine.execNcRwait dt u s
  | .ncFence dt u => Sys2Proof.Machine.execNcFence dt u s
  | .ncEnd dt u => Sys2Proof.Machine.execNcEnd dt u s
  | .scalarInstruction dt u => Sys2Proof.Machine.execScalarInstruction dt u s
  | .vectorInstruction dt u => Sys2Proof.Machine.execVectorInstruction dt u s
  | .matrixCommandComplete dt u => Sys2Proof.Machine.execMatrixCommandComplete dt u s
  | .streamArm dt vs u k => Sys2Proof.Machine.execStreamArm dt vs u k s
  | .descriptorBatch dt m => Sys2Proof.Machine.execDescriptorBatch dt m s
  | .streamCommandComplete dt m => Sys2Proof.Machine.execStreamCommandComplete dt m s
  | .faultHalt dt m => Sys2Proof.Machine.execFaultHalt dt m s
  | .dmaRetry dt c => Sys2Proof.Machine.execDmaRetry dt c s
  | .dmaBurst dt c line => Sys2Proof.Machine.execDmaBurst dt c line s
  | .ringSignalArrive dt u => Sys2Proof.Machine.execRingSignalArrive dt u s
  | .loadGo dt who v => Sys2Proof.Machine.execLoadGo dt who v s
  | .loadClear dt who v => Sys2Proof.Machine.execLoadClear dt who v s
  | .setOwnWrite dt who v => Sys2Proof.Machine.execSetOwnWrite dt who v s
  | .fmsLoadStart dt => Sys2Proof.Machine.execFmsLoadStart dt s
  | .fmsVersionSwitch dt => Sys2Proof.Machine.execFmsVersionSwitch dt s
  | .xlatInv dt who v => Sys2Proof.Machine.execXlatInv dt who v s
  | .xlatInvDone dt p => Sys2Proof.Machine.execXlatInvDone dt p s
  | .errPop dt who n => Sys2Proof.Machine.execErrPop dt who n s
  | .faultPop dt who => Sys2Proof.Machine.execFaultPop dt who s
  | .peerRead dt who v => Sys2Proof.Machine.execPeerRead dt who v s
  | .peerWrite dt who v => Sys2Proof.Machine.execPeerWrite dt who v s
  | .rsubOp dt who v => Sys2Proof.Machine.execRsubOp dt who v s
  | .safeRelease dt who => Sys2Proof.Machine.execSafeRelease dt who s
  | .bootWarm dt who => Sys2Proof.Machine.execBootWarm dt who s
  | .bootCold dt who => Sys2Proof.Machine.execBootCold dt who s
  | .hostGo dt who => Sys2Proof.Machine.execHostGo dt who s
  | .coldStart dt => Sys2Proof.Machine.execColdStart dt s
  | .warmStart dt => Sys2Proof.Machine.execWarmStart dt s
  | .startStepComplete dt ok rows => Sys2Proof.Machine.execStartStepComplete dt ok rows s
  | .fwReady dt => Sys2Proof.Machine.execFwReady dt s
  | .fwHang dt => Sys2Proof.Machine.execFwHang dt s
  | .otpProgram dt who v => Sys2Proof.Machine.execOtpProgram dt who v s
  | .otpProgramDone dt ok => Sys2Proof.Machine.execOtpProgramDone dt ok s
  | .attGo dt who => Sys2Proof.Machine.execAttGo dt who s
  | .attReportDone dt => Sys2Proof.Machine.execAttReportDone dt s
  | .freeze dt who => Sys2Proof.Machine.execFreeze dt who s
  | .unfreeze dt who => Sys2Proof.Machine.execUnfreeze dt who s
  | .freezeInstant dt => Sys2Proof.Machine.execFreezeInstant dt s
  | .globalStop dt who => Sys2Proof.Machine.execGlobalStop dt who s
  | .gcClear dt who => Sys2Proof.Machine.execGcClear dt who s
  | .memrd dt who v => Sys2Proof.Machine.execMemrd dt who v s
  | .trigArm dt who v => Sys2Proof.Machine.execTrigArm dt who v s
  | .phaseClear dt who v => Sys2Proof.Machine.execPhaseClear dt who v s
  | .phaseClearAll dt who => Sys2Proof.Machine.execPhaseClearAll dt who s
  | .scanRestart dt who v => Sys2Proof.Machine.execScanRestart dt who v s
  | .scanDataRead dt who => Sys2Proof.Machine.execScanDataRead dt who s
  | .highWaterRead dt who l => Sys2Proof.Machine.execHighWaterRead dt who l s
  | .ageWorstRead dt who => Sys2Proof.Machine.execAgeWorstRead dt who s
  | .latchingLoRead dt who a => Sys2Proof.Machine.execLatchingLoRead dt who a s
  | .cmdOpidRead dt who b u => Sys2Proof.Machine.execCmdOpidRead dt who b u s
  | .bypass dt bits => Sys2Proof.Machine.execBypass dt bits s
  | .idcode dt bits => Sys2Proof.Machine.execIdcode dt bits s
  | .samplePreload dt pins bits => Sys2Proof.Machine.execSamplePreload dt pins bits s
  | .extest dt pins bits => Sys2Proof.Machine.execExtest dt pins bits s
  | .gstop dt => Sys2Proof.Machine.execGstop dt s
  | .scanSel dt bits => Sys2Proof.Machine.execScanSel dt bits s
  | .scanDr dt bits => Sys2Proof.Machine.execScanDr dt bits s
  | .dualCompare dt => Sys2Proof.Machine.execDualCompare dt s
  | .ageExamine dt => Sys2Proof.Machine.execAgeExamine dt s
  | .faultReaction dt => Sys2Proof.Machine.execFaultReaction dt s
  | .lockstep dt => Sys2Proof.Machine.execLockstep dt s
  | .clockMonitorWindow dt counts => Sys2Proof.Machine.execClockMonitorWindow dt counts s
  | .safeHb dt => Sys2Proof.Machine.execSafeHb dt s
  | .pwrTick dt => Sys2Proof.Machine.execPwrTick dt s
  | .activitySample dt acts => Sys2Proof.Machine.execActivitySample dt acts s
  | .pmbusPoll dt rail code val => Sys2Proof.Machine.execPmbusPoll dt rail code val s
  | .pmbusAlert dt rail status => Sys2Proof.Machine.execPmbusAlert dt rail status s
  | .voutCommandAck dt ok => Sys2Proof.Machine.execVoutCommandAck dt ok s
  | .vsettleExpiry dt => Sys2Proof.Machine.execVsettleExpiry dt s
  | .pllLockDone dt ok => Sys2Proof.Machine.execPllLockDone dt ok s
  | .pllSwitch dt => Sys2Proof.Machine.execPllSwitch dt s
  | .droopTrip dt mv => Sys2Proof.Machine.execDroopTrip dt mv s
  | .droopLevelStep dt => Sys2Proof.Machine.execDroopLevelStep dt s
  | .thermalSample dt temps => Sys2Proof.Machine.execThermalSample dt temps s
  | .emergLevelStep dt => Sys2Proof.Machine.execEmergLevelStep dt s
  | .thermalShutdown dt => Sys2Proof.Machine.execThermalShutdown dt s
  | .write dt link g => Sys2Proof.Machine.execWrite dt link g s
  | .readReq dt link g => Sys2Proof.Machine.execReadReq dt link g s
  | .readResp dt link g => Sys2Proof.Machine.execReadResp dt link g s
  | .ack dt link g => Sys2Proof.Machine.execAck dt link g s
  | .nack dt link g => Sys2Proof.Machine.execNack dt link g s
  | .cmd dt link g => Sys2Proof.Machine.execCmd dt link g s
  | .cmdResp dt link g => Sys2Proof.Machine.execCmdResp dt link g s
  | .trigger dt link g => Sys2Proof.Machine.execTrigger dt link g s
  | .credit dt link g => Sys2Proof.Machine.execCredit dt link g s
  | .creditReq dt link g => Sys2Proof.Machine.execCreditReq dt link g s
  | .arrive dt link g => Sys2Proof.Machine.execArrive dt link g s
  | .release dt link g => Sys2Proof.Machine.execRelease dt link g s
  | .throttleNotice dt link g => Sys2Proof.Machine.execThrottleNotice dt link g s
  | .keepalive dt link g => Sys2Proof.Machine.execKeepalive dt link g s
  | .hello dt link g => Sys2Proof.Machine.execHello dt link g s
  | .lldp dt link frame => Sys2Proof.Machine.execLldp dt link frame s
  | .neighbourSolicitation dt link frame => Sys2Proof.Machine.execNeighbourSolicitation dt link frame s
  | .rtoExpiry dt peer => Sys2Proof.Machine.execRtoExpiry dt peer s
  | .ackTimer dt peer => Sys2Proof.Machine.execAckTimer dt peer s
  | .keepaliveTimer dt peer => Sys2Proof.Machine.execKeepaliveTimer dt peer s
  | .peerTimeout dt peer => Sys2Proof.Machine.execPeerTimeout dt peer s
  | .linkChange dt link up => Sys2Proof.Machine.execLinkChange dt link up s
  | .lldpTimer dt link => Sys2Proof.Machine.execLldpTimer dt link s
  | .helloTimer dt link => Sys2Proof.Machine.execHelloTimer dt link s
  | .ratePeriod dt peer => Sys2Proof.Machine.execRatePeriod dt peer s
  | .ptpEventMessage dt link msg stamp => Sys2Proof.Machine.execPtpEventMessage dt link msg stamp s
  | .ptpSyncLoss dt => Sys2Proof.Machine.execPtpSyncLoss dt s
  | .scrub dt n word err => Sys2Proof.Machine.execScrub dt n word err s
  | .nocCrcFail dt fails => Sys2Proof.Machine.execNocCrcFail dt fails s
  | .functionLevelReset dt n => Sys2Proof.Machine.execFunctionLevelReset dt n s
  | .conventionalReset dt => Sys2Proof.Machine.execConventionalReset dt s
  | .bar2Access dt n a len wr => Sys2Proof.Machine.execBar2Access dt n a len wr s
  | .bar4Access dt n a len wr => Sys2Proof.Machine.execBar4Access dt n a len wr s
  | .refclkLoss dt => Sys2Proof.Machine.execRefclkLoss dt s
  | .railQuiet dt => Sys2Proof.Machine.execRailQuiet dt s
  | .resetNFall dt => Sys2Proof.Machine.execResetNFall dt s
  | .tjHigh dt => Sys2Proof.Machine.execTjHigh dt s
  | .islandMemUe dt => Sys2Proof.Machine.execIslandMemUe dt s

end Sys2Proof.Machine
end

