-- ==== Sys2Proof/Safety.lean ====
section
/-! DEFINITION. The terms statements use: when the block works, which accesses are admitted, the canonical form of the state, and what a command's close is applied to. -/

namespace Sys2Proof.Machine
open Sys2Proof

/-- RESET_N is high and power is up: commands take effect (R602, R603). -/
abbrev Awake (b : State) : Prop := b.boot.inReset = false

/-- The data plane works: awake, BOOT_STAT reads RUNNING, no thermal shutdown, no global stop (R571, R595, R603). -/
abbrev Works (b : State) : Prop := b.boot.inReset = false ∧ isRunning b = true ∧ isStopped b = false

/-- Every byte memory is in its canonical form. -/
def memoriesWf (s : State) : Bool :=
  Memory.wf s.hbm && Memory.wf s.host && Memory.wf s.tile && Memory.wf s.spad && Memory.wf s.lane &&
  Memory.wf s.boot.otp && Memory.wf s.boot.spi && Memory.wf s.boot.island

/-- Every table of registers and units is in its canonical form. -/
def tablesWf (s : State) : Bool :=
  twf regRst s.regs && twf regRst s.applied && twf (fun _ => 0) s.hi && twf (fun _ => 0) s.irqCtx && twf (fun _ => 0) s.tone && twf (fun _ => 36) s.bar2 &&
  twf (fun _ => {}) s.cmdw && twf (fun _ => {}) s.dlog && twf (fun _ => {}) s.graphs && twf (fun _ => {}) s.units && twf (fun _ => []) s.fifos &&
  twf (fun _ => {}) s.ages && twf (fun _ => {}) s.ladles && twf (fun _ => {}) s.cams && twf (fun _ => {}) s.sctl &&
  twf (fun _ => {}) s.fsync && twf (fun _ => {}) s.rpl && twf (fun _ => {}) s.movers && twf (fun _ => {}) s.cores &&
  twf (fun _ => []) s.hbmRec && twf (fun _ => {}) s.safe.dual && twf (fun _ => (0, 0)) s.safe.ueBurst &&
  twf (fun _ => {}) s.dbg.itrace && twf (fun _ => []) s.dbg.crumbs && twf (fun _ => 0) s.dbg.owed && twf (fun _ => {}) s.dbg.cnt &&
  twf (fun _ => 0) s.fms.own && twf (fun _ => 0) s.fms.gen && twf (fun _ => []) s.fms.sets && twf (fun _ => {}) s.pwr.phases &&
  twf (fun _ => 0) s.pwr.grpSum && twf (fun _ => 0) s.pwr.pout && twf (fun _ => 0) s.pwr.temps && twf (fun _ => 0x17) s.pwr.vmode &&
  twf (fun _ => List.replicate 64 0) s.rolv.peers && twf (fun _ => {}) s.rolv.conns && twf (fun _ => {}) s.rolv.ops &&
  twf (fun _ => 0) s.rolv.lldpAt && twf (fun _ => 0) s.rolv.helloAt && twf (fun _ => none) s.rolv.submits

/-- A write of register row (r, k) at a location is open: the page is shown to the accessor, no stop or management-only state closes it, and
the accessor's level admits it (R13, R16, R90, R595, R617). -/
abbrev openWrite (b : State) (who : Who) (l : Loc) (r : RegRow) (k : Nat) : Prop :=
  b.boot.inReset = false ∧ viewOf b who l = .shown ∧ (isStopped b = false ∨ openInStop l = true) ∧ (bootState b ≠ 3 ∨ mgmtWritable l = true) ∧
  mayWrite b who l r.w k = .ok

/-- A write at BAR0 offset a reaches a register of a page's table, whatever the register. -/
def writes (b : State) (who : Who) (a : Nat) : Prop :=
  ∃ l r k, locate a = some l ∧ headerOff l = none ∧ rowAt l = some (r, k) ∧ openWrite b who l r k

/-- A write at BAR0 offset a reaches the header of a page that is shown and not closed by a stop (R66, R595). -/
abbrev headerOpen (b : State) (who : Who) (l : Loc) : Prop :=
  b.boot.inReset = false ∧ viewOf b who l = .shown ∧ (isStopped b = false ∨ openInStop l = true) ∧ (bootState b ≠ 3 ∨ mgmtWritable l = true)

/-- Blocks whose registers act when they are read by the hardware alone: a write stores the value and does nothing else. -/
def plainBlk : Blk → Bool
  | .camp | .cams | .rpl | .isp | .pyr | .warp | .str | .flw | .ftr | .vtm | .nc | .ncm | .ncv | .ncd | .spc | .ladle | .fabp => true
  | _ => false

/-- A submission of 16 argument words and an opcode as it stands when it is decided: the words in CMD_DATA, CMD_HANDLE pending, nothing
latched any more (R76). -/
def submitted (b : State) (p op : Nat) (w : List Word) : State :=
  let t := submitAct (writeArgs b p w) p op
  setCmdw t p { cmdwAt t p with latched := none }

/-- What an accepted submission leaves: it takes slot i, its effect is `f`, and CMD_HANDLE takes its handle (R78, R79). -/
def acceptedAs (t : State) (p op : Nat) (w : List Word) (i : Nat) (f : Nat → State → State) : State :=
  let h := takeSlot t p i op (argN w 0)
  setRegN (f h.1 h.2) (cw p + 0x144) h.1

/-- The ns a command of the data plane carries; none for a command that is not stopped with the data plane (R595, R603). -/
def dataPlaneNs : Instr → Option Nat
  | .loadGraph _ _ _ => none
  | .imageResident dt _ => some dt
  | .unloadGraph _ _ _ => none
  | .startGraph _ _ _ => none
  | .stopGraph _ _ _ => none
  | .runOnce _ _ _ => none
  | .dmaCopy _ _ _ => none
  | .setOpp _ _ _ => none
  | .query _ _ _ => none
  | .commit _ _ _ => none
  | .commitApplied _ _ => none
  | .softReset _ _ _ => none
  | .blkPartWrite _ _ _ _ => none
  | .scratchpadClearDone _ _ => none
  | .tileClearDone _ => none
  | .blkErrInj _ _ _ _ => none
  | .registerWrite _ _ _ _ => none
  | .irqEnableWrite _ _ _ _ => none
  | .cplRdIdxWrite _ _ _ _ => none
  | .dlogRdIdxWrite _ _ _ _ => none
  | .vrRdIdxWrite _ _ _ => none
  | .sinkRdIdxWrite _ _ _ _ => none
  | .discRdIdxWrite _ _ _ => none
  | .cplLogConfigWrite _ _ _ _ => none
  | .dlogConfigWrite _ _ _ _ => none
  | .vrConfigWrite _ _ _ _ => none
  | .cplCoalWrite _ _ _ _ => none
  | .coalTimeExpiry _ _ => none
  | .fgsGrantWrite _ _ _ _ => none
  | .seResume _ _ _ _ _ => none
  | .chResume _ _ _ => none
  | .chStop _ _ _ => none
  | .resumeTimeout dt _ => some dt
  | .listWrIdxWrite _ _ _ _ _ => none
  | .bundlePush _ _ _ _ => none
  | .bundleIssue dt _ => some dt
  | .bundleDone dt _ _ => some dt
  | .settingsWindowClose dt _ _ => some dt
  | .fsyncArm _ _ _ _ => none
  | .fsyncDisarm _ _ _ _ => none
  | .fsyncPulse dt _ => some dt
  | .frameStart dt _ _ _ _ => some dt
  | .linePacket dt _ _ _ _ _ _ => some dt
  | .embeddedPacket dt _ _ _ _ _ _ => some dt
  | .genericShortPacket dt _ _ => some dt
  | .headerUncorrectable dt _ => some dt
  | .frameEnd dt _ _ _ _ => some dt
  | .frameTimeout dt _ => some dt
  | .linkDown dt _ => some dt
  | .replayFrameItem dt _ => some dt
  | .replayDropItem dt _ => some dt
  | .replayEndItem dt _ => some dt
  | .timerTrigger dt _ _ => some dt
  | .hamperForm dt => some dt
  | .taskPrefetch dt => some dt
  | .ispFrame dt _ => some dt
  | .pyrBuild dt _ => some dt
  | .warpMesh dt _ => some dt
  | .warpHomography dt _ => some dt
  | .strDisparity dt _ => some dt
  | .flwFlow dt _ => some dt
  | .ftrDetect dt _ => some dt
  | .ftrMatch dt _ => some dt
  | .fmsLoad dt _ => some dt
  | .ncRun dt _ => some dt
  | .move dt _ => some dt
  | .barrier dt _ => some dt
  | .signal dt _ => some dt
  | .taskEnd dt _ _ => some dt
  | .collectorEntry dt => some dt
  | .hamperRelease dt _ _ => some dt
  | .park dt _ => some dt
  | .resume dt _ => some dt
  | .tasterWindowDue dt _ _ => some dt
  | .tasterBegin dt _ _ => some dt
  | .tasterEnd dt _ _ _ _ => some dt
  | .tasterWedged dt _ _ => some dt
  | .ncMma dt _ => some dt
  | .ncMdrain dt _ => some dt
  | .ncMrawst dt _ => some dt
  | .ncMrawadd dt _ => some dt
  | .ncSe dt _ => some dt
  | .ncWait dt _ => some dt
  | .ncLpop dt _ => some dt
  | .ncRsig dt _ => some dt
  | .ncRwait dt _ => some dt
  | .ncFence dt _ => some dt
  | .ncEnd dt _ => some dt
  | .scalarInstruction dt _ => some dt
  | .vectorInstruction dt _ => some dt
  | .matrixCommandComplete dt _ => some dt
  | .streamArm dt _ _ _ => some dt
  | .descriptorBatch dt _ => some dt
  | .streamCommandComplete dt _ => some dt
  | .faultHalt dt _ => some dt
  | .dmaRetry dt _ => some dt
  | .dmaBurst dt _ _ => some dt
  | .ringSignalArrive dt _ => some dt
  | .loadGo _ _ _ => none
  | .loadClear _ _ _ => none
  | .setOwnWrite _ _ _ => none
  | .fmsLoadStart dt => some dt
  | .fmsVersionSwitch dt => some dt
  | .xlatInv _ _ _ => none
  | .xlatInvDone dt _ => some dt
  | .errPop _ _ _ => none
  | .faultPop _ _ => none
  | .peerRead _ _ _ => none
  | .peerWrite _ _ _ => none
  | .rsubOp _ _ _ => none
  | .safeRelease _ _ => none
  | .bootWarm _ _ => none
  | .bootCold _ _ => none
  | .hostGo _ _ => none
  | .coldStart _ => none
  | .warmStart _ => none
  | .startStepComplete _ _ _ => none
  | .fwReady _ => none
  | .fwHang _ => none
  | .otpProgram _ _ _ => none
  | .otpProgramDone _ _ => none
  | .attGo _ _ => none
  | .attReportDone _ => none
  | .freeze _ _ => none
  | .unfreeze _ _ => none
  | .freezeInstant _ => none
  | .globalStop _ _ => none
  | .gcClear _ _ => none
  | .memrd _ _ _ => none
  | .trigArm _ _ _ => none
  | .phaseClear _ _ _ => none
  | .phaseClearAll _ _ => none
  | .scanRestart _ _ _ => none
  | .scanDataRead _ _ => none
  | .highWaterRead _ _ _ => none
  | .ageWorstRead _ _ => none
  | .latchingLoRead _ _ _ => none
  | .cmdOpidRead _ _ _ _ => none
  | .bypass _ _ => none
  | .idcode _ _ => none
  | .samplePreload _ _ _ => none
  | .extest _ _ _ => none
  | .gstop _ => none
  | .scanSel _ _ => none
  | .scanDr _ _ => none
  | .dualCompare dt => some dt
  | .ageExamine dt => some dt
  | .faultReaction _ => none
  | .lockstep _ => none
  | .clockMonitorWindow _ _ => none
  | .safeHb _ => none
  | .pwrTick _ => none
  | .activitySample _ _ => none
  | .pmbusPoll _ _ _ _ => none
  | .pmbusAlert _ _ _ => none
  | .voutCommandAck _ _ => none
  | .vsettleExpiry _ => none
  | .pllLockDone _ _ => none
  | .pllSwitch _ => none
  | .droopTrip _ _ => none
  | .droopLevelStep _ => none
  | .thermalSample _ _ => none
  | .emergLevelStep _ => none
  | .thermalShutdown _ => none
  | .write dt _ _ => some dt
  | .readReq dt _ _ => some dt
  | .readResp dt _ _ => some dt
  | .ack dt _ _ => some dt
  | .nack dt _ _ => some dt
  | .cmd dt _ _ => some dt
  | .cmdResp dt _ _ => some dt
  | .trigger dt _ _ => some dt
  | .credit dt _ _ => some dt
  | .creditReq dt _ _ => some dt
  | .arrive dt _ _ => some dt
  | .release dt _ _ => some dt
  | .throttleNotice dt _ _ => some dt
  | .keepalive dt _ _ => some dt
  | .hello dt _ _ => some dt
  | .lldp dt _ _ => some dt
  | .neighbourSolicitation dt _ _ => some dt
  | .rtoExpiry dt _ => some dt
  | .ackTimer dt _ => some dt
  | .keepaliveTimer dt _ => some dt
  | .peerTimeout dt _ => some dt
  | .linkChange dt _ _ => some dt
  | .lldpTimer dt _ => some dt
  | .helloTimer dt _ => some dt
  | .ratePeriod dt _ => some dt
  | .ptpEventMessage dt _ _ _ => some dt
  | .ptpSyncLoss dt => some dt
  | .scrub dt _ _ _ => some dt
  | .nocCrcFail dt _ => some dt
  | .functionLevelReset _ _ => none
  | .conventionalReset _ => none
  | .bar2Access _ _ _ _ _ => none
  | .bar4Access _ _ _ _ _ => none
  | .refclkLoss _ => none
  | .railQuiet _ => none
  | .resetNFall _ => none
  | .tjHigh _ => none
  | .islandMemUe _ => none

/-- What an instruction's answer leaves: it retires with the next pc, the task ends by an exception or with a status, or it waits (R309, R319,
R320). -/
def afterInsn (u : Nat) : Except Stop DWord × State → State
  | (.ok pc, t) => retire t u pc
  | (.error (.trap c v), t) => trapCtx t u c v
  | (.error (.status st), t) => endCtx t u st
  | (.error .stall, t) => t

/-- A byte of HBM, host memory, tile memory, scratchpad or lane as a state holds it. -/
def sameBytes (s t : State) : Prop :=
  (∀ a, memGet t.hbm a = memGet s.hbm a) ∧ (∀ a, memGet t.host a = memGet s.host a) ∧ (∀ a, memGet t.tile a = memGet s.tile a) ∧
  (∀ a, memGet t.spad a = memGet s.spad a) ∧ (∀ a, memGet t.lane a = memGet s.lane a)

end Sys2Proof.Machine
end

