-- ==== Sys2Proof/WellFormed.lean ====
section
/-! DEFINITION. Which commands are well formed: every operand within the range its row of the table gives it on a THX-4896.
The machine is total on the others too. -/

namespace Sys2Proof

/-- An accessor that exists: PF0 to PF3, or the firmware (R25). -/
def Who.wf : Who → Bool
  | .pf n => decide (n < 4)
  | .fw => true

/-- A stream or channel that exists on a THX-4896: 16 streams a core, 32 a vision stream engine, 32 channels (R424). -/
def Mover.wf : Mover → Bool
  | .nc u k => decide (u < 8) && decide (k < 16)
  | .vs u k => decide (u < 4) && decide (k < 32)
  | .ch c => decide (c < 32)

/-- An aligned offset of the 64 MiB register window (R24, R64). -/
def bar0Wf (a : Nat) : Bool := decide (a < 0x400_0000) && a % 4 == 0

/-- The operand words of a submission: CMD_DATA0 to CMD_DATA15 (R75, R76). -/
def argsWf : Option (List Word) → Bool
  | some l => decide (l.length ≤ 16)
  | none => true

/-- Block type codes have 16 bits (R69). -/
def blkOfCodeWf (b : Nat) : Bool := decide (b < 0x1_0000)

/-- A write through a memory window carries its length in bytes. -/
def wrWf (len : Nat) : Option (List Byte) → Bool
  | some l => l.length == len
  | none => true

/-- Is a command well formed. -/
def Instr.wf (i : Instr) : Bool :=
  match i with
  | .loadGraph _ p args => decide (p < 4) && argsWf args
  | .imageResident _ g => decide (g < 256)
  | .unloadGraph _ p args => decide (p < 4) && argsWf args
  | .startGraph _ p args => decide (p < 4) && argsWf args
  | .stopGraph _ p args => decide (p < 4) && argsWf args
  | .runOnce _ p args => decide (p < 4) && argsWf args
  | .dmaCopy _ p args => decide (p < 4) && argsWf args
  | .setOpp _ p args => decide (p < 4) && argsWf args
  | .query _ p args => decide (p < 4) && argsWf args
  | .commit _ who page => who.wf && bar0Wf page
  | .commitApplied _ page => bar0Wf page
  | .softReset _ who page => who.wf && bar0Wf page
  | .blkPartWrite _ who page _ => who.wf && bar0Wf page
  | .scratchpadClearDone _ u => decide (u < 8)
  | .tileClearDone _ => true
  | .blkErrInj _ who page _ => who.wf && bar0Wf page
  | .registerWrite _ who a _ => who.wf && bar0Wf a
  | .irqEnableWrite _ who a _ => who.wf && bar0Wf a
  | .cplRdIdxWrite _ who p _ => who.wf && decide (p < 4)
  | .dlogRdIdxWrite _ who p _ => who.wf && decide (p < 4)
  | .vrRdIdxWrite _ who _ => who.wf
  | .sinkRdIdxWrite _ who k _ => who.wf && decide (k < 4) && decide (k < 4)
  | .discRdIdxWrite _ who _ => who.wf
  | .cplLogConfigWrite _ who a _ => who.wf && bar0Wf a
  | .dlogConfigWrite _ who a _ => who.wf && bar0Wf a
  | .vrConfigWrite _ who a _ => who.wf && bar0Wf a
  | .cplCoalWrite _ who p _ => who.wf && decide (p < 4)
  | .coalTimeExpiry _ p => decide (p < 4)
  | .fgsGrantWrite _ who p _ => who.wf && decide (p < 4)
  | .seResume _ who vs u k => who.wf && decide (u < if vs then 4 else 8) && decide (k < if vs then 32 else 16)
  | .chResume _ who c => who.wf && decide (c < 32)
  | .chStop _ who c => who.wf && decide (c < 32)
  | .resumeTimeout _ m => m.wf
  | .listWrIdxWrite _ who r l _ => who.wf && decide (r < 8) && decide (l < 16)
  | .bundlePush _ who u _ => who.wf && decide (u < 12)
  | .bundleIssue _ u => decide (u < 12)
  | .bundleDone _ u _ => decide (u < 12)
  | .settingsWindowClose _ u f => decide (u < 12) && decide (f < 4)
  | .fsyncArm _ who n _ => who.wf && decide (n < 16)
  | .fsyncDisarm _ who n _ => who.wf && decide (n < 16)
  | .fsyncPulse _ n => decide (n < 16)
  | .frameStart _ port vc num _ => decide (port < 12) && decide (vc < 32) && decide (num < 65536)
  | .linePacket _ port vc ty bytes _ _ => decide (port < 12) && decide (vc < 32) && decide (ty < 64) && decide (bytes.length < 65536)
  | .embeddedPacket _ port vc ty bytes _ _ => decide (port < 12) && decide (vc < 32) && decide (ty < 64) && decide (bytes.length < 65536)
  | .genericShortPacket _ port _ => decide (port < 12)
  | .headerUncorrectable _ burst => decide (burst.port < 12)
  | .frameEnd _ port vc num _ => decide (port < 12) && decide (vc < 32) && decide (num < 65536)
  | .frameTimeout _ n => decide (n < 48)
  | .linkDown _ port => decide (port < 12)
  | .replayFrameItem _ r => decide (r < 8)
  | .replayDropItem _ r => decide (r < 8)
  | .replayEndItem _ r => decide (r < 8)
  | .timerTrigger _ g f => decide (g < 256) && decide (f < 256)
  | .hamperForm _ => true
  | .taskPrefetch _ => true
  | .ispFrame _ u => decide (u < 4)
  | .pyrBuild _ u => decide (u < 2)
  | .warpMesh _ u => decide (u < 4)
  | .warpHomography _ u => decide (u < 4)
  | .strDisparity _ u => decide (u < 4)
  | .flwFlow _ u => decide (u < 2)
  | .ftrDetect _ u => decide (u < 2)
  | .ftrMatch _ u => decide (u < 2)
  | .fmsLoad _ u => decide (u < 2)
  | .ncRun _ u => decide (u < 8)
  | .move _ c => decide (c < 32)
  | .barrier _ k => decide (k < 256)
  | .signal _ k => decide (k < 256)
  | .taskEnd _ b u => (blkOfCodeWf b) && decide (u < 256)
  | .collectorEntry _ => true
  | .hamperRelease _ g f => decide (g < 256) && decide (f < 256)
  | .park _ u => decide (u < 8)
  | .resume _ u => decide (u < 8)
  | .tasterWindowDue _ b u => (blkOfCodeWf b) && decide (u < 256)
  | .tasterBegin _ b u => (blkOfCodeWf b) && decide (u < 256)
  | .tasterEnd _ b u _ sig => (blkOfCodeWf b) && decide (u < 256) && (match sig with | some x => decide (x < 2 ^ 64) | none => true)
  | .tasterWedged _ b u => (blkOfCodeWf b) && decide (u < 256)
  | .ncMma _ u => decide (u < 8)
  | .ncMdrain _ u => decide (u < 8)
  | .ncMrawst _ u => decide (u < 8)
  | .ncMrawadd _ u => decide (u < 8)
  | .ncSe _ u => decide (u < 8)
  | .ncWait _ u => decide (u < 8)
  | .ncLpop _ u => decide (u < 8)
  | .ncRsig _ u => decide (u < 8)
  | .ncRwait _ u => decide (u < 8)
  | .ncFence _ u => decide (u < 8)
  | .ncEnd _ u => decide (u < 8)
  | .scalarInstruction _ u => decide (u < 8)
  | .vectorInstruction _ u => decide (u < 8)
  | .matrixCommandComplete _ u => decide (u < 8)
  | .streamArm _ vs u k => decide (u < if vs then 4 else 8) && decide (k < if vs then 32 else 16)
  | .descriptorBatch _ m => m.wf
  | .streamCommandComplete _ m => m.wf
  | .faultHalt _ m => m.wf
  | .dmaRetry _ c => decide (c < 32)
  | .dmaBurst _ c _ => decide (c < 32)
  | .ringSignalArrive _ u => decide (u < 8)
  | .loadGo _ who _ => who.wf
  | .loadClear _ who _ => who.wf
  | .setOwnWrite _ who _ => who.wf
  | .fmsLoadStart _ => true
  | .fmsVersionSwitch _ => true
  | .xlatInv _ who _ => who.wf
  | .xlatInvDone _ p => decide (p < 4)
  | .errPop _ who n => who.wf && decide (n < 4)
  | .faultPop _ who => who.wf
  | .peerRead _ who _ => who.wf
  | .peerWrite _ who _ => who.wf
  | .rsubOp _ who _ => who.wf
  | .safeRelease _ who => who.wf
  | .bootWarm _ who => who.wf
  | .bootCold _ who => who.wf
  | .hostGo _ who => who.wf
  | .coldStart _ => true
  | .warmStart _ => true
  | .startStepComplete _ _ _ => true
  | .fwReady _ => true
  | .fwHang _ => true
  | .otpProgram _ who _ => who.wf
  | .otpProgramDone _ _ => true
  | .attGo _ who => who.wf
  | .attReportDone _ => true
  | .freeze _ who => who.wf
  | .unfreeze _ who => who.wf
  | .freezeInstant _ => true
  | .globalStop _ who => who.wf
  | .gcClear _ who => who.wf
  | .memrd _ who _ => who.wf
  | .trigArm _ who _ => who.wf
  | .phaseClear _ who _ => who.wf
  | .phaseClearAll _ who => who.wf
  | .scanRestart _ who _ => who.wf
  | .scanDataRead _ who => who.wf
  | .highWaterRead _ who l => who.wf && decide (l < 16)
  | .ageWorstRead _ who => who.wf
  | .latchingLoRead _ who a => who.wf && bar0Wf a
  | .cmdOpidRead _ who b u => who.wf && (blkOfCodeWf b) && decide (u < 256)
  | .bypass _ _ => true
  | .idcode _ _ => true
  | .samplePreload _ pins _ => decide (pins.length < 65536)
  | .extest _ pins _ => decide (pins.length < 65536)
  | .gstop _ => true
  | .scanSel _ _ => true
  | .scanDr _ _ => true
  | .dualCompare _ => true
  | .ageExamine _ => true
  | .faultReaction _ => true
  | .lockstep _ => true
  | .clockMonitorWindow _ _ => true
  | .safeHb _ => true
  | .pwrTick _ => true
  | .activitySample _ _ => true
  | .pmbusPoll _ rail code val => decide (rail < 256) && decide (code < 256) && (match val with | some x => decide (x < 65536) | none => true)
  | .pmbusAlert _ rail status => decide (rail < 256) && decide (status < 65536)
  | .voutCommandAck _ _ => true
  | .vsettleExpiry _ => true
  | .pllLockDone _ _ => true
  | .pllSwitch _ => true
  | .droopTrip _ _ => true
  | .droopLevelStep _ => true
  | .thermalSample _ _ => true
  | .emergLevelStep _ => true
  | .thermalShutdown _ => true
  | .write _ link g => decide (link < 4) && decide (g.pkt.length < 65536)
  | .readReq _ link g => decide (link < 4) && decide (g.pkt.length < 65536)
  | .readResp _ link g => decide (link < 4) && decide (g.pkt.length < 65536)
  | .ack _ link g => decide (link < 4) && decide (g.pkt.length < 65536)
  | .nack _ link g => decide (link < 4) && decide (g.pkt.length < 65536)
  | .cmd _ link g => decide (link < 4) && decide (g.pkt.length < 65536)
  | .cmdResp _ link g => decide (link < 4) && decide (g.pkt.length < 65536)
  | .trigger _ link g => decide (link < 4) && decide (g.pkt.length < 65536)
  | .credit _ link g => decide (link < 4) && decide (g.pkt.length < 65536)
  | .creditReq _ link g => decide (link < 4) && decide (g.pkt.length < 65536)
  | .arrive _ link g => decide (link < 4) && decide (g.pkt.length < 65536)
  | .release _ link g => decide (link < 4) && decide (g.pkt.length < 65536)
  | .throttleNotice _ link g => decide (link < 4) && decide (g.pkt.length < 65536)
  | .keepalive _ link g => decide (link < 4) && decide (g.pkt.length < 65536)
  | .hello _ link g => decide (link < 4) && decide (g.pkt.length < 65536)
  | .lldp _ link frame => decide (link < 4) && decide (frame.length < 65536)
  | .neighbourSolicitation _ link frame => decide (link < 4) && decide (frame.length < 65536)
  | .rtoExpiry _ peer => decide (peer < 16384)
  | .ackTimer _ peer => decide (peer < 16384)
  | .keepaliveTimer _ peer => decide (peer < 16384)
  | .peerTimeout _ peer => decide (peer < 16384)
  | .linkChange _ link _ => decide (link < 4)
  | .lldpTimer _ link => decide (link < 4)
  | .helloTimer _ link => decide (link < 4)
  | .ratePeriod _ peer => decide (peer < 16384)
  | .ptpEventMessage _ link msg _ => decide (link < 4) && decide (msg.length < 65536)
  | .ptpSyncLoss _ => true
  | .scrub _ n _ _ => decide (n < 4)
  | .nocCrcFail _ _ => true
  | .functionLevelReset _ n => decide (n < 4)
  | .conventionalReset _ => true
  | .bar2Access _ n _ len wr => decide (n < 4) && decide (0 < len) && wrWf len wr
  | .bar4Access _ n _ len wr => decide (n < 4) && decide (0 < len) && wrWf len wr
  | .refclkLoss _ => true
  | .railQuiet _ => true
  | .resetNFall _ => true
  | .tjHigh _ => true
  | .islandMemUe _ => true

end Sys2Proof
end

