-- ==== Sys2Proof/Certificates/Slice0/Obligations.lean ====
section
/-! DEFINITION. The statements about the model. Every command is stated to answer a next state of its own effect; `arrive dt s` is the state in which it takes effect, `closing s u` the end of a command whose effect led to u. -/

open Sys2Proof Sys2Proof.Machine

/-- A step of a state whose queue begins with c is exec of c with the queue's rest; an empty queue idles (the model's choice, log entry 27). -/
def Obligations.StepRunsFrontCommand : Prop :=
  (∀ (c : Instr) (rest : List Instr) (s : State), step { s with pending := c :: rest } = exec c { s with pending := rest }) ∧
  (∀ s : State, step { s with pending := [] } = .next { s with pending := [] })

/-- No command puts a command into the queue or takes one from it. -/
def Obligations.CommandsKeepQueue : Prop :=
  ∀ (c : Instr) (s t : State), exec c s = .next t → t.pending = s.pending ∧ t.actor = (0, 0, 0)

/-- Byte memories and tables stay in the canonical form in which equal contents are equal data, over every step from every state that has it. -/
def Obligations.StepKeepsCanonicalForm : Prop :=
  ∀ s t : State, memoriesWf s = true → tablesWf s = true → step s = .next t → memoriesWf t = true ∧ tablesWf t = true

/-- State.reset meets the invariant of StepKeepsCanonicalForm; its queue is empty and SAFE_N is asserted (R517). What else it holds is the model's choice (log entry 3). -/
def Obligations.ResetIsCanonical : Prop :=
  memoriesWf State.reset = true ∧ tablesWf State.reset = true ∧ State.reset.pending = [] ∧ State.reset.safe.safeN = true ∧
  State.reset.graphs = [] ∧ State.reset.hampers = [] ∧ State.reset.msix = []

/-- The one stop of the model: DROOP_TRIP deeper than 60 mV (R633); every other command answers a next state. -/
def Obligations.OnlyUndervoltageStops : Prop :=
  ∀ (c : Instr) (s : State), (∀ r, exec c s ≠ .refused r) ∧
    ((∃ f, exec c s = .fault f) ↔ ∃ dt mv, c = .droopTrip dt mv ∧ ∃ x ∈ mv, 60 < x)

/-- In reset a command other than COLD_START, BAR2_ACCESS and BAR4_ACCESS has no effect of its own; a droop deeper than 60 mV is apart (R633). -/
def Obligations.ResetHoldsTheBlock : Prop :=
  ∀ (c : Instr) (s t : State), s.boot.inReset = true → exec c s = .next t →
    (∀ dt, c ≠ .coldStart dt) → (∀ dt n a len wr, c ≠ .bar2Access dt n a len wr) → (∀ dt n a len wr, c ≠ .bar4Access dt n a len wr) →
    ∃ dt, t = finish s (arrive dt s)

/-- Time and the slewing of an offset (R509, R641). -/
def Obligations.TimePasses : Prop :=
  ∀ (dt : Nat) (s : State),
    (s.timeOn = false → elapse dt s = s) ∧
    (s.timeOn = true → s.slew = 0 → (elapse dt s).time = s.time + BitVec.ofNat 64 dt ∧ (elapse dt s).slew = 0) ∧
    (s.timeOn = true → ∃ d : Int, (elapse dt s).time = s.time + BitVec.ofInt 64 (dt + d) ∧ (elapse dt s).slew = s.slew - d ∧
      -((dt / 10000 : Nat) : Int) ≤ d ∧ d ≤ ((dt / 10000 : Nat) : Int)) ∧
    (elapse dt s).regs = s.regs ∧ (elapse dt s).hbm = s.hbm ∧ (elapse dt s).graphs = s.graphs

/-- R4 whole: whatever the accessor and the register, a page of an absent instance reads 0 (the header with BLK_CAP and BLK_STAT among it); the second clause says how a write there ends (R5). -/
def Obligations.AbsentPagesReadZero : Prop :=
  ∀ (dt : Nat) (s : State) (who : Who) (a : Nat) (v : Word) (l : Loc), let b := arrive dt s
    b.boot.inReset = false → locate a = some l → present b l.blk l.inst = false →
    regRead b who a = 0 ∧ exec (.registerWrite dt who a v) s = .next (closing s b)

/-- REGISTER_WRITE (R13, R14, R71, R73): the state after the command's own effect, with every other part of the state as it was. -/
def Obligations.RegisterWriteTakesEffect : Prop :=
  ∀ (dt : Nat) (s : State) (who : Who) (a : Nat) (v : Word) (l : Loc) (r : RegRow) (k : Nat), let b := arrive dt s
    locate a = some l → headerOff l = none → rowAt l = some (r, k) → headerOpen b who l →
    (r.acc = .ro ∨ r.acc = .rc → (mayWrite b who l r.r k ≠ .refuse → exec (.registerWrite dt who a v) s = .next (closing s b)) ∧
      (mayWrite b who l r.r k = .refuse → exec (.registerWrite dt who a v) s = .next (closing s (noPerm b (whoPart who))))) ∧
    (mayWrite b who l r.w k = .ok → r.acc = .rw → plainBlk l.blk = true →
      exec (.registerWrite dt who a v) s = .next (closing s (setReg b (pg l.blk l.inst + l.off) (v &&& BitVec.ofNat 32 r.mask)))) ∧
    (mayWrite b who l r.w k = .ok → r.acc = .w1c → exec (.registerWrite dt who a v) s =
      .next (closing s (setReg b (pg l.blk l.inst + l.off) (reg b (pg l.blk l.inst + l.off) &&& ~~~ (v &&& BitVec.ofNat 32 r.mask))))) ∧
    (mayWrite b who l r.w k = .ok → r.acc = .rws → l.blk ≠ .rolv → b.commits.contains (pg (headBlk l.blk) l.inst) = false →
      exec (.registerWrite dt who a v) s = .next (closing s (setReg b (pg l.blk l.inst + l.off) (v &&& BitVec.ofNat 32 r.mask)))) ∧
    (mayWrite b who l r.w k = .ok → r.acc = .rws → l.blk ≠ .rolv → b.commits.contains (pg (headBlk l.blk) l.inst) = true →
      exec (.registerWrite dt who a v) s = .next (closing s (raiseErr b l.blk l.inst 1 none)))

/-- R16, R27, R28, R90: a page that the accessor may not see ignores its writes, a register of a higher level records NO_PERMISSION in the command window of the accessor's partition, and BLK_PART of a page that is not assignable ignores a write without an error. -/
def Obligations.RefusedWritesReport : Prop :=
  ∀ (dt : Nat) (s : State) (f : Nat) (a : Nat) (v : Word) (l : Loc) (r : RegRow) (k : Nat), let b := arrive dt s
    b.boot.inReset = false → locate a = some l →
    (viewOf b (.pf f) l = .absent → exec (.registerWrite dt (.pf f) a v) s = .next (closing s b) ∧ regRead b (.pf f) a = 0) ∧
    (viewOf b (.pf f) l = .denied → (headerOff l ≠ some 0x24 ∨ blkClass l.blk = .assignable) →
      exec (.registerWrite dt (.pf f) a v) s = .next (closing s (raiseErr b .cmdw f 8 none))) ∧
    (viewOf b (.pf f) l = .denied → headerOff l = some 0x24 → blkClass l.blk ≠ .assignable →
      exec (.registerWrite dt (.pf f) a v) s = .next (closing s b)) ∧
    (viewOf b (.pf f) l = .shown → isStopped b = false → bootState b = 2 → headerOff l = none → rowAt l = none → foreign b (.pf f) l = true →
      exec (.registerWrite dt (.pf f) a v) s = .next (closing s (noPerm b f))) ∧
    (viewOf b (.pf f) l = .shown → isStopped b = false → bootState b = 2 → headerOff l = none → rowAt l = some (r, k) → r.w = .host → f ≠ 0 →
      (r.acc = .rw ∨ r.acc = .rws ∨ r.acc = .wo) →
      exec (.registerWrite dt (.pf f) a v) s = .next (closing s (raiseErr b .cmdw f 8 none))) ∧
    (blkClass l.blk = .assignable → f ≠ 0 → owner b l.blk l.inst ≠ f → present b l.blk l.inst = true → bootState b = 2 → viewOf b (.pf f) l = .absent)

/-- COMMIT and COMMIT_APPLIED (R71, R72); the clearing of tile-memory regions stands between check and application on the VTM page (R400). -/
def Obligations.CommitTakesEffect : Prop :=
  (∀ (dt : Nat) (s : State) (who : Who) (page : Nat) (l : Loc), let b := arrive dt s
    let p := pg (headBlk l.blk) l.inst
    locate (page / 0x1000 * 0x1000 + 0x20) = some l → headerOff l = some 0x20 → headerOpen b who l → foreign b who l = false →
    (b.commits.contains p = true → exec (.commit dt who page) s = .next (closing s b)) ∧
    (b.commits.contains p = false → headBlk l.blk ≠ .sys → headBlk l.blk ≠ .isp →
      exec (.commit dt who page) s = .next (closing s { b with commits := b.commits ++ [p] })) ∧
    (∃ u, exec (.commit dt who page) s = .next (closing s u) ∧ u.commits.contains p = true ∧ u.applied = b.applied)) ∧
  (∀ (dt : Nat) (s : State) (page : Nat) (l : Loc), let b := arrive dt s
    let x := headBlk l.blk
    b.boot.inReset = false → locate page = some l → b.commits.contains (pg x l.inst) = true → atBoundary b x l.inst = true → isStopped b = false →
    x ≠ .vtm → x ≠ .isp →
    (commitCheck b x l.inst = false → ∃ u, exec (.commitApplied dt page) s = .next (closing s u) ∧ u.applied = b.applied ∧
      u.commits = b.commits.filter (fun y => y != pg x l.inst) ∧ bitOf (regN u (pg x l.inst + 0x18)) 0 = true) ∧
    (commitCheck b x l.inst = true → ∃ u, exec (.commitApplied dt page) s = .next (closing s u) ∧
      u.applied = (applyShadow b x l.inst).applied ∧ u.commits = b.commits.filter (fun y => y != pg x l.inst) ∧
      bitOf (regN u (pg x l.inst + 0x10)) 0 = true))

/-- R71: applyShadow. -/
def Obligations.ShadowAppliesWhole : Prop :=
  ∀ (s : State) (x : Blk) (n a : Nat), twf regRst s.applied = true → x ≠ .rolv →
    ((∃ y ∈ pageGroup x, ∃ o ∈ rwsOffsets (blkRows y), a = pg y n + o) → app (applyShadow s x n) a = regN s a) ∧
    ((∀ y ∈ pageGroup x, ∀ o ∈ rwsOffsets (blkRows y), a ≠ pg y n + o) → app (applyShadow s x n) a = app s a) ∧
    (applyShadow s x n).regs = s.regs

/-- SOFT_RESET, BLK_PART_WRITE and BLK_ERR_INJ (R28, R66, R74): which operation the command is, and for BLK_PART and the injections what it leaves. -/
def Obligations.PageControlTakesEffect : Prop :=
  ∀ (dt : Nat) (s : State) (who : Who) (page : Nat) (v : Word) (l : Loc), let b := arrive dt s
    isHost who = true →
    (locate (page / 0x1000 * 0x1000 + 0x08) = some l → headerOff l = some 0x08 → headerOpen b who l → foreign b who l = false →
      exec (.softReset dt who page) s = .next (closing s (softReset b (headBlk l.blk) l.inst)) ∧
      pg (headBlk l.blk) l.inst ∉ (softReset b (headBlk l.blk) l.inst).commits) ∧
    (locate (page / 0x1000 * 0x1000 + 0x24) = some l → headerOff l = some 0x24 → headerOpen b who l → blkClass l.blk = .assignable →
      exec (.blkPartWrite dt who page v) s = .next (closing s (partWrite b l.blk l.inst v.toNat)) ∧
      ((∃ x ∈ partGroup l.blk, blkIdle b x l.inst = false ∨ named b x l.inst = true) → partWrite b l.blk l.inst v.toNat = b)) ∧
    (locate (page / 0x1000 * 0x1000 + 0x1C) = some l → headerOff l = some 0x1C → headerOpen b who l → l.blk ≠ .cmdw →
      l.blk ≠ .fgs → l.blk ≠ .safe → l.blk ≠ .pwr →
      exec (.blkErrInj dt who page v) s = .next (closing s (orReg b (pg l.blk l.inst + 0x1C) (v.toNat &&& injBits l.blk))))

/-- R74 on the camera, image, vision, stream-engine and ladle pages. -/
def Obligations.SoftResetRestores : Prop :=
  ∀ (s : State) (x : Blk) (n o : Nat), twf regRst s.regs = true → twf regRst s.applied = true →
    x ∈ [Blk.camp, .isp, .pyr, .warp, .str, .flw, .ftr, .vse, .ladle] → n < blkCount x →
    (o ∈ rwOffsets (blkRows x) → reg (softReset s x n) (pg x n + o) = regRst (pg x n + o) ∧ app (softReset s x n) (pg x n + o) = (regRst (pg x n + o)).toNat) ∧
    owner (softReset s x n) x n = owner s x n ∧ (softReset s x n).hbm = s.hbm ∧ (softReset s x n).graphs = s.graphs

/-- SCRATCHPAD_CLEAR_DONE (R387) and TILE_CLEAR_DONE (R400). -/
def Obligations.ClearsEnd : Prop :=
  ∀ (dt : Nat) (s : State) (n : Nat), let b := arrive dt s
    Works b →
    (b.clearing.contains (pg .spc n) = true → ∃ u, exec (.scratchpadClearDone dt n) s = .next (closing s u) ∧
      u.clearing = b.clearing.filter (fun x => x != pg .spc n) ∧ u.spad = (spadClear b n).spad ∧ u.lane = (spadClear b n).lane ∧ u.hbm = b.hbm ∧
      u.tile = b.tile) ∧
    (b.clearing.contains (pg .vtm 0) = true → ∃ u, exec (.tileClearDone dt) s = .next (closing s u) ∧
      u.clearing = b.clearing.filter (fun x => x != pg .vtm 0) ∧ u.commits = b.commits.filter (fun x => x != pg .vtm 0) ∧ u.hbm = b.hbm ∧
      u.spad = b.spad)

/-- R73 whole, for every RWS register of a page's own table: the lost write, the values a commit applies, and a 0 written to BLK_COMMIT. -/
def Obligations.PendingCommitLocksShadow : Prop :=
  (∀ (dt : Nat) (s : State) (who : Who) (a : Nat) (v : Word) (l : Loc) (r : RegRow) (k : Nat), let b := arrive dt s
    locate a = some l → headerOff l = none → rowAt l = some (r, k) → openWrite b who l r k → r.acc = .rws →
    b.commits.contains (pg (headBlk l.blk) l.inst) = true →
    (l.blk = .rolv → l.off < 0x2000 ∨ (0x2104 ≤ l.off ∧ l.off < 0x2110)) →
    exec (.registerWrite dt who a v) s = .next (closing s (raiseErr b l.blk l.inst 1 none)) ∧
    bitOf (regN (raiseErr b l.blk l.inst 1 none) (pg l.blk l.inst + 0x18)) 1 = true ∧
    (raiseErr b l.blk l.inst 1 none).applied = b.applied ∧ reg (raiseErr b l.blk l.inst 1 none) (pg l.blk l.inst + l.off) = reg b (pg l.blk l.inst + l.off)) ∧
  (∀ (s : State) (x : Blk) (n : Nat), (applyShadow s x n).regs = s.regs ∧
    (twf regRst s.applied = true → ∀ y ∈ pageGroup x, ∀ o ∈ rwsOffsets (blkRows y), app (applyShadow s x n) (pg y n + o) = regN s (pg y n + o))) ∧
  (∀ (dt : Nat) (s : State) (who : Who) (a : Nat) (l : Loc), let b := arrive dt s
    locate a = some l → headerOff l = some 0x20 → headerOpen b who l → foreign b who l = false →
    exec (.registerWrite dt who a 0) s = .next (closing s b))

/-- R652 on its five rings, with what a taken write resumes (R47, R83, R525, R587, R651). -/
def Obligations.ReadIndexWrites : Prop :=
  ∀ (dt : Nat) (s : State) (who : Who) (v : Word), let b := arrive dt s
    (∀ p, p < 4 → writes b who (cw p + 0x160) → exec (.cplRdIdxWrite dt who p v) s = .next (closing s
      (if rdIdxOk b (cw p + 0x15C) (cw p + 0x158) v then cplRetry (setReg b (cw p + 0x160) v) p else b))) ∧
    (∀ p, p < 4 → writes b who (dl p + 0x10) → exec (.dlogRdIdxWrite dt who p v) s = .next (closing s
      (if rdIdxOk b (dl p + 0xC) (dl p + 8) v then
        (if (dlogAt b p).fault then dlogRetry (setReg b (dl p + 0x10) v) p else dlogOwed (setReg b (dl p + 0x10) v) p) else b))) ∧
    (writes b who (safePg + 0x130) → exec (.vrRdIdxWrite dt who v) s = .next (closing s
      (if rdIdxOk b (safePg + 0x12C) (safePg + 0x128) v then vRetry (setReg b (safePg + 0x130) v) else b))) ∧
    (∀ k, k < 4 → writes b who (sk k + 0x18) → exec (.sinkRdIdxWrite dt who k v) s = .next (closing s
      (if rdIdxOk b (sk k + 0x14) (sk k + 8) v then sinkOwed (setReg b (sk k + 0x18) v) k else b))) ∧
    (writes b who (rv 0x150) → exec (.discRdIdxWrite dt who v) s = .next (closing s
      (if rdIdxOk b (rv 0x14C) (rv 0x148) v then setReg b (rv 0x150) v else b)))

/-- CPL_LOG_CONFIG_WRITE, DLOG_CONFIG_WRITE and VR_CONFIG_WRITE (R48, R84, R526). -/
def Obligations.RingConfigurationWrites : Prop :=
  ∀ (dt : Nat) (s : State) (who : Who) (v : Word), let b := arrive dt s
    (∀ p, p < 4 → writes b who (cw p + 0x158) →
      ((outstanding b p ≠ 0 ∨ partStarted b p = true ∨ cplHeld b p = true) →
        exec (.cplLogConfigWrite dt who (cw p + 0x158) v) s = .next (closing s (raiseErr b .cmdw p 11 none))) ∧
      (outstanding b p = 0 → partStarted b p = false → cplHeld b p = false →
        exec (.cplLogConfigWrite dt who (cw p + 0x158) v) s = .next (closing s (writeBack
          (setRegN (setRegN (setRegN b (cw p + 0x158) (log2In 8 20 (v.toNat % 32))) (cw p + 0x15C) 0) (cw p + 0x160) 0) p)))) ∧
    (∀ p, p < 4 → writes b who (dl p + 8) →
      ((partStarted b p = true ∨ (dlogAt b p).lost ≠ 0 ∨ (dlogAt b p).fault = true) →
        exec (.dlogConfigWrite dt who (dl p + 8) v) s = .next (closing s (rexViol b 4))) ∧
      (partStarted b p = false → (dlogAt b p).lost = 0 → (dlogAt b p).fault = false →
        exec (.dlogConfigWrite dt who (dl p + 8) v) s = .next (closing s (setDlog
          (setRegN (setRegN (setRegN b (dl p + 8) (log2In 7 20 (v.toNat % 32))) (dl p + 0xC) 0) (dl p + 0x10) 0) p {})))) ∧
    (writes b who (safePg + 0x128) →
      ((partStarted b 0 = true ∨ b.safe.vheld ≠ []) →
        exec (.vrConfigWrite dt who (safePg + 0x128) v) s = .next (closing s (raiseErr b .safe 0 10 none))) ∧
      (partStarted b 0 = false → b.safe.vheld = [] →
        ∃ u, exec (.vrConfigWrite dt who (safePg + 0x128) v) s = .next (closing s u) ∧
          regN u (safePg + 0x128) = log2In 8 20 (v.toNat % 32) ∧ regN u (safePg + 0x12C) = 0 ∧ regN u (safePg + 0x130) = 0 ∧ u.safe.vcount = 0 ∧
          u.hbm = b.hbm ∧ u.host = b.host))

/-- IRQ_ENABLE_WRITE, CPL_COAL_WRITE and FGS_GRANT_WRITE (R20, R21, R67, R86, R87). -/
def Obligations.WindowControlWrites : Prop :=
  ∀ (dt : Nat) (s : State) (who : Who) (v : Word), let b := arrive dt s
    (∀ a l, locate a = some l → headerOff l = some 0x14 → headerOpen b who l → foreign b who l = false →
      exec (.irqEnableWrite dt who a v) s = .next (closing s (irqEnable b l.blk l.inst v.toNat)) ∧
      ((∀ i, i < 32 → bitOf v.toNat i = true → bitOf (regN b (pg l.blk l.inst + 0x10)) i = false) →
        irqEnable b l.blk l.inst v.toNat = setRegN b (pg l.blk l.inst + 0x14) (v.toNat &&& irqBits l.blk))) ∧
    (∀ p t, p < 4 → t < 256 → writes b who (cw p + 0x400 + 4 * t) →
      exec (.irqEnableWrite dt who (cw p + 0x400 + 4 * t) v) s = .next (closing s (routeWrite b p t (v.toNat &&& 0x13F)))) ∧
    (∀ p, p < 4 → writes b who (cw p + 0x16C) →
      exec (.cplCoalWrite dt who p v) s = .next (closing s (signalIf (setReg b (cw p + 0x16C) v) p false))) ∧
    (∀ p, p < 4 → writes b who (fgsPg + 0x120 + 4 * p) →
      (grantBlocked b p = true → exec (.fgsGrantWrite dt who p v) s = .next (closing s b)) ∧
      (grantBlocked b p = false → exec (.fgsGrantWrite dt who p v) s = .next (closing s (setReg b (fgsPg + 0x120 + 4 * p) (v &&& 0x8000_0FFF)))))

/-- HIGH_WATER_READ (R457), AGE_WORST_READ (R528), LATCHING_LO_READ (R372, R455, R456, R477, R577) and CMD_OPID_READ (R575, R576). -/
def Obligations.ReadsWithEffects : Prop :=
  ∀ (dt : Nat) (s : State) (who : Who), let b := arrive dt s
    Awake b →
    (∀ l a, a = pg .ladle l + 0x814 → readable b who a = true → isStopped b = false →
      exec (.highWaterRead dt who l) s = .next (closing s (setRegN (answered b (regRead b who a)) a 0))) ∧
    (∀ a, a = safePg + 0x30C → readable b who a = true → ∃ u, exec (.ageWorstRead dt who) s = .next (closing s u) ∧
      u.rdata = natLe 4 (ageAt b (regN b (safePg + 0x300) % 256)).worst ∧ (ageAt u (regN b (safePg + 0x300) % 256)).worst = 0 ∧ u.regs = b.regs) ∧
    (∀ a v h, readable b who a = true → isStopped b = false → latchOf b who a = some (v, h) →
      exec (.latchingLoRead dt who a) s = .next (closing s (setRegN (answered b (regRead b who a)) h v))) ∧
    (∀ x n, (x, n) ∈ countedUnits → readable b who (pg x n + 0xC00) = true → isStopped b = false → frozen b = false →
      (cntAt b x n).enteredAt ≠ some b.time →
      ∃ u, exec (.cmdOpidRead dt who (blkCode x) n) s = .next (closing s u) ∧
        regN u (pg x n + 0xC00) = (cntAt b x n).opid % 2 ^ 24 + 2 ^ 24 * ((cntAt b x n).phase % 256) ∧ u.graphs = b.graphs ∧ u.hbm = b.hbm)

/-- LOAD_GRAPH, UNLOAD_GRAPH, START_GRAPH, STOP_GRAPH, RUN_ONCE, DMA_COPY, SET_OPP and QUERY complete (R76 to R80): with a slot free and no reason of R79, each answers the state its effect leaves. -/
def Obligations.SubmittedCommandsAreAccepted : Prop :=
  ∀ (dt : Nat) (s : State) (p : Nat) (w : List Word), let b := arrive dt s
    Works b → p < 4 → w.length = 16 → (cmdwAt b p).latched = none →
    (let t := submitted b p 1 w
      ∀ i, freeSlot t p = some i → lowest (commonReasons t p ++ loadReasons p w t) = none →
        exec (.loadGraph dt p (some w)) s = .next (closing s (acceptedAs t p 1 w i (loadAct p w)))) ∧
    (let t := submitted b p 2 w
      ∀ i, freeSlot t p = some i → lowest (commonReasons t p ++ unloadReasons p w t) = none →
        exec (.unloadGraph dt p (some w)) s = .next (closing s (acceptedAs t p 2 w i (unloadAct w)))) ∧
    (let t := submitted b p 3 w
      ∀ i, freeSlot t p = some i → lowest (commonReasons t p ++ startReasons p w t) = none →
        exec (.startGraph dt p (some w)) s = .next (closing s (acceptedAs t p 3 w i (startAct p w)))) ∧
    (let t := submitted b p 4 w
      ∀ i, freeSlot t p = some i → lowest (commonReasons t p ++ stopReasons p w t) = none →
        exec (.stopGraph dt p (some w)) s = .next (closing s (acceptedAs t p 4 w i (fun h x => stopGraphAct x (argN w 0) h (bitOf (argN w 1) 0))))) ∧
    (let t := submitted b p 5 w
      ∀ i, freeSlot t p = some i → lowest (commonReasons t p ++ runReasons p w t) = none →
        exec (.runOnce dt p (some w)) s = .next (closing s (acceptedAs t p 5 w i (runAct w)))) ∧
    (let t := submitted b p 6 w
      ∀ i, freeSlot t p = some i → lowest (commonReasons t p ++ copyReasons p w t) = none →
        exec (.dmaCopy dt p (some w)) s = .next (closing s (acceptedAs t p 6 w i (copyAct p w)))) ∧
    (let t := submitted b p 7 w
      ∀ i, freeSlot t p = some i → lowest (commonReasons t p ++ oppReasons p w t) = none →
        exec (.setOpp dt p (some w)) s = .next (closing s (acceptedAs t p 7 w i (oppAct w)))) ∧
    (let t := submitted b p 8 w
      ∀ i, freeSlot t p = some i → lowest (commonReasons t p ++ queryReasons p w t) = none →
        exec (.query dt p (some w)) s = .next (closing s (acceptedAs t p 8 w i (queryAct p w)))) ∧
    (∀ i, i < 16 → reg (submitted b p 1 w) (cw p + 0x100 + 4 * i) = nth 0 w i)

/-- Rejections of the eight commands (R79): what the submission left, and CMD_HANDLE. -/
def Obligations.SubmittedCommandsAreRejected : Prop :=
  ∀ (dt : Nat) (s : State) (p : Nat) (w : List Word), let b := arrive dt s
    Works b → p < 4 → w.length = 16 → (cmdwAt b p).latched = none →
    (let t := submitted b p 1 w
      ∀ r, lowest (commonReasons t p ++ loadReasons p w t) = some r → exec (.loadGraph dt p (some w)) s = .next (closing s (setRegN t (cw p + 0x144) (rejection p r)))) ∧
    (let t := submitted b p 2 w
      ∀ r, lowest (commonReasons t p ++ unloadReasons p w t) = some r → exec (.unloadGraph dt p (some w)) s = .next (closing s (setRegN t (cw p + 0x144) (rejection p r)))) ∧
    (let t := submitted b p 3 w
      ∀ r, lowest (commonReasons t p ++ startReasons p w t) = some r → exec (.startGraph dt p (some w)) s = .next (closing s (setRegN t (cw p + 0x144) (rejection p r)))) ∧
    (let t := submitted b p 4 w
      ∀ r, lowest (commonReasons t p ++ stopReasons p w t) = some r → exec (.stopGraph dt p (some w)) s = .next (closing s (setRegN t (cw p + 0x144) (rejection p r)))) ∧
    (let t := submitted b p 5 w
      ∀ r, lowest (commonReasons t p ++ runReasons p w t) = some r → exec (.runOnce dt p (some w)) s = .next (closing s (setRegN t (cw p + 0x144) (rejection p r)))) ∧
    (let t := submitted b p 6 w
      ∀ r, lowest (commonReasons t p ++ copyReasons p w t) = some r → exec (.dmaCopy dt p (some w)) s = .next (closing s (setRegN t (cw p + 0x144) (rejection p r)))) ∧
    (let t := submitted b p 7 w
      ∀ r, lowest (commonReasons t p ++ oppReasons p w t) = some r → exec (.setOpp dt p (some w)) s = .next (closing s (setRegN t (cw p + 0x144) (rejection p r)))) ∧
    (let t := submitted b p 8 w
      ∀ r, lowest (commonReasons t p ++ queryReasons p w t) = some r → exec (.query dt p (some w)) s = .next (closing s (setRegN t (cw p + 0x144) (rejection p r))))

/-- The order of reasons and the form of a rejection (R79). -/
def Obligations.RejectionsReportLowest : Prop :=
  (∀ l : List (Bool × Nat), (lowest l = none ↔ ∀ x ∈ l, x.1 = false) ∧
    (∀ r, lowest l = some r ↔ (true, r) ∈ l ∧ ∀ x ∈ l, x.1 = true → r ≤ x.2)) ∧
  (∀ p r, p < 4 → r < 2 ^ 16 → bitOf (rejection p r) 31 = true ∧ fld (rejection p r) 29 2 = p ∧ fld (rejection p r) 16 13 = 0 ∧ fld (rejection p r) 0 16 = r)

/-- Handles and slots (R78). -/
def Obligations.HandlesNameTheirSlot : Prop :=
  (∀ s p i, freeSlot s p = some i → i < 256 ∧ (tget (fun _ => ({} : CmdSlot)) (cmdwAt s p).slots i).busy = false ∧
    ∀ j, j < i → (tget (fun _ => ({} : CmdSlot)) (cmdwAt s p).slots j).busy = true) ∧
  (∀ s p, freeSlot s p = none → ∀ j, j < 256 → (tget (fun _ => ({} : CmdSlot)) (cmdwAt s p).slots j).busy = true) ∧
  (∀ g, 1 ≤ nextGen g ∧ nextGen g ≤ 8191 ∧ (g < 8191 → nextGen g = g + 1)) ∧ nextGen 8191 = 1 ∧
  (∀ p g i, p < 4 → 1 ≤ g → g ≤ 8191 → i < 256 → mkHandle p g i ≠ 0 ∧ bitOf (mkHandle p g i) 31 = false ∧ fld (mkHandle p g i) 29 2 = p ∧
    fld (mkHandle p g i) 16 13 = g ∧ fld (mkHandle p g i) 0 16 = i) ∧
  (∀ s p i op ref, (takeSlot s p i op ref).1 = mkHandle p (nextGen (tget (fun _ => ({} : CmdSlot)) (cmdwAt s p).slots i).gen) i ∧
    (takeSlot s p i op ref).2.regs = s.regs ∧ (takeSlot s p i op ref).2.graphs = s.graphs ∧ (takeSlot s p i op ref).2.hbm = s.hbm)

/-- What the graph commands leave of the named graph and of the others (R80, R100, R101). -/
def Obligations.GraphCommandsChangeTheirGraph : Prop :=
  (∀ (s : State) (p h : Nat) (w : List Word) (img : List Byte) (j : Nat), twf (fun _ => {}) s.graphs = true →
    vaRead s p (arg64 w 1) (argN w 3) = .ok img → graphAt (loadAct p w h s) (argN w 0) = { stat := .loading, part := p, img := readImage img, loadHandle := h } ∧
    (j ≠ argN w 0 → graphAt (loadAct p w h s) j = graphAt s j) ∧ (loadAct p w h s).regs = s.regs ∧ (loadAct p w h s).hbm = s.hbm) ∧
  (∀ (dt : Nat) (s : State) (g : Nat), let b := arrive dt s
    Works b → (graphAt b g).stat = .loading → ∃ u, exec (.imageResident dt g) s = .next (closing s u) ∧
      u = pushFinal (setGraph b g { graphAt b g with stat := .loaded, loadHandle := 0 }) (graphAt b g).loadHandle stOk (blkCode .fgs)) ∧
  (∀ (s : State) (h : Nat) (w : List Word), unloadAct w h s = pushFinal (setGraph s (argN w 0) {}) h stOk (blkCode .fgs)) ∧
  (∀ (s : State) (p h : Nat) (w : List Word) (j : Nat), twf (fun _ => {}) s.graphs = true →
    let x := graphAt s (argN w 0)
    let y := graphAt (startAct p w h s) (argN w 0)
    y.stat = .started ∧ y.handle = h ∧ y.startAt = s.time ∧ y.runs = 0 ∧ y.part = x.part ∧ y.img = x.img ∧ y.flows.length = x.img.flows.length ∧
    (bitOf (argN w 1) 0 = true → y.seed = arg64 w 2) ∧ (bitOf (argN w 1) 0 = false → y.seed = x.img.seed) ∧
    (j ≠ argN w 0 → graphAt (startAct p w h s) j = graphAt s j)) ∧
  (∀ (s : State) (g h j : Nat) (drain : Bool), twf (fun _ => {}) s.graphs = true →
    let y := graphAt (stopGraphAct s g h drain) g
    (y.stat = .loaded ∨ y.stat = (if drain then .drain else .cancel)) ∧ y.part = (graphAt s g).part ∧ y.img = (graphAt s g).img ∧
    (j ≠ g → graphAt (stopGraphAct s g h drain) j = graphAt s j)) ∧
  (∀ (s : State) (h f j : Nat) (w : List Word), twf (fun _ => {}) s.graphs = true →
    let x := graphAt s (argN w 0)
    commandFlow x (argN w 1) = some f → f < x.flows.length →
    let y := graphAt (runAct w h s) (argN w 0)
    y.runs = x.runs + 1 ∧ (flowAt y f).highResv = some (BitVec.ofNat 32 x.runs) ∧
    (flowAt y f).resv = (flowAt x f).resv ++ [{ seq := BitVec.ofNat 32 x.runs, stamp := s.time, handle := h, table := arg64 w 2 }] ∧
    (j ≠ argN w 0 → graphAt (runAct w h s) j = graphAt s j) ∧ (runAct w h s).regs = s.regs)

/-- DMA_COPY (R432, R444), SET_OPP (R552) and QUERY (R80) as accepted. -/
def Obligations.CopiesPointsAndQueriesTakeEffect : Prop :=
  (∀ (s : State) (p h : Nat) (w : List Word), twf (fun _ => {}) s.movers = true →
    let k := movKey (.ch (argN w 5 % 32))
    let c : MovCmd := { part := p, handle := h, copy := some (arg64 w 0, arg64 w 2, argN w 4), armedAt := s.time.toNat }
    ((movAt s k).active = none → (movAt (copyAct p w h s) k).active = some c ∧ (movAt (copyAct p w h s) k).shadow = none) ∧
    ((movAt s k).active ≠ none → (movAt (copyAct p w h s) k).active = (movAt s k).active ∧ (movAt (copyAct p w h s) k).shadow = some c) ∧
    (copyAct p w h s).hbm = s.hbm ∧ (copyAct p w h s).host = s.host ∧ (copyAct p w h s).graphs = s.graphs) ∧
  (∀ (s : State) (h : Nat) (w : List Word),
    (s.pwr.openMode = true → (oppAct w h s).pwr.maxOpp = argN w 0 % 16 ∧ (oppAct w h s).pwr.setOpp = some h ∧ (oppAct w h s).pwr.setTick = true ∧
      (oppAct w h s).regs = s.regs) ∧
    (s.pwr.openMode = false → ∃ u, oppAct w h s = requestOpp u (argN w 0 % 16) ∧ u.pwr.fixed = argN w 0 % 16 ∧ u.pwr.setOpp = some h ∧ u.regs = s.regs)) ∧
  (∀ (s : State) (p h : Nat) (w : List Word), ∃ l : List Byte, l.length ≤ argN w 3 ∧
    queryAct p w h s = pushFinal (vaWrite s p (arg64 w 1) l).1 h stOk (blkCode .cmdw) ∧
    (argN w 0 = 3 → 8 ≤ argN w 3 → l = natLe 4 (regN s (pg .pwr 0 + 0x100)) ++ natLe 4 (oppStat s)))

/-- COAL_TIME_EXPIRY (R86), FUNCTION_LEVEL_RESET (R88), CONVENTIONAL_RESET (R89), BAR2_ACCESS and BAR4_ACCESS (R64, R65, R595). -/
def Obligations.HostEventsTakeEffect : Prop :=
  (∀ (dt : Nat) (s : State) (p : Nat), let b := arrive dt s
    Works b → coalDue b p = true → exec (.coalTimeExpiry dt p) s = .next (closing s (signalLog b p))) ∧
  (∀ (dt : Nat) (s : State) (n : Nat), let b := arrive dt s
    Awake b → isStopped b = false → n < 4 → ∃ u v, exec (.functionLevelReset dt n) s = .next (closing s u) ∧
      u = setCmdw v n { slots := (cmdwAt b n).slots.map (fun e => (e.1, { e.2 with busy := false, op := 0, ref := 0 })) } ∧
      (∀ a, cw n ≤ a → a < cw n + 0x1000 → reg u a = regRst a)) ∧
  (∀ (dt : Nat) (s : State), let b := arrive dt s
    Awake b → b.boot.prog = none → b.boot.starting = false → bootState b = 2 → b.pwr.shutdown = false →
    ∃ u, exec (.conventionalReset dt) s = .next (closing s u) ∧ u = beginStart b false ∧ u.boot.starting = true ∧ u.boot.cold = false ∧ bootState u = 1 ∧
      u.hbm = b.hbm ∧ u.time = b.time ∧ u.graphs = []) ∧
  (∀ (dt : Nat) (s : State) (n a len : Nat), let b := arrive dt s
    ((3 < n ∨ b.boot.inReset = true ∨ isStopped b = true ∨ bootState b ≠ 2 ∨ bar2Size b n < a + len) →
      exec (.bar2Access dt n a len none) s = .next (closing s { b with rdata := List.replicate len 255 })) ∧
    (∀ l, (3 < n ∨ b.boot.inReset = true ∨ isStopped b = true ∨ bootState b ≠ 2 ∨ bar2Size b n < a + l.length) →
      exec (.bar2Access dt n a len (some l)) s = .next (closing s b)) ∧
    (∀ q c, n < 4 → b.boot.inReset = false → isStopped b = false → bootState b = 2 → a + len ≤ bar2Size b n → piecesOf (bar2Va b n a) len = [(q, c)] →
      let r := bar2ReadPiece n q c b
      exec (.bar2Access dt n a len none) s = .next (closing s { r.2 with rdata := r.1 }) ∧
      (bar2Hit b n q .r = false → r = (List.replicate c 255, bar2Miss b n)) ∧
      (bar2Hit b n q .r = true → ∀ x u, meetRead b n q c .r = (.ok x, u) → r = (x, u))) ∧
    (∀ l q c, n < 4 → b.boot.inReset = false → isStopped b = false → bootState b = 2 → a + l.length ≤ bar2Size b n →
      piecesOf (bar2Va b n a) l.length = [(q, c)] → c = l.length →
      exec (.bar2Access dt n a len (some l)) s = .next (closing s (if bar2Hit b n q .w then (meetWrite b n q l).1 else bar2Miss b n)))) ∧
  (∀ (dt : Nat) (s : State) (a len : Nat), let b := arrive dt s
    b.boot.inReset = false → isStopped b = false → bootState b ≠ 3 →
    (bar4At b a = .none_ → exec (.bar4Access dt 0 a len none) s = .next (closing s { b with rdata := List.replicate len 0 }) ∧
      ∀ l, exec (.bar4Access dt 0 a len (some l)) s = .next (closing s b)) ∧
    (∀ l, 0x2000_0000 ≤ a → a + l.length ≤ 0x2000_0000 + vtmArea → a % 8 = 0 → l.length % 8 = 0 →
      ∃ u, exec (.bar4Access dt 0 a len (some l)) s = .next (closing s u) ∧ u.tile = memWrite b.tile (a - 0x2000_0000) l ∧
        u.spad = b.spad ∧ u.lane = b.lane ∧ u.hbm = b.hbm))

/-- Sequence comparison (R102), which camera frames, replay and release use. -/
def Obligations.SequencesCompareAround : Prop :=
  (∀ a b : Word, seqBelow a b = true ↔ ∃ d : Nat, 1 ≤ d ∧ d < 2 ^ 31 ∧ b = a + BitVec.ofNat 32 d) ∧
  (∀ a b : Word, a ≠ b → b - a ≠ 0x8000_0000 → (seqBelow a b = true ↔ seqBelow b a = false)) ∧ (∀ a : Word, seqBelow a a = false) ∧
  (∀ a b : Word, seqAbove a b = seqBelow b a)

/-- FRAME_START, LINE_PACKET, EMBEDDED_PACKET, FRAME_END and GENERIC_SHORT_PACKET (R136, R138, R139, R141 to R143, R147 to R150, R152, R159): each answers a next state for every packet of a port that receives. -/
def Obligations.CameraPacketsTakeEffect : Prop :=
  ∀ (dt : Nat) (s : State) (port vc n num ty : Nat) (bytes : List Byte) (bad : Bool), let b := arrive dt s
    let any := ctxsOf b port (vcOf b port vc) none
    let pix := ctxsOf b port (vcOf b port vc) (some (if (dtBits ty).isSome then ty else 64))
    let b1 := if bad then bump b (cport port + 0x808) 1 else b
    Works b → portOn b port = true →
    (any = [] →
      exec (.frameStart dt port vc num false) s = .next (closing s (bump b (cport port + 0x80C) 1)) ∧
      ((ty = 0x12 ∨ (0x30 ≤ ty ∧ ty ≤ 0x37)) →
        exec (.embeddedPacket dt port vc ty bytes bad false) s = .next (closing s (bump b1 (cport port + 0x80C) 1))) ∧
      exec (.frameEnd dt port vc num false) s = .next (closing s (bump b (cport port + 0x80C) 1))) ∧
    (pix = [] → exec (.linePacket dt port vc ty bytes bad false) s = .next (closing s (bump b1 (cport port + 0x80C) 1))) ∧
    exec (.genericShortPacket dt port false) s = .next (closing s (bump b (cport port + 0x80C) 1)) ∧
    (ty ≠ 0x12 → (ty < 0x30 ∨ 0x37 < ty) → exec (.embeddedPacket dt port vc ty bytes bad false) s = .next (closing s b)) ∧
    (any = [n] → injArmed b .cams n 1 = false →
      (bitOf (app b (cp n + 0x108)) 0 = false → (camsAt b n).halted = false → camFlow b n = none → (camsAt b n).frame = none →
        b.commits.contains (pg .cams n) = false →
        let q : Word := match (camsAt b n).prev with | some x => x + 1 | none => 0
        ∃ u, exec (.frameStart dt port vc num false) s = .next (closing s u) ∧ (camsAt u n).prev = some q ∧ reg u (cp n + 0x134) = q ∧
          (camsAt u n).frame = some { seq := q, fs := b.time, last := b.time, num := num } ∧ u.hbm = b.hbm ∧ u.graphs = b.graphs ∧
          (∀ m, m ≠ n → camsAt u m = camsAt b m)) ∧
      exec (.frameStart dt port vc num false) s = .next (closing s (startOn (boundary .cams) b n num)) ∧
      (∀ fr, (camsAt b n).frame = some fr → fr.drop = false → bad = false → (ty = 0x12 ∨ (0x30 ≤ ty ∧ ty ≤ 0x37)) →
        (app b (cp n + 0x130) < fr.emb + (4 + (bytes.length + 3) / 4 * 4) →
          exec (.embeddedPacket dt port vc ty bytes bad false) s =
            .next (closing s (setCams b n { camsAt b n with frame := some { fr with flags := fr.flags ||| 0x20 } }))) ∧
        (fr.emb + (4 + (bytes.length + 3) / 4 * 4) ≤ app b (cp n + 0x130) →
          let w := meetWrite b (owner b .cams n) (camSlot b n fr.seq + app b (cp n + 0x12C) + fr.emb)
            (natLe 4 (ty + 256 * bytes.length) ++ bytes ++ List.replicate ((bytes.length + 3) / 4 * 4 - bytes.length) 0)
          exec (.embeddedPacket dt port vc ty bytes bad false) s = .next (closing s (match w.2 with
            | none => setCams w.1 n { camsAt w.1 n with frame := some { fr with emb := fr.emb + (4 + (bytes.length + 3) / 4 * 4) } }
            | some _ => camHalt w.1 n fr)))) ∧
      (∀ fr, (camsAt b n).frame = some fr → fr.drop = true → let t := shortEnd b n fr
        exec (.frameEnd dt port vc num false) s = .next (closing s (setCams t n { camsAt t n with frame := none }))) ∧
      (∀ fr, (camsAt b n).frame = some fr → fr.drop = false → fr.lines = camH b n → dropReasons b n fr.flags = [] → settingsLate b n fr.seq = false →
        let w := meetWrite b (owner b .cams n) (camSlot b n fr.seq) (metaBytes b n fr fr.flags fr.lines)
        exec (.frameEnd dt port vc num false) s = .next (closing s (match w.2 with
          | none => frameEndEvent (countKept (setCams w.1 n { camsAt w.1 n with frame := none }) n fr.flags) n fr.seq fr.last fr.flags
          | some _ => setCams (camHalt w.1 n fr) n { camsAt (camHalt w.1 n fr) n with frame := none })))) ∧
    (pix = [n] → injArmed b .cams n 1 = false → injArmed b .cams n 0 = false → bad = false →
      ∀ fr, (camsAt b n).frame = some fr → fr.drop = false → fr.extra = false → fr.lines < camH b n →
        bytes.length = packedLen (camDt b n) (camW b n) →
        let px := (unpackLine (camDt b n) bytes).take (camW b n)
        let w := writeLine b n { fr with last := b.time } (px ++ List.replicate (camW b n - px.length) (app b (cp n + 0x110) % 65536)) 0
        let y := match w.1 with
          | some fr3 => setCams w.2 n { camsAt w.2 n with frame := some fr3 }
          | none => camHalt w.2 n { fr with last := b.time }
        exec (.linePacket dt port vc ty bytes bad false) s =
          .next (closing s (if fr.lines + 1 = camH b n then openWindows y n fr.seq y.time else y)) ∧
        (∀ fr3, w.1 = some fr3 → fr3.lines = fr.lines + 1 ∧ fr3.flags = fr.flags))

/-- HEADER_UNCORRECTABLE (R138, R150), FRAME_TIMEOUT (R150) and LINK_DOWN (R171). -/
def Obligations.CameraFailuresDropFrames : Prop :=
  ∀ (dt : Nat) (s : State) (port n : Nat) (sot : Bool), let b := arrive dt s
    Works b → port < blkCount .camp → n < blkCount .cams →
    (portOn b port = true →
      exec (.linkDown dt port) s = .next (closing s (raiseIrq b .camp port 8 none)) ∧
      (bitOf (regN (raiseIrq b .camp port 8 none) (cport port + 0x10)) 8 = true) ∧
      exec (.headerUncorrectable dt ⟨port, sot⟩) s = .next (closing s (headerLost (if sot then sotError b port else b) port)) ∧
      (sot = true → bitOf (regN (sotError b port) (cport port + 0x18)) 8 = true) ∧
      ((∀ m ∈ presentList b .cams, camSrc b m = port → ∀ fr, (camsAt b m).frame = some fr → fr.drop = true) →
        headerLost b port = bump b (cport port + 0x804) 1)) ∧
    (∀ fr, (camsAt b n).frame = some fr → fr.drop = false → fld (app b (cp n + 0x10C)) 16 16 ≠ 0 →
      fld (app b (cp n + 0x10C)) 16 16 * 1000 ≤ (b.time - fr.fs).toNat →
      exec (.frameTimeout dt n) s = .next (closing s (endLost b n)) ∧ (camsAt (endLost b n) n).frame = none ∧ leastReason b n fr.flags 5 ≤ 5 ∧
      ((camsAt b n).logged ≠ some fr.seq → bitOf (regN (endLost b n) (cp n + 0x10)) 9 = true) ∧
      (camH b n ≤ fr.lines → endLost b n = (let u := dropOpen b n fr (leastReason b n fr.flags 5); setCams u n { camsAt u n with frame := none })))

/-- BUNDLE_PUSH, BUNDLE_ISSUE, BUNDLE_DONE, SETTINGS_WINDOW_CLOSE (R157 to R163), FSYNC_ARM, FSYNC_DISARM and FSYNC_PULSE (R164, R165). -/
def Obligations.SettingsAndFrameSyncTakeEffect : Prop :=
  ∀ (dt : Nat) (s : State) (who : Who) (u n f : Nat) (v : Word), let b := arrive dt s
    u < 12 → n < 16 →
    (Works b → writes b who (sp u + 0x158) → bitOf v.toNat 0 = true →
      exec (.bundlePush dt who u v) s = .next (closing s (bundlePushAct b u)) ∧
      (16 ≤ (sctlAt b u).queue.length → ∀ h d, let a := alignDown (regN b (sp u + 0x150)) 8 + 2 ^ 32 * regN b (sp u + 0x154)
        vaRead b (owner b .sctl u) a 16 = .ok h → vaRead b (owner b .sctl u) (a + 16) (8 * min 32 (leAt h 8 1)) = .ok d →
        bundlePushAct b u = setRegN b (sp u + 0x15C) ((sctlAt b u).queue.length + 256))) ∧
    (Works b → (sctlAt b u).bus = none → b.commits.contains (pg .sctl u) = false → ∀ i x w, nextBundle b u = some (i, x, w) →
      ∃ t, exec (.bundleIssue dt u) s = .next (closing s t) ∧ (sctlAt t u).bus = some { x with effect := w.target } ∧
        (sctlAt t u).queue = (sctlAt b u).queue.eraseIdx i ∧ t.hbm = b.hbm ∧ t.cams = b.cams) ∧
    (Works b → ∀ x, (sctlAt b u).bus = some x →
      (∃ t, exec (.bundleDone dt u false) s = .next (closing s t) ∧ (sctlAt t u).bus = none ∧
        (camsAt t x.ctx).effects = (camsAt b x.ctx).effects ++ [⟨x.effect, x.id⟩] ∧ bitOf (regN t (sp u + 0x10)) 9 = true ∧ t.hbm = b.hbm) ∧
      (∃ t, exec (.bundleDone dt u true) s = .next (closing s t) ∧ (sctlAt t u).bus = none ∧
        (camsAt t x.ctx).effects = (camsAt b x.ctx).effects ∧ bitOf (regN t (sp u + 0x18)) 8 = true ∧ t.hbm = b.hbm)) ∧
    (Works b → twf (fun _ => []) (sctlAt b u).wins = true →
      ∃ t, exec (.settingsWindowClose dt u f) s = .next (closing s t) ∧
        winsAt t u f = (winsAt b u f).filter (fun w => decide (b.time.toNat < w.close.toNat)) ∧ (sctlAt t u).bus = (sctlAt b u).bus ∧ t.hbm = b.hbm) ∧
    (writes b who (fsyncBase n + 0x10) →
      (reg64 b (fsyncBase n) (fsyncBase n + 4) < b.time.toNat + 10000 →
        exec (.fsyncArm dt who n v) s = .next (closing s (raiseErr b .sctl (fsyncSctl n) 10 none))) ∧
      (b.time.toNat + 10000 ≤ reg64 b (fsyncBase n) (fsyncBase n + 4) →
        exec (.fsyncArm dt who n v) s = .next (closing s (setFsync (setRegN b (fsyncBase n + 0x10) ((v ||| 1).toNat % 4)) n
          { armed := true, start := BitVec.ofNat 64 (reg64 b (fsyncBase n) (fsyncBase n + 4)), period := regN b (fsyncBase n + 8)
            width := regN b (fsyncBase n + 0xC), count := 0, lastAt := 0, valid := false }))) ∧
      exec (.fsyncDisarm dt who n v) s =
        .next (closing s (setFsync (setRegN b (fsyncBase n + 0x10) ((v &&& ~~~1).toNat % 4)) n { fsyncAt b n with armed := false }))) ∧
    (Works b → (fsyncAt b n).armed = true → fsyncPresent b n = true →
      ((fsyncAt b n).start + BitVec.ofNat 64 ((fsyncAt b n).count * (fsyncAt b n).period)).toNat ≤ b.time.toNat →
      ∃ t, exec (.fsyncPulse dt n) s = .next (closing s t) ∧ (fsyncAt t n).count = (fsyncAt b n).count + 1 ∧ (fsyncAt t n).valid = true ∧
        (fsyncAt t n).lastAt = (fsyncAt b n).start + BitVec.ofNat 64 ((fsyncAt b n).count * (fsyncAt b n).period) ∧
        ((fsyncAt b n).count = 0 → regN t (fsyncBase n + 0x14) = 0))

/-- LIST_WR_IDX_WRITE, REPLAY_FRAME_ITEM, REPLAY_DROP_ITEM and REPLAY_END_ITEM (R51, R166 to R170). -/
def Obligations.ReplayItemsTakeEffect : Prop :=
  ∀ (dt : Nat) (s : State) (who : Who) (r l c : Nat) (v : Word) (it : List Byte), let b := arrive dt s
    let q := BitVec.ofNat 32 (leAt it 4 4)
    let back := match tget (fun _ => (none : Option Word)) (rplAt b r).prev c with | some p => !seqAbove q p | none => false
    l < 16 → r < 8 →
    (writes b who (rp r + 0x11C + 0x10 * l) →
      exec (.listWrIdxWrite dt who r l v) s = .next (closing s (setReg b (rp r + 0x11C + 0x10 * l) v))) ∧
    (Works b → present b .rpl r = true → (rplAt b r).halted = false → bitOf (regN b (rp r + 8)) 0 = true → nextList b r = some c →
      (∀ e, b.commits.contains (pg .rpl r) = false → readItem b r c = .error e →
        exec (.replayFrameItem dt r) s = .next (closing s (rplHalt b r c 3)) ∧ (rplAt (rplHalt b r c 3) r).halted = true) ∧
      (readItem b r c = .ok it →
        (leAt it 0 2 = 1 → back = true → b.commits.contains (pg .rpl r) = false → exec (.replayFrameItem dt r) s = .next (closing s (rplHalt b r c 1))) ∧
        (∀ n, leAt it 0 2 = 1 → back = false → b.commits.contains (pg .rpl r) = false → listCtx b r c = some n →
          exec (.replayFrameItem dt r) s = .next (closing s (injectFrame (boundary .cams) b r c n it))) ∧
        (leAt it 0 2 = 2 → back = false → ∃ t, exec (.replayDropItem dt r) s = .next (closing s t) ∧ t = injectDrop b r c it ∧
          (listCtx b r c = none → dlogOn b (owner b .rpl r) = false → reg t (rp r + 0x210 + 4 * c) = reg b (rp r + 0x210 + 4 * c) + 1 ∧ (rplAt t r).turn = (c + 1) % 16)) ∧
        (leAt it 0 2 = 3 → ∃ t, exec (.replayEndItem dt r) s = .next (closing s t) ∧ bitOf (listCfg t r c) 16 = false ∧
          reg t (rp r + 0x210 + 4 * c) = reg b (rp r + 0x210 + 4 * c) + 1 ∧ bitOf (regN t (rp r + 0x10)) 8 = true ∧ t.hbm = b.hbm)))

/-- TIMER_TRIGGER (R101, R103, R109), HAMPER_FORM (R105, R108) and HAMPER_RELEASE (R126 to R128). -/
def Obligations.TriggersAndFormationTakeEffect : Prop :=
  ∀ (dt : Nat) (s : State) (g f : Nat), let b := arrive dt s
    let x := graphAt b g
    Works b →
    (x.stat = .started → (trigOf x f).kind = 2 → (flowAt x f).stopped = false → f < x.flows.length → tickTime x (trigOf x f) (flowAt x f).ticks ≤ now b →
      (roomFor b g f = true → ∃ u, exec (.timerTrigger dt g f) s = .next (closing s u) ∧ (flowAt (graphAt u g) f).ticks = (flowAt x f).ticks + 1 ∧
        (flowAt (graphAt u g) f).resv = (flowAt x f).resv ++
          [{ seq := BitVec.ofNat 32 (flowAt x f).ticks, stamp := BitVec.ofNat 64 (tickTime x (trigOf x f) (flowAt x f).ticks) }] ∧
        u.hampers = b.hampers ∧ u.regs = b.regs ∧ u.hbm = b.hbm) ∧
      (roomFor b g f = false → x.part < 4 → ∃ u, exec (.timerTrigger dt g f) s = .next (closing s u) ∧
        (flowAt (graphAt u g) f).ticks = (flowAt x f).ticks + 1 ∧ (flowAt (graphAt u g) f).resv = (flowAt x f).resv ∧
        bitOf (regN u (fgsPg + 0x10)) 10 = true ∧ (frozen b = false → reg u (fgsCnt x.part 0x14) = reg b (fgsCnt x.part 0x14) + 1) ∧ u.hbm = b.hbm)) ∧
    (∀ g f r, (formOrder b).findSome? (fun y => (formable b y.1 y.2).map (fun r => (y.1, y.2, r))) = some (g, f, r) →
      ∃ u l h, exec (.hamperForm dt) s = .next (closing s u) ∧ u.hampers = l ++ [h] ∧
        l.map (fun o => (o.graph, o.flow, o.seq, o.stamp)) = b.hampers.map (fun o => (o.graph, o.flow, o.seq, o.stamp)) ∧
        h.graph = g ∧ h.flow = f ∧ h.seq = r.seq ∧ h.handle = r.handle ∧
        h.cancelled = false ∧ h.tasks.length = (tasksOf (graphAt b g) f).length ∧ u.spad = b.spad ∧ u.tile = b.tile) ∧
    (∀ h, (hampersOf b g f).find? (releasable b) = some h → mayRelease b (graphAt b g).part = true →
      ∃ u, exec (.hamperRelease dt g f) s = .next (closing s u) ∧ u = release b h ∧
        u.hampers.map (fun o => (o.graph, o.flow, o.seq, o.tasks)) =
          (b.hampers.filter (fun o => !isHamper h.graph h.flow h.seq o)).map (fun o => (o.graph, o.flow, o.seq, o.tasks)) ∧
        (faultyNodes h = [] → u.hampers = b.hampers.filter (fun o => !isHamper h.graph h.flow h.seq o))) ∧
    (((hampersOf b g f).find? (releasable b) = none ∨ mayRelease b (graphAt b g).part = false) →
      exec (.hamperRelease dt g f) s = .next (closing s b))

/-- TASK_PREFETCH (R113, R114), TASK_END (R111, R120, R124), COLLECTOR_ENTRY (R125), PARK (R116, R340) and RESUME (R117, R341). -/
def Obligations.TasksMoveThroughTheirUnits : Prop :=
  ∀ (dt : Nat) (s : State) (n : Nat), let b := arrive dt s
    Works b →
    (∀ c x i, pick b (candidates b) = some (c, some (x, i)) → ∃ u, exec (.taskPrefetch dt) s = .next (closing s u) ∧
      u = place b c.h c.t x i ∧ (unitAt u x i).pre = some (refOf c.h c.t) ∧ (unitAt u x i).run = (unitAt b x i).run ∧ u.regs = b.regs ∧ u.hbm = b.hbm) ∧
    (∀ x r st, x ∈ unitTypes → x ≠ .nc → (unitAt b x n).run = some r → (unitAt b x n).done = some st →
      (ladleRoom b (graphAt b r.graph) r.node st = false → exec (.taskEnd dt (blkCode x) n) s = .next (closing s b)) ∧
      (ladleRoom b (graphAt b r.graph) r.node st = true → ∃ u, exec (.taskEnd dt (blkCode x) n) s = .next (closing s u) ∧
        u = taskEnd (if x = .ftr then fmsRelease b r else b) x n r st 0 ∧ (unitAt u x n).run = none ∧ (unitAt u x n).done = none ∧
        ((fifoOf b (srcKey x n)).length < fifoDepth (srcKey x n) → fifoOf u (srcKey x n) = fifoOf b (srcKey x n) ++ [⟨r, st⟩]))) ∧
    (∀ r x st, (unitAt b .nc n).run = some r → (unitAt b .nc n).done = none → (coreAt b n).ctx = some x → x.kill = some st →
      ncQuiet (pruneTask b n r) n r = true → ladleRoom (pruneTask b n r) (graphAt (pruneTask b n r) r.graph) r.node st = true →
      ∃ u, exec (.taskEnd dt (blkCode .nc) n) s = .next (closing s u) ∧ (unitAt u .nc n).run = none ∧ (coreAt u n).ctx = none) ∧
    (∀ j, nextSource b = some j → ∃ u, exec (.collectorEntry dt) s = .next (closing s u) ∧ u.collector = (j + 1) % sources.length ∧
      fifoOf u (nth 0 sources j) = (fifoOf b (nth 0 sources j)).drop 1 ∧ u.regs = b.regs ∧ u.hbm = b.hbm ∧
      u.graphs = b.graphs) ∧
    (∀ x, let e := asActor .nc n (opOf b .nc n) b
      present b .nc n = true → parkable e n = true → (coreAt e n).ctx = some x →
      (∀ st v, saveFile n (freePark (coreAt e n)) e = (Except.error st, v) → exec (.park dt n) s = .next (closing s (endCtx v n st))) ∧
      (∀ v, saveFile n (freePark (coreAt e n)) e = (Except.ok (), v) →
        ∃ u, exec (.park dt n) s = .next (closing s u) ∧ (coreAt u n).ctx = none ∧ (coreAt u n).acc = [] ∧ (unitAt u .nc n).run = none ∧
        ((coreAt b n).live = false →
          (coreAt u n).parked = (coreAt b n).parked ++ [⟨x, freePark (coreAt b n), false, (coreAt b n).tree, (coreAt b n).cover⟩] ∧ u.spad = b.spad))) ∧
    (∀ r k e p, let t := refreshParks (asActor .nc n (opOf b .nc n) b)
      present b .nc n = true → (unitAt t .nc n).run = none → tasterHolds t (unitAt t .nc n) = false →
      (unitAt t .nc n).parks.find? (fun q => q.2.2) = some (r, k, e) → (coreAt t n).parked.find? (fun q => q.ctx.task == r) = some p → p.saved = false →
      ∃ u, exec (.resume dt n) s = .next (closing s u) ∧ (coreAt u n).ctx = some p.ctx ∧ (unitAt u .nc n).run = some r ∧
        (coreAt u n).parked = (coreAt b n).parked.filter (fun q => q.ctx.task != r) ∧ u.spad = b.spad)

/-- Every engine command completes on every task: ISP_FRAME, PYR_BUILD, WARP_MESH, WARP_HOMOGRAPHY, STR_DISPARITY, FLW_FLOW, FTR_DETECT and FTR_MATCH (R119, R128, R208, R230, R282, R303). -/
def Obligations.EnginesRunTheirTask : Prop :=
  ∀ (dt : Nat) (s : State) (u : Nat), let b := arrive dt s
    Works b →
    (let t := startTask b .isp u
      let e := asActor .isp u (opOf t .isp u) t
      unitThere b .isp u = true → ∀ v, vtask e .isp u = some v →
      let r := ispFrame v e
      (r.1 = Except.ok () → exec (.ispFrame dt u) s = .next (closing s (finishRun r.2 .isp u 0))) ∧
      (∀ st, r.1 = Except.error st → exec (.ispFrame dt u) s = .next (closing s
        (finishRun (match ispBit st with | some k => raiseErr r.2 .isp u k none | none => r.2) .isp u st)))) ∧
    (let t := startTask b .pyr u
      let e := asActor .pyr u (opOf t .pyr u) t
      unitThere b .pyr u = true → ∀ v, vtask e .pyr u = some v →
      let r := pyrBuild v e
      (r.1 = Except.ok () → exec (.pyrBuild dt u) s = .next (closing s (finishRun r.2 .pyr u 0))) ∧
      (∀ st, r.1 = Except.error st → exec (.pyrBuild dt u) s = .next (closing s
        (finishRun (match visBit 0x0300 st with | some k => raiseErr r.2 .pyr u k none | none => r.2) .pyr u st)))) ∧
    (let t := startTask b .warp u
      let e := asActor .warp u (opOf t .warp u) t
      unitThere b .warp u = true → ∀ v, vtask e .warp u = some v → warpIsHom e u = false →
      let r := warpTile v e
      (r.1 = Except.ok () → exec (.warpMesh dt u) s = .next (closing s (finishRun r.2 .warp u 0))) ∧
      (∀ st, r.1 = Except.error st → exec (.warpMesh dt u) s = .next (closing s
        (finishRun (match visBit 0x0310 st with | some k => raiseErr r.2 .warp u k none | none => r.2) .warp u st)))) ∧
    (let t := startTask b .warp u
      let e := asActor .warp u (opOf t .warp u) t
      unitThere b .warp u = true → ∀ v, vtask e .warp u = some v → warpIsHom e u = true →
      let r := warpTile v e
      (r.1 = Except.ok () → exec (.warpHomography dt u) s = .next (closing s (finishRun r.2 .warp u 0))) ∧
      (∀ st, r.1 = Except.error st → exec (.warpHomography dt u) s = .next (closing s
        (finishRun (match visBit 0x0310 st with | some k => raiseErr r.2 .warp u k none | none => r.2) .warp u st)))) ∧
    (let t := startTask b .str u
      let e := asActor .str u (opOf t .str u) t
      unitThere b .str u = true → ∀ v, vtask e .str u = some v →
      let r := strTile v e
      (r.1 = Except.ok () → exec (.strDisparity dt u) s = .next (closing s (finishRun r.2 .str u 0))) ∧
      (∀ st, r.1 = Except.error st → exec (.strDisparity dt u) s = .next (closing s
        (finishRun (match visBit 0x0400 st with | some k => raiseErr r.2 .str u k none | none => r.2) .str u st)))) ∧
    (let t := startTask b .flw u
      let e := asActor .flw u (opOf t .flw u) t
      unitThere b .flw u = true → ∀ v, vtask e .flw u = some v →
      let r := flwTile v e
      (r.1 = Except.ok () → exec (.flwFlow dt u) s = .next (closing s (finishRun r.2 .flw u 0))) ∧
      (∀ st, r.1 = Except.error st → exec (.flwFlow dt u) s = .next (closing s
        (finishRun (match flwBit st with | some k => raiseErr r.2 .flw u k none | none => r.2) .flw u st)))) ∧
    (let t := startTask b .ftr u
      let e := asActor .ftr u (opOf t .ftr u) t
      unitThere b .ftr u = true → ∀ v, vtask e .ftr u = some v → ftrOp e u = 1 →
      let r := (fun t => (do let c ← ftrCommand t; ftrDetect t c : Eng Unit)) v e
      (r.1 = Except.ok () → exec (.ftrDetect dt u) s = .next (closing s (finishRun r.2 .ftr u 0))) ∧
      (∀ st, r.1 = Except.error st → exec (.ftrDetect dt u) s = .next (closing s
        (finishRun (match visBit 0x0600 st with | some k => raiseErr r.2 .ftr u k none | none => r.2) .ftr u st)))) ∧
    (let t := startTask b .ftr u
      let e := asActor .ftr u (opOf t .ftr u) t
      unitThere b .ftr u = true → ∀ v, vtask e .ftr u = some v → ftrOp e u = 2 →
      let r := (fun t => (do let c ← ftrCommand t; ftrMatch t c : Eng Unit)) v e
      (r.1 = Except.ok () → exec (.ftrMatch dt u) s = .next (closing s (finishRun r.2 .ftr u 0))) ∧
      (∀ st, r.1 = Except.error st → exec (.ftrMatch dt u) s = .next (closing s
        (finishRun (match visBit 0x0600 st with | some k => raiseErr r.2 .ftr u k none | none => r.2) .ftr u st)))) ∧
    (∀ x n st, (unitAt (finishRun b x n st) x n).done = some st ∧ (unitAt (finishRun b x n st) x n).run = (unitAt b x n).run)

/-- FMS_LOAD, LOAD_GO, LOAD_CLEAR, SET_OWN_WRITE, FMS_LOAD_START and FMS_VERSION_SWITCH (R297 to R302, R308). -/
def Obligations.MatchSetsTakeEffect : Prop :=
  ∀ (dt : Nat) (s : State) (who : Who) (u : Nat) (v : Word), let b := arrive dt s
    let p := whoFn who
    let base := 0x400_0000 * p + fmsPg
    let l : MsLoad := ⟨v.toNat % 256, p, 0, alignDown (reg64 b (base + 0x140) (base + 0x144)) 8 % 2 ^ 48, 0, regN b (base + 0x148) % storeSize, false, true, none, false, false, 0, false, b.time⟩
    (writes b who (fmsPg + 0x14C) → genLocked b p = false →
      (ownsSet b p (v.toNat % 256) = true →
        (∃ t, exec (.loadGo dt who v) s = .next (closing s t) ∧ t.fms.loads = (loseLatest b p).fms.loads ++ [l] ∧ regN t (loadStat p) = 1 ∧ t.tile = b.tile) ∧
        (∃ t, exec (.loadClear dt who v) s = .next (closing s t) ∧ t.fms.loads = (loseLatest b p).fms.loads ++ [{ l with clear := true }] ∧
          regN t (loadStat p) = 1 ∧ t.tile = b.tile)) ∧
      (ownsSet b p (v.toNat % 256) = false → ∃ t, exec (.loadGo dt who v) s = .next (closing s t) ∧ t.fms.loads = (loseLatest b p).fms.loads ∧
        t.tile = b.tile)) ∧
    (writes b who (fmsPg + 0x118) → let m := regN b (base + 0x100) % 256
      ((curVer b m).count = 0 → retiring b m = [] → (curVer b m).holders = [] →
        ∃ t, exec (.setOwnWrite dt who v) s = .next (closing s t) ∧ setOwn t m = v.toNat % 4 + b2n (bitOf v.toNat 8) * 256 ∧ t.regs = b.regs ∧
          (∀ k, k ≠ m → setOwn t k = setOwn b k)) ∧
      ((curVer b m).count ≠ 0 → exec (.setOwnWrite dt who v) s = .next (closing s b))) ∧
    (Works b → (let t := startTask b .ftr u
      let e := asActor .ftr u (opOf t .ftr u) t
      ∀ v c x, present b .ftr u = true → vtask e .ftr u = some v → ftrOp e u = 3 →
      e.fms.loads.any (fun l => match l.task with | some y => y.1 == v.ref | none => false) = false →
      ftrCommand v e = (Except.ok c, x) → ownsSet x v.part (leAt c 22 1) = true →
      ∃ w, exec (.fmsLoad dt u) s = .next (closing s w) ∧ ∃ l, w.fms.loads = queueLoad l x.fms.loads ∧ l.set = leAt c 22 1 ∧ l.part = v.part ∧
        l.task = some (v.ref, u) ∧ l.started = false ∧ w.tile = x.tile) ∧
      (let t := startTask b .ftr u
      let e := asActor .ftr u (opOf t .ftr u) t
      ∀ v, present b .ftr u = true → vtask e .ftr u = some v → ftrOp e u = 3 →
      e.fms.loads.any (fun l => match l.task with | some y => y.1 == v.ref | none => false) = false →
      (∀ st, (ftrCommand v e).1 = Except.error st → exec (.fmsLoad dt u) s = .next (closing s (finishRun
        (match visBit 0x0600 st with | some k => raiseErr (ftrCommand v e).2 .ftr u k none | none => (ftrCommand v e).2) .ftr u st))) ∧
      (∀ c, (ftrCommand v e).1 = Except.ok c → ownsSet (ftrCommand v e).2 v.part (leAt c 22 1) = false →
        exec (.fmsLoad dt u) s = .next (closing s (finishRun (ftrCommand v e).2 .ftr u 0x0605))))) ∧
    (Works b → b.fms.loads.any (·.started) = false → b.commits.contains (pg .fms 0) = false → ∀ l, b.fms.loads.find? (fun l => !l.deferred) = some l →
      (l.clear = true → ∃ t, exec (.fmsLoadStart dt) s = .next (closing s t) ∧ t.tile = b.tile ∧ t.regs = b.regs ∧
        t.fms.loads = b.fms.loads.replace l { l with count := 0, digest := 0, started := true }) ∧
      (∀ h x, l.clear = false → planeRead l.part l.space l.addr 16 b = (Except.ok h, x) → setFileOk h = false →
        exec (.fmsLoadStart dt) s = .next (closing s (loadFail x l 0x0607 2))) ∧
      (∀ h x d y, l.clear = false → planeRead l.part l.space l.addr 16 b = (Except.ok h, x) → setFileOk h = true → storeBusy x l.base (leAt h 4 4) = false →
        l.base + leAt h 4 4 ≤ storeSize → fmsUse x l.part + leAt h 4 4 ≤ regN x (fmsPg + 0x180 + 4 * l.part) % 2 ^ 18 →
        planeRead l.part l.space (l.addr + 16) (36 * leAt h 4 4) x = (Except.ok d, y) →
        ∃ t, exec (.fmsLoadStart dt) s = .next (closing s t) ∧ t.tile = memWrite y.tile (storeAt l.base) d ∧ t.fms.loads.any (·.started) = true)) ∧
    (Works b → ∀ l, b.fms.loads.find? (·.started) = some l →
      ∃ t, exec (.fmsVersionSwitch dt) s = .next (closing s t) ∧ t.fms.loads = b.fms.loads.erase l ∧
        (curVer t l.set).base = (if l.clear then 0 else l.base) ∧ (curVer t l.set).count = l.count ∧ (curVer t l.set).digest = l.digest ∧
        tget (fun _ => 0) t.fms.gen l.set = (tget (fun _ => 0) b.fms.gen l.set + 1) % 2 ^ 32 ∧ t.tile = b.tile ∧ t.hbm = b.hbm)

/-- Decoding (R350) and conversion (R365, R369) agree on every finite code, both zeros and the subnormals included. -/
def Obligations.FiniteCodesConvertToThemselves : Prop :=
  ∀ f ∈ [fE4M3, fE5M2, fFP16, fBF16, fFP32, fE2M1, fE3M2, fE2M3], ∀ c : Nat, c < 2 ^ f.width → c % 2 ^ (f.eb + f.mb) ≤ f.maxFin →
    fconv f (fdec f c) = c

/-- The thirteen instruction rows of a core (R309, R313 to R323) complete for every instruction of their kind: what an instruction's meaning answers is what the step does. -/
def Obligations.CoreInstructionsRetireOrEnd : Prop :=
  ∀ (dt : Nat) (s : State) (u : Nat), let b := arrive dt s
    let e := asActor .nc u (opOf b .nc u) b
    Works b → present b .nc u = true → ncActive e u = true →
    (∀ w n f, fetchInsn u e = (Except.ok (w, n), f) →
      (kindOf w n = .custom 0 → exec (.ncMma dt u) s = .next (closing s (itraceStep u e (afterInsn u (customInsn u 0 w n (icacheInject f u)))))) ∧
      (kindOf w n = .custom 1 → exec (.ncMdrain dt u) s = .next (closing s (itraceStep u e (afterInsn u (customInsn u 1 w n (icacheInject f u)))))) ∧
      (kindOf w n = .custom 2 → exec (.ncMrawst dt u) s = .next (closing s (itraceStep u e (afterInsn u (customInsn u 2 w n (icacheInject f u)))))) ∧
      (kindOf w n = .custom 3 → exec (.ncMrawadd dt u) s = .next (closing s (itraceStep u e (afterInsn u (customInsn u 3 w n (icacheInject f u)))))) ∧
      (kindOf w n = .custom 4 → exec (.ncSe dt u) s = .next (closing s (itraceStep u e (afterInsn u (customInsn u 4 w n (icacheInject f u)))))) ∧
      (kindOf w n = .custom 5 → exec (.ncWait dt u) s = .next (closing s (itraceStep u e (afterInsn u (customInsn u 5 w n (icacheInject f u)))))) ∧
      (kindOf w n = .custom 6 → exec (.ncLpop dt u) s = .next (closing s (itraceStep u e (afterInsn u (customInsn u 6 w n (icacheInject f u)))))) ∧
      (kindOf w n = .custom 7 → exec (.ncRsig dt u) s = .next (closing s (itraceStep u e (afterInsn u (customInsn u 7 w n (icacheInject f u)))))) ∧
      (kindOf w n = .custom 8 → exec (.ncRwait dt u) s = .next (closing s (itraceStep u e (afterInsn u (customInsn u 8 w n (icacheInject f u)))))) ∧
      (kindOf w n = .custom 9 → exec (.ncFence dt u) s = .next (closing s (itraceStep u e (afterInsn u (customInsn u 9 w n (icacheInject f u)))))) ∧
      (kindOf w n = .custom 10 → exec (.ncEnd dt u) s = .next (closing s (itraceStep u e (afterInsn u (customInsn u 10 w n (icacheInject f u)))))) ∧
      (kindOf w n = .scalar → exec (.scalarInstruction dt u) s = .next (closing s (itraceStep u e (afterInsn u (scalarInsn u w n (icacheInject f u)))))) ∧
      (kindOf w n = .vector → exec (.vectorInstruction dt u) s = .next (closing s (itraceStep u e (afterInsn u (vectorInsn u w n (icacheInject f u))))))) ∧
    (∀ c v t, fetchInsn u e = (Except.error (.trap c v), t) →
      exec (.scalarInstruction dt u) s = .next (closing s (itraceStep u e (trapCtx t u c v)))) ∧
    (∀ t pc x, (coreAt t u).ctx = some x → twf (fun _ => {}) t.cores = true →
      (coreAt (retire t u pc) u).ctx = some { x with pc := pc, instret := x.instret + 1 } ∧ (retire t u pc).spad = t.spad ∧ (retire t u pc).hbm = t.hbm)

/-- Scalar results (R315, R316, R319); the encodings and effects are those of RV64I (the model's choice, log entry 15). -/
def Obligations.ScalarResultsFollowTheirRule : Prop :=
  ∀ (s : State) (u rd rs1 rs2 : Nat) (x : Ctx), (coreAt s u).ctx = some x → twf (fun _ => {}) s.cores = true → rd < 32 → rs1 < 32 → rs2 < 32 →
    let put := fun (v : DWord) => modCx s u (setX rd v)
    (∀ i : Int, -2048 ≤ i → i < 2048 → scalarInsn u (encI i rs1 0 rd 0x13) 4 s = (Except.ok (x.pc + 4), put (xr s u rs1 + BitVec.ofInt 64 i))) ∧
    scalarInsn u (encR 0 rs2 rs1 0 rd 0x33) 4 s = (Except.ok (x.pc + 4), put (xr s u rs1 + xr s u rs2)) ∧
    scalarInsn u (encR 0x20 rs2 rs1 0 rd 0x33) 4 s = (Except.ok (x.pc + 4), put (xr s u rs1 - xr s u rs2)) ∧
    scalarInsn u (encR 1 rs2 rs1 0 rd 0x33) 4 s = (Except.ok (x.pc + 4), put (xr s u rs1 * xr s u rs2)) ∧
    (∀ i : Int, -524288 ≤ i → i < 524288 → scalarInsn u (encU i rd 0x37) 4 s = (Except.ok (x.pc + 4), put (BitVec.ofInt 64 (4096 * i))) ∧
      scalarInsn u (encU i rd 0x17) 4 s = (Except.ok (x.pc + 4), put (x.pc + BitVec.ofInt 64 (4096 * i)))) ∧
    (∀ i : Int, -524288 ≤ i → i < 524288 → scalarInsn u (encJ (2 * i) rd) 4 s = (Except.ok (x.pc + BitVec.ofInt 64 (2 * i)), put (x.pc + 4))) ∧
    (∀ i : Int, -2048 ≤ i → i < 2048 → scalarInsn u (encB (2 * i) rs1 0) 4 s =
      (Except.ok (if xr s u rs1 = 0 then x.pc + BitVec.ofInt 64 (2 * i) else x.pc + 4), s)) ∧
    scalarInsn u 0x73 4 s = (Except.error (.trap 8 0), s) ∧ scalarInsn u 0x0010_0073 4 s = (Except.error (.trap 3 x.pc.toNat), s) ∧
    scalarInsn u 0 4 s = (Except.error (.trap 2 0), s) ∧
    xr s u 0 = 0 ∧ (∀ v, setX 0 v x = x) ∧
    (∀ v, (coreAt (put v) u).ctx = some (setX rd v x) ∧ (put v).regs = s.regs ∧ (put v).hbm = s.hbm ∧ (put v).spad = s.spad)

/-- The custom instructions (R309, R310, R320 to R323, R343). -/
def Obligations.CoreCommandsQueueWaitAndEnd : Prop :=
  ∀ (s : State) (u w k : Nat) (x : Ctx), (coreAt s u).ctx = some x → twf (fun _ => {}) s.cores = true →
    let a := xr s u (fld w 15 5)
    let c := xr s u (fld w 20 5)
    (k < 4 → fld w 20 5 = 0 →
      (16 ≤ (coreAt s u).mq.length → customInsn u k w 4 s = (Except.error .stall, s)) ∧
      (∀ o bk r, (coreAt s u).mq.length < 16 → codeAddr a.toNat = .sp o → inWindow s u o 32 = true → spRead u o 32 s = (Except.ok bk, r) →
        r.cores = s.cores → ∃ t, customInsn u k w 4 s = (Except.ok (x.pc + 4), t) ∧
          (coreAt t u).mq.map (fun m => (m.kind, m.blk, m.ticket, m.task, m.ids)) =
            (coreAt s u).mq.map (fun m => (m.kind, m.blk, m.ticket, m.task, m.ids)) ++ [(k, bk, x.mIssued + 1, x.task, x.ids)] ∧
          (coreAt t u).ctx = some (setX (fld w 7 5) (BitVec.ofNat 64 (x.mIssued + 1)) { x with mIssued := x.mIssued + 1 }) ∧ t.spad = r.spad)) ∧
    (c.toNat < 32 → (coreAt s u).sq.length < 16 → ∀ bk r, rawLoad u a.toNat 32 s = (Except.ok bk, r) → r.cores = s.cores →
      ∃ t, customInsn u 4 w 4 s = (Except.ok (x.pc + 4), t) ∧ (coreAt t u).sq = (coreAt s u).sq ++ [⟨bk, c.toNat, x.sIssued + 1, x.ids, x.task⟩] ∧
        (coreAt t u).ctx = some (setX (fld w 7 5) (BitVec.ofNat 64 (x.sIssued + 1)) { x with sIssued := x.sIssued + 1 })) ∧
    (fld w 7 5 = 0 → a = 0 → c.toNat ≤ x.mIssued →
      (c.toNat ≤ mDoneCount x → customInsn u 5 w 4 s = (Except.ok (x.pc + 4), s)) ∧
      (mDoneCount x < c.toNat → customInsn u 5 w 4 s = (Except.error .stall, s))) ∧
    (fld w 7 5 = 0 → fld w 20 5 = 0 → a.toNat < 4 → ∀ id st n d, x.ring = some (id, st, n) →
      boundTo (graphAt s x.task.graph) .nc (if bitOf a.toNat 0 then (st + n - 1) % n else (st + 1) % n) = some d →
      customInsn u 7 w 4 s = (Except.ok (x.pc + 4), { s with ringSigs := s.ringSigs ++ [⟨u, d, id, x.task.seq, fld a.toNat 1 1, x.sIssued, x.task⟩] })) ∧
    (fld w 7 5 = 0 → fld w 20 5 = 0 → a.toNat < 8 →
      ((bitOf a.toNat 0 = true → mDoneCount x = x.mIssued) ∧ (bitOf a.toNat 1 = true → sDoneCount x = x.sIssued) →
        customInsn u 9 w 4 s = (Except.ok (x.pc + 4), s)) ∧
      (bitOf a.toNat 0 = true ∧ mDoneCount x ≠ x.mIssued → customInsn u 9 w 4 s = (Except.error .stall, s))) ∧
    (fld w 7 5 = 0 → fld w 20 5 = 0 → x.kill = none →
      ∃ t y, customInsn u 10 w 4 s = (Except.ok ((cx t u).pc + 4), t) ∧ (coreAt t u).ctx = some y ∧ y.kill = some (if a = 0 then 0 else 0x0707) ∧ y.pc = x.pc ∧
        (∀ q ∈ (coreAt t u).sq, q.task ≠ x.task))

/-- NC_RUN (R311 to R314), MATRIX_COMMAND_COMPLETE (R309, R310, R327) and RING_SIGNAL_ARRIVE (R343, R344). -/
def Obligations.CoreTasksStartAndWorkCompletes : Prop :=
  ∀ (dt : Nat) (s : State) (u : Nat), let b := arrive dt s
    let t := startTask b .nc u
    let e := itraceSync (asActor .nc u (opOf t .nc u) t) u
    let m := asActor .nc u (opOf b .nc u) b
    Works b → present b .nc u = true →
    (∀ v, vtask e .nc u = some v → (coreAt e u).ctx = none →
      (∀ c k, v.ent.cmdLen = 64 → vaRead e v.part v.ent.cmdAddr 64 = .ok c → readRun c = some k → runOk e u v k = true →
        ∃ y, exec (.ncRun dt u) s = .next (closing s y) ∧ (coreAt y u).ctx = some (freshCtx e v k) ∧ (coreAt y u).acc = [] ∧ (coreAt y u).live = false ∧
          (freshCtx e v k).pc = BitVec.ofNat 64 k.entry ∧ xr y u 2 = BitVec.ofNat 64 (2 ^ 63 + k.init) ∧ xr y u 10 = BitVec.ofNat 64 k.a0 ∧
          xr y u 11 = BitVec.ofNat 64 k.a1 ∧ (∀ i, i ≠ 2 → i ≠ 10 → i ≠ 11 → xr y u i = 0) ∧ y.spad = e.spad ∧ y.hbm = e.hbm) ∧
      (v.ent.cmdLen ≠ 64 ∨ (∃ x, vaRead e v.part v.ent.cmdAddr 64 = .error x) ∨ (∃ c, vaRead e v.part v.ent.cmdAddr 64 = .ok c ∧ readRun c = none) →
        exec (.ncRun dt u) s = .next (closing s (finishRun (raiseErr e .nc u 9 none) .nc u 0x0701))) ∧
      (∀ c k, v.ent.cmdLen = 64 → vaRead e v.part v.ent.cmdAddr 64 = .ok c → readRun c = some k → runOk e u v k = false →
        ∃ y, exec (.ncRun dt u) s = .next (closing s y) ∧ (unitAt y .nc u).done = some 0x0701 ∧ (coreAt y u).ctx = none)) ∧
    (let h := startMatrix m u
     ((coreAt h u).mq.find? (·.started) = none → exec (.matrixCommandComplete dt u) s = .next (closing s h)) ∧
      (∀ c x, (coreAt h u).mq.find? (·.started) = some c →
        let q := setCore h u { coreAt h u with mq := (coreAt h u).mq.erase c }
        taskCtx q u c.task = some x →
        let r := (match c.kind with | 0 => mmaRun | 1 => drainRun | 2 => rawStoreRun | _ => rawAddRun) u x c.blk q
        (r.1 = Except.ok () → ∃ z, exec (.matrixCommandComplete dt u) s = .next (closing s (startMatrix z u)) ∧
          z.cores = (modCtx r.2 u c.task (fun d => { d with mDone := d.mDone ++ [c.ticket] })).cores ∧ z.spad = r.2.spad ∧ z.lane = r.2.lane) ∧
        (∀ k, r.1 = Except.error k → exec (.matrixCommandComplete dt u) s =
          .next (closing s (pruneTask (endsWith r.2 u c.task (matStatus k)) u c.task))))) ∧
    (∀ i g, (List.range b.ringSigs.length).find? (fun i => match b.ringSigs[i]? with
        | some g => g.dst == u && (b.ringSigs.take i).all (fun o => !(o.src == g.src && o.dst == g.dst)) && sigReady b g
        | none => false) = some i → b.ringSigs[i]? = some g →
      ∃ z, exec (.ringSignalArrive dt u) s = .next (closing s z) ∧ z = ringArrive { b with ringSigs := b.ringSigs.eraseIdx i } g ∧
        (frozen b = false → reg z (ncPg u + 0x81C) = reg b (ncPg u + 0x81C) + 1))

/-- STREAM_ARM (R426, R432), DESCRIPTOR_BATCH (R427, R428), STREAM_COMMAND_COMPLETE (R430, R433) and MOVE (R434, R444): each completes for every mover that is present. -/
def Obligations.StreamsArmFetchAndComplete : Prop :=
  ∀ (dt : Nat) (s : State) (m : Mover), let b := arrive dt s
    let v := movAt b (movKey m)
    let e := asActor (movBlk m).1 (movBlk m).2 (match v.active with | some c => c.opId | none => 0) b
    let k := movKey m
    Works b → movPresent b m = true →
    (∀ vs u j x c r y, m = (if vs then Mover.vs u j else .nc u j) →
      (List.range 8).find? (fun n => match (coreAt b n).sq with | c :: _ => streamMover n c.stream == m | [] => false) = some x →
      (coreAt b x).sq = c :: r → taskCtx b x c.task = some y →
      (y.kill ≠ none → exec (.streamArm dt vs u j) s = .next (closing s (pruneTask e x c.task))) ∧
      (y.kill = none → movOwner b m ≠ some y.part → exec (.streamArm dt vs u j) s = .next (closing s (streamRefuse (dropSq e x) m x c 0x13))) ∧
      (y.kill = none → movOwner b m = some y.part → armFull b k = true →
        exec (.streamArm dt vs u j) s = .next (closing s (streamRefuse (dropSq e x) m x c 0x10))) ∧
      (y.kill = none → movOwner b m = some y.part → armFull b k = false → readMove c.cmd false = none →
        exec (.streamArm dt vs u j) s = .next (closing s (streamRefuse (dropSq e x) m x c 0x11))) ∧
      (∀ q, y.kill = none → movOwner b m = some y.part → armFull b k = false → readMove c.cmd false = some q → q.listSp = false → v.active = none →
        ∃ t d, exec (.streamArm dt vs u j) s = .next (closing s t) ∧ (movAt t k).active = some d ∧ d.task = some c.task ∧ d.ticket = c.ticket ∧
          d.part = y.part ∧ d.core = x ∧ d.list = q.list ∧ d.pairs = q.pairs ∧ (coreAt t x).sq = r ∧ t.hbm = b.hbm)) ∧
    (exec (.descriptorBatch dt m) s = .next (closing s (fetchBatch e m)) ∧
      ∀ c, runCmd e m = some c → v.halted = false → v.err = none → v.bad = none → c.copy = none → v.descs.length < c.pairs →
      (v.descs.length - 1) / 8 * 8 ≤ v.pair →
      let i := v.descs.length
      let r := listRead (movCtx m c) c i (min 8 (c.pairs - i)) e
      (∀ f, r.1 = Except.error f → fetchBatch e m = setMov r.2 k { movAt r.2 k with bad := some (i, f, 0xFFFFFFFF) }) ∧
      (∀ l, r.1 = Except.ok l → (movAt (fetchBatch e m) k).descs = v.descs ++ (armAll r.2 m c i (groups 128 8 l)).1)) ∧
    (movable e m = none → exec (.streamCommandComplete dt m) s = .next (closing s e)) ∧
    (∀ c, movable e m = some c → v.bad = none → (if c.copy.isSome then 1 else c.pairs) ≤ v.descs.length →
      (pacedCh b m = false ∨ v.descs.length ≤ v.pair) →
      let t := runTo m c v.descs.length e
      ((movAt t k).err = none → (movAt t k).remW = [] → exec (.streamCommandComplete dt m) s = .next (closing s (finishCmd t m c)) ∧
        (movAt (finishCmd t m c) k).active = (movAt t k).shadow ∧ (movAt (finishCmd t m c) k).shadow = none) ∧
      (((movAt t k).err ≠ none ∨ (movAt t k).remW ≠ []) → exec (.streamCommandComplete dt m) s = .next (closing s t))) ∧
    (∀ ch, m = .ch ch → exec (.move dt ch) s = .next (closing s (moveAct e ch)) ∧
      (∀ d, (unitAt b .dma ch).run = none → v.active = some d → d.task = none → d.copy ≠ none → v.shadow = none → v.descs.length = 1 →
        movable e m = some d → pacedCh b m = false → moveAct e ch = runTo m d 1 e) ∧
      (∀ r, (unitAt b .dma ch).run = some r → (unitAt b .dma ch).done = none → (unitAt b .dma ch).pre = none → v.active = none → v.shadow = none →
        v.cut = none →
        (∀ d, chCommand e ch r = .ok d → (movAt (armUnit e ch) k).active = some { d with armedAt := b.time.toNat }) ∧
        (∀ q, chCommand e ch r = .error q → moveAct e ch = chRefuse e ch q ∧ (unitAt (moveAct e ch) .dma ch).done = some (dmaStatus q))))

/-- FAULT_HALT (R439, R440), SE_RESUME, CH_RESUME and RESUME_TIMEOUT (R441), DMA_RETRY (R445), DMA_BURST (R446, R447), CH_STOP (R449): each completes for every mover that is present. -/
def Obligations.HaltedMoversResumeOrEnd : Prop :=
  ∀ (dt : Nat) (s : State) (who : Who) (m : Mover), let b := arrive dt s
    let v := movAt b (movKey m)
    let e := asActor (movBlk m).1 (movBlk m).2 (match v.active with | some c => c.opId | none => 0) b
    let k := movKey m
    let h := advance e m v.descs.length
    let w := movAt h k
    (Works b → movPresent b m = true →
      (runCmd h m = none → exec (.faultHalt dt m) s = .next (closing s h)) ∧
      (∀ c, runCmd h m = some c →
        ((w.halted = true ∨ w.remW ≠ []) → exec (.faultHalt dt m) s = .next (closing s h)) ∧
        (w.halted = false → w.remW = [] →
          (∀ f wr n, w.err = some (f, wr, n) →
            (retried h m f = true → exec (.faultHalt dt m) s = .next (closing s h)) ∧
            (retried h m f = false → let x := haltAtPos h m c w.pair n f wr
              exec (.faultHalt dt m) s = .next (closing s x) ∧
              ((f = 0x20 ∨ f = 0x21) → w.final = false → (movAt x k).halted = true ∧ (movAt x k).cause = f ∧ (movAt x k).elem = n ∧
                (movAt x k).pair = w.pair ∧ (movAt x k).active = w.active ∧ x.hbm = h.hbm))) ∧
          (w.err = none → ∀ i f o, w.bad = some (i, f, o) → w.pair = w.descs.length →
            exec (.faultHalt dt m) s = .next (closing s (haltAtPos h m c i o f false))) ∧
          (w.err = none → w.bad = none → exec (.faultHalt dt m) s = .next (closing s h))))) ∧
    (v.halted = true → v.final = false → v.active ≠ none →
      (∀ u j, m = .nc u j → u < 8 → j < 16 → writes b who (pg .ncse u + 0x108) → ∃ x, exec (.seResume dt who false u j) s = .next (closing s x) ∧
        (movAt x k).halted = false ∧ (movAt x k).cause = 0 ∧ (movAt x k).pair = v.pair ∧ (movAt x k).active = v.active ∧
        (∀ c, v.active = some c → v.elem ≠ 0xFFFFFFFF → (c.mode = 0 ∨ v.fltInfo % 2 = 1) → (movAt x k).elem = v.elem) ∧ x.hbm = b.hbm) ∧
      (∀ u j, m = .vs u j → u < 4 → j < 32 → writes b who (pg .vse u + 0x108) → ∃ x, exec (.seResume dt who true u j) s = .next (closing s x) ∧
        (movAt x k).halted = false ∧ (movAt x k).cause = 0 ∧ (movAt x k).pair = v.pair ∧ (movAt x k).active = v.active ∧ x.hbm = b.hbm) ∧
      (∀ c, m = .ch c → c < 32 → writes b who (pg .dma 0 + 0x21C + 0x20 * c) → ∃ x, exec (.chResume dt who c) s = .next (closing s x) ∧
        (movAt x k).halted = false ∧ (movAt x k).cause = 0 ∧ (movAt x k).pair = v.pair ∧ (movAt x k).active = v.active ∧ x.hbm = b.hbm) ∧
      (Works b → movPresent b m = true → ∀ lim, lim = (match m with | .ch _ => fld (regN b (pg .dma 0 + 0x100)) 0 20 | _ => fld (regN b (movPg m + 0x104)) 0 20) →
        lim ≠ 0 → lim * 1000 ≤ (b.time - v.haltAt).toNat →
        exec (.resumeTimeout dt m) s = .next (closing s (finalFault e m v.cause)) ∧ (movAt (finalFault e m v.cause) k).final = true ∧
          (movAt (finalFault e m v.cause) k).active = none ∧ (movAt (finalFault e m v.cause) k).shadow = none)) ∧
    (∀ c d x, m = .ch c → c < 32 → v.active = some d → d.copy = some x → writes b who (pg .dma 0 + 0x21C + 0x20 * c) →
      exec (.chStop dt who c) s = .next (closing s (stopCh b c)) ∧ (movAt (stopCh b c) k).active = v.shadow ∧ (movAt (stopCh b c) k).shadow = none) ∧
    (Works b → ∀ c, m = .ch c → movPresent b m = true →
      (w.err = none → exec (.dmaRetry dt c) s = .next (closing s h)) ∧
      (∀ f wr n, w.err = some (f, wr, n) →
        ((w.halted = true ∨ retried h m f = false) → exec (.dmaRetry dt c) s = .next (closing s h)) ∧
        (w.halted = false → retried h m f = true → exec (.dmaRetry dt c) s = .next (closing s
          (advance (bump (setMov h k { w with retries := w.retries + 1, err := none }) (pg .dma 0 + 0x810) 1) m w.descs.length)))) ∧
      (∀ line, (movable e m = none ∨ pacedCh b m = false ∨ v.descs.length ≤ v.pair) → exec (.dmaBurst dt c line) s = .next (closing s e)) ∧
      (∀ d line, movable e m = some d → pacedCh b m = true → v.pair < v.descs.length →
        (reqLine e c = false → exec (.dmaBurst dt c line) s = .next (closing s (setMov e k { v with reqWait := true }))) ∧
        (reqLine e c = true →
          let t := runMov m d v.descs.length (v.descs.length + 1) (some (512 * max 1 (fld (app b (pg .dma 0 + 0x204 + 0x20 * c)) 16 16))) e
          let t1 := setMov t k { movAt t k with reqWait := false }
          ((movAt t k).err ≠ none → exec (.dmaBurst dt c line) s = .next (closing s t)) ∧
          ((movAt t k).err = none → exec (.dmaBurst dt c line) s = .next (closing s (if line then t1 else bump t1 (pg .dma 0 + 0x818) 1))))))

/-- XLAT_INV and XLAT_INV_DONE (R465), ERR_POP (R469), SCRUB (R470) and NOC_CRC_FAIL (R476). -/
def Obligations.MemoryEventsTakeEffect : Prop :=
  ∀ (dt : Nat) (s : State) (who : Who) (v : Word) (n p : Nat), let b := arrive dt s
    (writes b who (nocPg + 0x148) → ∃ t, exec (.xlatInv dt who v) s = .next (closing s t) ∧ v.toNat % 4 ∈ t.invs ∧ bitOf (regN t (nocPg + 0x14C)) 0 = false ∧
      (∀ q ∈ t.invs, q = v.toNat % 4 ∨ q ∈ b.invs) ∧ t.hbm = b.hbm) ∧
    (Works b → b.invs.contains p = true → (dlogAt b p).fault = false → (cmdwAt b p).fault = false → (cmdwAt b p).wbFault = false →
      b.safe.vfault = false → ∃ t, exec (.xlatInvDone dt p) s = .next (closing s t) ∧ t.invs = b.invs.filter (fun q => q != p) ∧
        (t.invs = [] → bitOf (regN t (nocPg + 0x14C)) 0 = true) ∧ t.hbm = b.hbm) ∧
    (n < 4 → writes b who (hbmPg n + 0x184) → ∃ t, exec (.errPop dt who n) s = .next (closing s t) ∧
      tget (fun _ => ([] : List (List Byte))) t.hbmRec n = (tget (fun _ => ([] : List (List Byte))) b.hbmRec n).drop 1 ∧ t.regs = b.regs ∧ t.hbm = b.hbm) ∧
    (∀ w, Works b → bitOf (app b (hbmPg n + 0x100)) 0 = true → present b .hbm n = true → (hbmPlace b (8 * w)).1 = n → 8 * w < hbmCap b →
      (b.hbmUe.contains w = false → exec (.scrub dt n w 0) s = .next (closing s b)) ∧
      exec (.scrub dt n w 1) s = .next (closing s (hbmEvent { b with actor := (blkCode .hbm, n, 0) } 6 (8 * w) 0xFF)) ∧
      exec (.scrub dt n w 3) s = .next (closing s (hbmEvent { b with actor := (blkCode .hbm, n, 0) } 3 (8 * w) 0xFF)) ∧
      exec (.scrub dt n w 4) s = .next (closing s (hbmEvent { b with actor := (blkCode .hbm, n, 0), hbmUe := sins b.hbmUe w } 4 (8 * w) 0xFF)) ∧
      exec (.scrub dt n w 2) s = .next (closing s (hbmEvent { b with actor := (blkCode .hbm, n, 0), hbmUe := sins b.hbmUe w } 7 (8 * w) 0xFF)) ∧
      (sins b.hbmUe w).contains w = true) ∧
    (∀ f, Works b → 0 < f →
      (f ≤ 2 → exec (.nocCrcFail dt f) s = .next (closing s (raiseErr (bump b (nocPg + 0x800) f) .noc 0 8 none))) ∧
      (2 < f → ∃ t, exec (.nocCrcFail dt f) s = .next (closing s t) ∧ t.nocBad = true ∧ bitOf (regN t (nocPg + 0x18)) 9 = true))

/-- TASTER_WINDOW_DUE, TASTER_BEGIN, TASTER_END, TASTER_WEDGED (R529 to R534), DUAL_COMPARE (R536 to R540) and AGE_EXAMINE (R527). -/
def Obligations.TastersAndComparisonsTakeEffect : Prop :=
  ∀ (dt : Nat) (s : State) (x : Blk) (n i : Nat), let b := arrive dt s
    let w := unitAt b x n
    Works b →
    (tasterIdx x n = some i → present b x n = true → w.quarantined = false → w.tasterIvl ≠ (tasterDueAt b i).2 → (tasterDueAt b i).1 ≤ now b →
      w.tasterDue = none → w.tasterOn = none → ∃ u, exec (.tasterWindowDue dt (blkCode x) n) s = .next (closing s u) ∧
        (unitAt u x n).tasterDue = some (BitVec.ofNat 64 (tasterDueAt b i).1) ∧ (unitAt u x n).tasterIvl = (tasterDueAt b i).2 ∧
        (unitAt u x n).tasterOn = (if w.run = none then some b.time else none) ∧ (unitAt u x n).run = w.run ∧ u.regs = b.regs ∧ u.hbm = b.hbm) ∧
    (tasterIdx x n = some i → w.tasterDue ≠ none → w.tasterOn = none → w.run = none →
      ∃ u, exec (.tasterBegin dt (blkCode x) n) s = .next (closing s u) ∧ (unitAt u x n).tasterOn = some b.time ∧ u.regs = b.regs ∧ u.hbm = b.hbm) ∧
    (∀ t, tasterIdx x n = some i → w.tasterOn = some t → 40000 ≤ (b.time - t).toNat →
      let o := tasterOver b x n
      let ran := (fld (regN o (tasterStat i)) 16 16 + 1) % 65536
      (∀ sig, exec (.tasterEnd dt (blkCode x) n false sig) s = .next (closing s
        (tasterFault (setRegN (bump (crumb o (ukey x n) 8 0xFF 0 0 0) (safePg + 0x800) 1) (tasterStat i) (ran * 2 ^ 16)) x n 0x12 0))) ∧
      (injArmed b .safe 0 1 = false →
        exec (.tasterEnd dt (blkCode x) n true none) s = .next (closing s
          (setRegN (crumb (bump o (safePg + 0x800) 1) (ukey x n) 8 0xFF 1 0 0) (tasterStat i) (1 + ran * 2 ^ 16))) ∧
        ∀ g, exec (.tasterEnd dt (blkCode x) n true (some g)) s = .next (closing s
          (tasterFault (setRegN (crumb (bump o (safePg + 0x800) 1) (ukey x n) 8 0xFF 0 0 0) (tasterStat i) (ran * 2 ^ 16)) x n 0x10 (g % 2 ^ 64)))) ∧
      (unitAt o x n).tasterOn = none ∧ (unitAt o x n).tasterDue = none) ∧
    (∀ t, tasterIdx x n = some i → w.tasterDue = some t → w.tasterOn = none → regN b (safePg + 0x10C) * 1000 ≤ (b.time - t).toNat →
      exec (.tasterWedged dt (blkCode x) n) s = .next (closing s (tasterFault (setUnit b x n { w with tasterDue := none }) x n 0x11 0))) ∧
    (∀ d g1 g2, b.safe.pairs.find? (fun d => !d.compared && d.prim.isSome && d.chk.isSome) = some d → injArmed b .safe 0 0 = false →
      d.prim = some (0, g1) → d.chk = some (0, g2) →
      (g1 = g2 → ∃ u, exec (.dualCompare dt) s = .next (closing s u) ∧ u.hbm = b.hbm ∧ u.safe.faults = b.safe.faults ∧
        u.safe.pairs = b.safe.pairs.map (fun x => if x = d then { d with compared := true, agreed := true } else x)) ∧
      (g1 ≠ g2 → ∃ u v, exec (.dualCompare dt) s = .next (closing s u) ∧ u = spreadAll (dualMismatch v d g1 g2) ∧ v.safe.faults = b.safe.faults ∧
        v.safe.pairs = b.safe.pairs.map (fun x => if x = d then { d with compared := true, agreed := false } else x))) ∧
    (injArmed b .safe 0 3 = false → (∀ k, k < 256 → (ageAt b k).valid = false) → exec (.ageExamine dt) s = .next (closing s b)) ∧
    (∀ k h, injArmed b .safe 0 3 = false → k < 256 → (∀ j, j < 256 → j ≠ k → (ageAt b j).valid = false) → (ageAt b k).valid = true →
      oldestHamper b (ageAt b k).graph (ageAt b k).flow = some h → (ageAt b k).bound < ageOf b h → (ageAt b k).overdueSeq ≠ some h.seq →
      ∃ u, exec (.ageExamine dt) s = .next (closing s u) ∧
        u = overdue (setAge b k { ageAt b k with overdueSeq := some h.seq }) (ageAt b k) (some h))

/-- FAULT_REACTION (R517 to R522), LOCKSTEP and ISLAND_MEM_UE (R514, R520), CLOCK_MONITOR_WINDOW (R515), SAFE_HB (R517), SAFE_RELEASE (R517) and FAULT_POP (R546, R547). -/
def Obligations.FaultsAreRecordedAndAnswered : Prop :=
  (∀ (s : State) (r : FaultRec), (s.safe.faults.length < 32 → (pushFault s r).safe.faults = s.safe.faults ++ [r]) ∧
    (32 ≤ s.safe.faults.length → (pushFault s r).safe.faults = s.safe.faults) ∧ (r.cls ≠ 0 → (pushFault s r).safe.react = s.safe.react ++ [r]) ∧
    (r.cls = 0 → (pushFault s r).safe.react = s.safe.react) ∧ (pushFault s r).safe.safeN = s.safe.safeN ∧ (pushFault s r).hbm = s.hbm) ∧
  (∀ (dt : Nat) (s : State) (who : Who) (counts : List Nat), let b := arrive dt s
    Awake b →
    (b.safe.react = [] → exec (.faultReaction dt) s = .next (closing s b)) ∧
    (b.safe.react ≠ [] → ∃ u, exec (.faultReaction dt) s = .next (closing s u) ∧
      u = forAll (b.safe.react.filter (fun r => r.cls == 3) ++ b.safe.react.filter (fun r => r.cls == 2) ++ b.safe.react.filter (fun r => r.cls == 1)) reactTo
        (setSafeN { b with safe := { b.safe with react := [] } } true)) ∧
    (∃ u, exec (.lockstep dt) s = .next (closing s u) ∧ u.safe.safeN = true ∧ u.safe.hbOn = false ∧ u.hbm = b.hbm ∧
      (b.safe.faults.length < 32 → ∃ r, u.safe.faults = b.safe.faults ++ [r] ∧ r.cause = 0x01 ∧ r.time = b.time)) ∧
    (∃ u, exec (.islandMemUe dt) s = .next (closing s u) ∧ u.safe.safeN = true ∧ u.hbm = b.hbm ∧
      (b.safe.faults.length < 32 → ∃ r, u.safe.faults = b.safe.faults ++ [r] ∧ r.cause = 0x02 ∧ r.time = b.time)) ∧
    (b.pwr.switchAt = none → (∀ i e c, i < 13 → clkExpect b i = some e → counts[i]? = some c → 50 * (if c < e then e - c else c - e) ≤ e) →
      ∃ u, exec (.clockMonitorWindow dt counts) s = .next (closing s u) ∧ u.safe = { b.safe with badClk := [] } ∧ u.regs = b.regs) ∧
    (b.pwr.switchAt = none → ∀ i e c, i < 13 → i ∈ b.safe.badClk → clkExpect b i = some e → counts[i]? = some c → e < 50 * (if c < e then e - c else c - e) →
      ∃ u, exec (.clockMonitorWindow dt counts) s = .next (closing s u) ∧ u.safe.safeN = true) ∧
    (b.safe.hbOn = true → 1000000 ≤ (b.time - b.safe.hbAt).toNat → exec (.safeHb dt) s =
      .next (closing s { b with safe := { b.safe with hbPin := !b.safe.hbPin, hbAt := b.time } })) ∧
    (writes b who (safePg + 0x144) → exec (.faultPop dt who) s = .next (closing s { b with safe := { b.safe with faults := b.safe.faults.drop 1 } })) ∧
    (writes b who (safePg + 0x100) →
      (bitOf (regN b (safePg + 0x104)) 1 = true ∧ bitOf (regN b (safePg + 0x104)) 2 = false ∧ regN b (safePg + 0x128) ≠ 0 ∧ isRunning b = true →
        ∃ u, exec (.safeRelease dt who) s = .next (closing s u) ∧ u.safe.safeN = false ∧ u.safe.faults = b.safe.faults ∧ u.hbm = b.hbm) ∧
      (bitOf (regN b (safePg + 0x104)) 1 = false ∨ bitOf (regN b (safePg + 0x104)) 2 = true ∨ regN b (safePg + 0x128) = 0 ∨ isRunning b = false →
        exec (.safeRelease dt who) s = .next (closing s b))))

/-- VOUT_COMMAND_ACK, VSETTLE_EXPIRY, PLL_LOCK_DONE and PLL_SWITCH (R553), DROOP_TRIP, DROOP_LEVEL_STEP and RAIL_QUIET (R555 to R558). -/
def Obligations.PowerTransitionsTakeEffect : Prop :=
  ∀ (dt : Nat) (s : State) (mv : List Nat), let b := arrive dt s
    let w := b.pwr
    Awake b →
    (w.step = 2 → exec (.voutCommandAck dt true) s = .next (closing s (setPwr b { w with step := 3, stepAt := b.time })) ∧
      exec (.voutCommandAck dt false) s = .next (closing s (pwrAdvance (setPwr (pmbusError b) { w with step := 1, stepAt := b.time })))) ∧
    (∀ n, w.step = 3 → settleNs b = some n → n ≤ since b w.stepAt →
      (w.cur < w.target → exec (.vsettleExpiry dt) s = .next (closing s (pwrAdvance (setPwr b { w with step := 4, stepAt := b.time })))) ∧
      (w.target ≤ w.cur → exec (.vsettleExpiry dt) s = .next (closing s (transitionDone b)))) ∧
    (w.step = 5 → 20000 ≤ since b w.stepAt →
      exec (.pllLockDone dt true) s = .next (closing s (pwrAdvance (setPwr b { w with step := 6, stepAt := b.time }))) ∧
      exec (.pllLockDone dt false) s = .next (closing s (pwrAdvance (setPwr b { w with step := 4, stepAt := b.time })))) ∧
    (w.step = 6 → switchFree b = true → w.emerg = false → ∃ v u, exec (.pllSwitch dt) s = .next (closing s u) ∧ v.pwr.cur = w.target ∧ v.pwr.switchAt = some b.time ∧
      v.hbm = b.hbm ∧ u = if w.cur < w.target then transitionDone v else pwrAdvance (setPwr v { v.pwr with step := 1, stepAt := v.time })) ∧
    (w.step = 6 → (switchFree b = false ∨ w.emerg = true) → exec (.pllSwitch dt) s = .next (closing s b)) ∧
    ((∀ x ∈ mv, x ≤ 60) → exec (.droopTrip dt mv) s =
      .next (closing s (tripDetectors b ((List.range (min 64 mv.length)).filter (fun k => decide (droopCfg b 0 8 < nth 0 mv k)))))) ∧
    ((∃ x ∈ mv, 60 < x) → exec (.droopTrip dt mv) s = .fault .coreUndervoltage) ∧
    (∀ l, l ≠ [] → w.step = 0 → (tripDetectors b l).pwr.tripped = l ∧
      (w.tripped = [] → (tripDetectors b l).pwr.droop = max (droopCfg b 8 5) w.droop ∧ (tripDetectors b l).pwr.droopAt = b.time) ∧
      (w.tripped ≠ [] → (tripDetectors b l).pwr.droop = w.droop)) ∧
    (w.tripped ≠ [] → 50 ≤ since b w.droopAt → exec (.droopLevelStep dt) s = .next (closing s
      (noteSkip (setPwr b { w with droop := max w.droop (min (droopCfg b 16 5) (w.droop + 4)), droopAt := w.droopAt + 50 })))) ∧
    (w.tripped = [] → w.droop ≠ 0 → 1000 ≤ since b w.droopAt → exec (.droopLevelStep dt) s = .next (closing s
      (setPwr b { w with droop := w.droop - 1, droopAt := w.droopAt + 1000 }))) ∧
    (w.tripped ≠ [] → exec (.railQuiet dt) s = .next (closing s (setPwr b { w with tripped := [], quietAt := some b.time, droopAt := b.time })))

/-- PWR_TICK (R551, R564, R566), ACTIVITY_SAMPLE (R563, R565), PMBUS_POLL and PMBUS_ALERT (R560 to R562), THERMAL_SAMPLE (R568), EMERG_LEVEL_STEP (R569), THERMAL_SHUTDOWN (R571), PHASE_CLEAR and PHASE_CLEAR_ALL (R565, R572). -/
def Obligations.PowerIsMeasuredAndLimited : Prop :=
  ∀ (dt : Nat) (s : State) (who : Who) (v : Word) (n code word : Nat) (acts : List (Nat × Nat × List Nat)) (temps : List Int), let b := arrive dt s
    let w := b.pwr
    Awake b →
    (since b w.tickAt < 1000000 → exec (.pwrTick dt) s = .next (closing s b)) ∧
    (1000000 ≤ since b w.tickAt → b.commits.contains (pg .pwr 0) = false → ∃ u, exec (.pwrTick dt) s = .next (closing s u) ∧ u.pwr.tickAt = b.time ∧
      u.pwr.nUs = 0 ∧ u.pwr.estSum = 0 ∧ u.pwr.rSum = 0 ∧ u.pwr.grpSum = [] ∧ u.pwr.iouts = []) ∧
    (1000 ≤ since b w.sampleAt → ∃ u, exec (.activitySample dt acts) s = .next (closing s u) ∧ u.pwr.sampleAt = b.time ∧ u.pwr.nUs = w.nUs + 1 ∧
      u.pwr.rSum = w.rSum + acts.foldl (fun a x => a + rawOf b x.2.2) 0 ∧
      u.pwr.estSum = w.estSum + (estOf b (acts.foldl (fun a x => a + rawOf b x.2.2) 0) + w.offset) ∧ u.hbm = b.hbm) ∧
    (let polled := fun (j c : Nat) => tset (fun _ => none) w.polls (j * 256 + c) (some b.time)
     (slotValid b n = true → n ≠ 0 →
      (pollDue b n 0x96 = true → exec (.pmbusPoll dt n 0x96 (some word)) s =
        .next (closing s (setPwr b { w with polls := polled n 0x96, pout := tset (fun _ => 0) w.pout n (linear11 word) }))) ∧
      (pollDue b n code = true → exec (.pmbusPoll dt n code none) s = .next (closing s (pmbusError (setPwr b { w with polls := polled n code }))))) ∧
     (slotValid b 0 = true → injArmed b .pwr 0 2 = false → pollDue b 0 0x8B = true → exec (.pmbusPoll dt 0 0x8B (some word)) s =
        .next (closing s (setPwr b { w with polls := polled 0 0x8B, badPolls := 0, vout := linear16 (tget (fun _ => 0x17) w.vmode 0) word }))) ∧
     (∀ j, (slotValid b j = false ∨ pollDue b j code = false) → exec (.pmbusPoll dt j code (some word)) s = .next (closing s b))) ∧
    (slotValid b 0 = true → injArmed b .pwr 0 2 = false → pollDue b 0 code = true →
      (w.badPolls = 2 → ∃ u t, exec (.pmbusPoll dt 0 code none) s = .next (closing s u) ∧ u = vrFault t ∧ t.pwr.badPolls = 0 ∧ t.pwr.tickErr = true)) ∧
    (slotValid b n = true → exec (.pmbusAlert dt n word) s = .next (closing s (statusWord b n word)) ∧
      (bitOf word 6 = true → ∃ t, statusWord b n word = (if n = 0 ∧ bitOf word 14 = true then overCurrent t else t) ∧ t = vrFault b)) ∧
    (100000 ≤ since b w.thermAt → w.injTemp = none → temps.length = 48 → (∀ t ∈ temps, -160 ≤ t ∧ t ≤ 600) → w.invalid = [] →
      ∃ u, exec (.thermalSample dt temps) s = .next (closing s u) ∧ u.pwr.thermAt = b.time ∧ u.pwr.tj ∈ temps ∧ (∀ t ∈ temps, t ≤ u.pwr.tj) ∧
        u.pwr.invalid = []) ∧
    (w.emerg = false → w.emergLevel ≠ 0 → 100000 ≤ since b w.emergAt → exec (.emergLevelStep dt) s =
      .next (closing s (setPwr b { w with emergLevel := w.emergLevel - 4, emergAt := w.emergAt + 100000 }))) ∧
    (w.shutdown = false → ∃ u, exec (.thermalShutdown dt) s = .next (closing s u) ∧ u.pwr.shutdown = true ∧ u.pwr.thermtrip = true ∧ u.pwr.hbmSelf = true ∧
      isRunning u = false ∧ u.hbm = b.hbm ∧ (b.safe.faults.length < 32 → ∃ r, u.safe.faults = b.safe.faults ++ [r] ∧ r.cause = 0x60)) ∧
    (writes b who (pw 0x318) →
      (∃ u, exec (.phaseClear dt who v) s = .next (closing s u) ∧ u = phaseCtl b 1) ∧ (∃ u, exec (.phaseClearAll dt who) s = .next (closing s u) ∧ u = phaseCtl b 2) ∧
      (phaseCtl b 2).hbm = b.hbm ∧ (phaseCtl b 1).hbm = b.hbm)

/-- WRITE, READ_REQ, READ_RESP, ACK, NACK, CMD, CMD_RESP, TRIGGER, CREDIT, CREDIT_REQ, ARRIVE, RELEASE, THROTTLE_NOTICE and KEEPALIVE as they arrive (R482 to R486): each completes for every datagram; which entry a packet belongs to is the model's choice (log entry 19). -/
def Obligations.PacketsArriveAtTheirConnection : Prop :=
  ∀ (dt : Nat) (s : State) (link : Nat) (g : Dgram), let b := arrive dt s
    let r := rxDgram b link g
    Works b →
    (r.1 = none →
      exec (.write dt link g) s = .next (closing s r.2) ∧
      exec (.readReq dt link g) s = .next (closing s r.2) ∧
      exec (.readResp dt link g) s = .next (closing s r.2) ∧
      exec (.cmd dt link g) s = .next (closing s r.2) ∧
      exec (.cmdResp dt link g) s = .next (closing s r.2) ∧
      exec (.trigger dt link g) s = .next (closing s r.2) ∧
      exec (.credit dt link g) s = .next (closing s r.2) ∧
      exec (.arrive dt link g) s = .next (closing s r.2) ∧
      exec (.release dt link g) s = .next (closing s r.2) ∧
      exec (.ack dt link g) s = .next (closing s r.2) ∧
      exec (.throttleNotice dt link g) s = .next (closing s r.2) ∧
      exec (.keepalive dt link g) s = .next (closing s r.2) ∧
      exec (.creditReq dt link g) s = .next (closing s r.2) ∧
      exec (.nack dt link g) s = .next (closing s r.2)) ∧
    (∀ x, r.1 = some x →
      (x.ty ≠ 1 → exec (.write dt link g) s = .next (closing s r.2)) ∧
      (x.ty ≠ 2 → exec (.readReq dt link g) s = .next (closing s r.2)) ∧
      (x.ty ≠ 3 → exec (.readResp dt link g) s = .next (closing s r.2)) ∧
      (x.ty ≠ 6 → exec (.cmd dt link g) s = .next (closing s r.2)) ∧
      (x.ty ≠ 7 → exec (.cmdResp dt link g) s = .next (closing s r.2)) ∧
      (x.ty ≠ 8 → exec (.trigger dt link g) s = .next (closing s r.2)) ∧
      (x.ty ≠ 9 → exec (.credit dt link g) s = .next (closing s r.2)) ∧
      (x.ty ≠ 10 → exec (.arrive dt link g) s = .next (closing s r.2)) ∧
      (x.ty ≠ 11 → exec (.release dt link g) s = .next (closing s r.2)) ∧
      (x.ty ≠ 4 → exec (.ack dt link g) s = .next (closing s r.2)) ∧
      (x.ty ≠ 12 → exec (.throttleNotice dt link g) s = .next (closing s r.2)) ∧
      (x.ty ≠ 13 → exec (.keepalive dt link g) s = .next (closing s r.2)) ∧
      (x.ty ≠ 15 → exec (.creditReq dt link g) s = .next (closing s r.2)) ∧
      (x.ty ≠ 5 → exec (.nack dt link g) s = .next (closing s r.2))) ∧
    (∀ x, r.1 = some x → (x.dst ≠ ownNode r.2 ∨ rxPeer r.2 x = none) →
      exec (.write dt link g) s = .next (closing s r.2) ∧
      exec (.readReq dt link g) s = .next (closing s r.2) ∧
      exec (.readResp dt link g) s = .next (closing s r.2) ∧
      exec (.cmd dt link g) s = .next (closing s r.2) ∧
      exec (.cmdResp dt link g) s = .next (closing s r.2) ∧
      exec (.trigger dt link g) s = .next (closing s r.2) ∧
      exec (.credit dt link g) s = .next (closing s r.2) ∧
      exec (.arrive dt link g) s = .next (closing s r.2) ∧
      exec (.release dt link g) s = .next (closing s r.2) ∧
      exec (.ack dt link g) s = .next (closing s r.2) ∧
      exec (.throttleNotice dt link g) s = .next (closing s r.2) ∧
      exec (.keepalive dt link g) s = .next (closing s r.2) ∧
      exec (.creditReq dt link g) s = .next (closing s r.2) ∧
      exec (.nack dt link g) s = .next (closing s r.2)) ∧
    (∀ x i, r.1 = some x → x.dst = ownNode r.2 → rxPeer r.2 x = some i →
      let k := setConn r.2 i { connAt r.2 i with state := 1, rxAt := r.2.time, echo := (connAt r.2 i).echo || g.ce }
      (x.ty = 1 → exec (.write dt link g) s = .next (closing s (rxOrdered (takeAck k i x) i x))) ∧
      (x.ty = 2 → exec (.readReq dt link g) s = .next (closing s (rxOrdered (takeAck k i x) i x))) ∧
      (x.ty = 3 → exec (.readResp dt link g) s = .next (closing s (rxOrdered (takeAck k i x) i x))) ∧
      (x.ty = 6 → exec (.cmd dt link g) s = .next (closing s (rxOrdered (takeAck k i x) i x))) ∧
      (x.ty = 7 → exec (.cmdResp dt link g) s = .next (closing s (rxOrdered (takeAck k i x) i x))) ∧
      (x.ty = 8 → exec (.trigger dt link g) s = .next (closing s (rxOrdered (takeAck k i x) i x))) ∧
      (x.ty = 9 → exec (.credit dt link g) s = .next (closing s (rxOrdered (takeAck k i x) i x))) ∧
      (x.ty = 10 → exec (.arrive dt link g) s = .next (closing s (rxOrdered (takeAck k i x) i x))) ∧
      (x.ty = 11 → exec (.release dt link g) s = .next (closing s (rxOrdered (takeAck k i x) i x))) ∧
      (x.ty = 4 → exec (.ack dt link g) s = .next (closing s (rxLoose (takeAck k i x) i x))) ∧
      (x.ty = 12 → exec (.throttleNotice dt link g) s = .next (closing s (rxLoose (takeAck k i x) i x))) ∧
      (x.ty = 13 → exec (.keepalive dt link g) s = .next (closing s (rxLoose (takeAck k i x) i x))) ∧
      (x.ty = 15 → exec (.creditReq dt link g) s = .next (closing s (rxLoose (takeAck k i x) i x))) ∧
      (x.ty = 5 → exec (.nack dt link g) s = .next (closing s (takeAck (rxOrdered k i x) i x)))) ∧
    (b.rolv.links.contains link = true → rolvOn b = true → injArmed b .fabp (link / 4) 0 = false → g.bad = false → g.ce = false → crcOk g.pkt = false →
      rxDgram b link g = (none, raiseErr (bump b (pg .fabp (link / 4) + 0x804) 1) .rolv 0 8 none)) ∧
    ((b.rolv.links.contains link = false ∨ rolvOn b = false) → rxDgram b link g = (none, b))

/-- The receiving window (R484, R485). -/
def Obligations.PacketsApplyInOrder : Prop :=
  ∀ (s : State) (i : Nat) (x : Rx), let c := connAt s i
    (128 ≤ psnGap x.psn c.rcv → rxOrdered s i x = s) ∧
    (psnGap x.psn c.rcv = 0 → applyPkt s i x = none → rxOrdered s i x = s) ∧
    (∀ t, psnGap x.psn c.rcv = 0 → applyPkt s i x = some t → bitOf x.flags 0 = true → rxOrdered s i x =
      sendAck (applyHeld i 128 (setConn t i { connAt t i with rcv := ((connAt t i).rcv + 1) % 2 ^ 24 })) i) ∧
    (0 < psnGap x.psn c.rcv → psnGap x.psn c.rcv < 128 → c.held.any (fun p => p.psn == x.psn) = false →
      rxOrdered s i x = sendAck (setConn s i { c with held := c.held ++ [heldOf x] }) i) ∧
    (∀ p, c.held.find? (fun y => y.psn == c.rcv) = none → applyHeld i (p + 1) s = s) ∧
    (∀ a d, a < 2 ^ 24 → d < 2 ^ 24 → psnGap ((a + d) % 2 ^ 24) a = d)

/-- Application of WRITE, READ_REQ, CMD, TRIGGER, CREDIT, ARRIVE, RELEASE, THROTTLE_NOTICE and CMD_RESP (R491, R492, R498 to R501, R503, R505). -/
def Obligations.PacketTypesTakeEffect : Prop :=
  ∀ (s : State) (i : Nat) (x : Rx),
    (∀ r t, x.ty = 1 → remAccess s x x.pay.length false = (Except.error r, t) → applyPkt s i x = some (answer t i x 5 (r + 2 ^ 16 * x.psn) [])) ∧
    (∀ c o t u, x.ty = 1 → remAccess s x x.pay.length false = (Except.ok (c, o), t) → spWrite c o x.pay t = (Except.ok (), u) →
      ∃ v, applyPkt s i x = some v ∧ v.spad = u.spad ∧ v = (winRowsIn c ((o % 512 + x.pay.length + 511) / 512) u).2) ∧
    (∀ c o t l u, x.ty = 2 → remAccess s x (64 * fld x.spec 32 16) true = (Except.ok (c, o), t) → spWide c o (64 * fld x.spec 32 16) t = (Except.ok l, u) →
      applyPkt s i x = some (answer u i x 3 (fld x.spec 48 16) l)) ∧
    (∀ r t, x.ty = 2 → remAccess s x (64 * fld x.spec 32 16) true = (Except.error r, t) →
      applyPkt s i x = some (answer t i x 3 (fld x.spec 48 16 + 2 ^ 16 * r) [])) ∧
    (x.ty = 6 → rcmdRefused s x = true → applyPkt s i x = some (answer s i x 7 (rejection x.dp 2 + 2 ^ 32 * fld x.spec 8 8) [])) ∧
    (∀ f h, x.ty = 8 → tagFlow s x.dp (x.spec % 65536) = some (f, h) → (flowAt (graphAt s f) h).stopped = false →
      (∀ q, (flowAt (graphAt s f) h).highResv = some q → seqAbove (BitVec.ofNat 32 (fld x.spec 16 32)) q = true) → tablesRoom s f h = true →
      ∃ y, applyPkt s i x = some (reserve y f h { seq := BitVec.ofNat 32 (fld x.spec 16 32), stamp := BitVec.ofNat 64 (leAt x.pay 0 8) }) ∧
        y.graphs = s.graphs ∧ y.regs = s.regs) ∧
    (x.ty = 9 → bitOf x.spec 24 = false → twf (fun _ => {}) s.rolv.conns = true → twf (fun _ => 0) (connAt s i).credits = true →
      ∃ y, applyPkt s i x = some y ∧ creditsFor y i (x.spec % 65536) = creditsFor s i (x.spec % 65536) + fld x.spec 16 8 ∧
        y.graphs = s.graphs ∧ y.regs = s.regs) ∧
    (x.ty = 10 → (bgValid s (x.spec % 256) = false ∨ bgSelf s (x.spec % 256) = false) → applyPkt s i x = some s) ∧
    (x.ty = 10 → bgValid s (x.spec % 256) = true → bgSelf s (x.spec % 256) = true →
      applyPkt s i x = countArrival s (x.spec % 256) (fld x.spec 8 32) false) ∧
    (x.ty = 11 → applyPkt s i x = some (barrierDone s (x.spec % 256) (fld x.spec 8 32))) ∧
    (x.ty = 12 → twf (fun _ => {}) s.rolv.conns = true → (connAt (rxLoose s i x) i).throttled = bitOf x.spec 0) ∧
    (let p := fld x.spec 32 8
     x.ty = 7 → tget (fun _ => (none : Option Nat)) s.rolv.submits p = some i → p < 4 → twf regRst s.regs = true →
      ∃ y, applyPkt s i x = some y ∧ regN y (rv (0x3000 + 0x100 * p) + 0xC) = x.spec % 2 ^ 32 ∧ regN y (rv (0x3000 + 0x100 * p) + 8) = 2)

/-- RTO_EXPIRY and ACK_TIMER (R485), KEEPALIVE_TIMER and PEER_TIMEOUT (R486), RATE_PERIOD (R488), LINK_CHANGE (R511), LLDP_TIMER (R493), HELLO_TIMER (R494), PTP_SYNC_LOSS (R510) and PTP_EVENT_MESSAGE (R509). -/
def Obligations.TransportTimersTakeEffect : Prop :=
  ∀ (dt : Nat) (s : State) (i l : Nat) (msg : List Byte) (stamp : DWord), let b := arrive dt s
    let c := connAt b i
    Works b → rolvOn b = true →
    (peerUp b i = true →
      (exhausted b i = false → exec (.rtoExpiry dt i) s = .next (closing s (forAll (dueAgain b i) (again i) b)) ∧
        ∀ p ∈ dueAgain b i, p ∈ c.flight ∧ p.sacked = false ∧ rtoNs b p.tries ≤ (b.time - p.sent).toNat) ∧
      (∀ t, c.unackedAt = some t → 2000 ≤ (b.time - t).toNat → exec (.ackTimer dt i) s = .next (closing s (sendLoose b i 4 0 0 []))) ∧
      (let t := fld (app b (rv 0x11C)) 0 16 * 1000
       t ≠ 0 → t ≤ (b.time - c.txAt).toNat → exec (.keepaliveTimer dt i) s = .next (closing s (sendLoose b i 0x0D 0 0 []))) ∧
      (let t := fld (app b (rv 0x11C)) 16 16 * 10000
       t ≠ 0 → t ≤ (b.time - c.rxAt).toNat → exec (.peerTimeout dt i) s = .next (closing s (peerDown b i))) ∧
      (linksDown b i = true → exec (.peerTimeout dt i) s = .next (closing s (peerDown b i))) ∧
      (∀ k, linkOf b i = some k → fld (app b (rv 0x120)) 8 8 * 1000 ≤ (b.time - c.periodAt).toNat →
        exec (.ratePeriod dt i) s = .next (closing s (setConn b i { c with
          rate := max 1000 (if c.ecnSeen then c.rate - c.rate / 2 ^ fld (app b (rv 0x120)) 0 4 else min (linkRate b k) (c.rate + 100 * fld (app b (rv 0x120)) 16 16))
          ecnSeen := false
          periodAt := b.time })))) ∧
    (l < 16 → b.rolv.links.contains l = false → linkExists b l = true →
      ∃ u, exec (.linkChange dt l true) s = .next (closing s (sendLldp (sendHello u l) l)) ∧ u.rolv.links = sins b.rolv.links l ∧ u.hbm = b.hbm ∧
        bitOf (regN u (pg .fabp (l / 4) + 0x110)) (l % 4) = true) ∧
    (l < 16 → b.rolv.links.contains l = true → (livePeers b).filter (fun i => linkOf b i == some l) = [] →
      ∃ u, exec (.linkChange dt l false) s = .next (closing s u) ∧ u.rolv.links = sdel b.rolv.links l ∧ u.hbm = b.hbm ∧
        bitOf (regN u (pg .fabp (l / 4) + 0x110)) (l % 4) = false) ∧
    (b.rolv.links.contains l = true → 30000000000 ≤ now b - tget (fun _ => 0) b.rolv.lldpAt l → exec (.lldpTimer dt l) s = .next (closing s (sendLldp b l))) ∧
    (b.rolv.links.contains l = true → 100000000 ≤ now b - tget (fun _ => 0) b.rolv.helloAt l → exec (.helloTimer dt l) s = .next (closing s (sendHello b l))) ∧
    (bitOf (app b (rv 0x1100)) 0 = true → 2000000000 ≤ (b.time - b.rolv.ptpAt).toNat → ∃ u, exec (.ptpSyncLoss dt) s = .next (closing s u) ∧
      bitOf (regN u (rv 0x1104)) 0 = false ∧ u.rolv.ptpGood = 0 ∧ u.rolv.ptpBest = none ∧ u.time = b.time) ∧
    (∀ k, ptpOn b l = true → (frameIn b l).1 = true → beAt msg 4 1 = fld (app b (rv 0x1100)) 4 4 → beAt msg 1 1 % 16 = 2 → b.rolv.ptpBest = some (k, l) → nth 0 k 7 = beAt msg 20 8 →
      beAt msg 0 1 % 16 = 0 → ∃ u, exec (.ptpEventMessage dt l msg stamp) s = .next (closing s u) ∧ u.rolv.ptpSeq = beAt msg 30 2 ∧
        u.rolv.ptpT = [trunc ((stamp.toNat : Int) - ptpCorr msg) 64] ∧ u.time = b.time ∧ u.regs = (frameIn b l).2.regs)

/-- BARRIER and SIGNAL (R500 to R503, R508), PEER_READ and PEER_WRITE (R496, R512), RSUB_OP (R497), LLDP (R493, R495), HELLO (R494) and NEIGHBOUR_SOLICITATION (R481). -/
def Obligations.RemoteOperationsTakeEffect : Prop :=
  ∀ (dt : Nat) (s : State) (who : Who) (k l : Nat) (v : Word) (f : List Byte) (g : Dgram), let b := arrive dt s
    let t := startTask b .rolv 0
    let e := asActor .rolv k (opOf t .rolv k) t
    (Works b → unitThere b .rolv k = true → rolvOn e = true → ∀ r, (unitAt e .rolv k).run = some r → (unitAt e .rolv k).done = none →
      let p := (graphAt e r.graph).part
      (remCmdOf e r = none → (remOp e k).acted = false → exec (.barrier dt k) s = .next (closing s (remEnd e k 0x0A01))) ∧
      (∀ c, remCmdOf e r = some c → c.op ≠ 2 → (remOp e k).acted = false →
        ((bgValid e c.group = false ∨ bgOwner e c.group ≠ p) → exec (.barrier dt k) s = .next (closing s (remEnd e k 0x0A03))) ∧
        (bgValid e c.group = true → bgOwner e c.group = p → 2 ≤ bgMembers e c.group → bgSelf e c.group = false → peerUp e (bgRoot e c.group) = true →
          exec (.barrier dt k) s = .next (closing s (sendConn (setRemOp e k { acted := true, since := e.time }) (bgRoot e c.group) 0x0A (5 * p)
            (c.group + 2 ^ 8 * r.seq.toNat) [] 0 0).2))) ∧
      (∀ c, remCmdOf e r = some c → c.op ≠ 1 → (connAt e c.peer).flight.any (fun x => x.mov == 0x1000 + k) = false →
        (connAt e c.peer).queue.any (fun x => x.mov == 0x1000 + k) = false →
        (peerValid e c.peer = false → exec (.signal dt k) s = .next (closing s (remEnd e k 0x0A01))) ∧
        (peerValid e c.peer = true → peerOwner e c.peer = p → (connAt e c.peer).state = 2 → exec (.signal dt k) s = .next (closing s (remEnd e k 0x0A02))) ∧
        (peerValid e c.peer = true → peerOwner e c.peer = p → (connAt e c.peer).state ≠ 2 → (connAt e c.peer).taken.contains c.tag = false →
          0 < creditsFor e c.peer c.tag → exec (.signal dt k) s = .next (closing s
            (sendConn (setCredits e c.peer c.tag (creditsFor e c.peer c.tag - 1)) c.peer 0x08 (5 * p) (c.tag + 2 ^ 16 * r.seq.toNat)
              (natLe 8 (stampOf e r).toNat ++ List.replicate 56 0) (0x1000 + k) 0).2)))) ∧
    (writes b who (rv 0x184) →
      exec (.peerRead dt who v) s = .next (closing s (peerReadAct b)) ∧ exec (.peerWrite dt who v) s = .next (closing s (peerWriteAct b)) ∧
      (peerReadAct b).rolv = b.rolv ∧ (peerReadAct b).hbm = b.hbm ∧
      (peerValid b (regN b (rv 0x180) % 2 ^ 14) = false → (peerEnt (peerWriteAct b) (regN b (rv 0x180) % 2 ^ 14)).take 2 =
        (natLe 4 (regN b (rv 0x1C0))).take 2)) ∧
    (∀ p, p = whoPart who → p < 4 → Works b → writes b who (rv (0x3004 + 0x100 * p)) →
      let o := rv (0x3000 + 0x100 * p)
      let i := regN b o % 2 ^ 14
      exec (.rsubOp dt who v) s = .next (closing s (rsubAct b p (v.toNat % 256))) ∧
      (fld (regN b (o + 8)) 0 2 = 1 → rsubAct b p (v.toNat % 256) = raiseErr b .rolv 0 9 (some p)) ∧
      (fld (regN b (o + 8)) 0 2 ≠ 1 → (peerValid b i = false ∨ peerOwner b i ≠ p) → rsubAct b p (v.toNat % 256) = setRegN b (o + 8) (3 + 2 ^ 9)) ∧
      (fld (regN b (o + 8)) 0 2 ≠ 1 → peerValid b i = true → peerOwner b i = p → (connAt b i).state ≠ 2 →
        tget (fun _ => (none : Option Nat)) (rsubAct b p (v.toNat % 256)).rolv.submits p = some i)) ∧
    (Works b → rolvOn b = true → b.rolv.links.contains l = true → l < 16 →
      (injArmed b .fabp (l / 4) 0 = false → frameIn b l = (true, bump b (pg .fabp (l / 4) + 0x804) 1)) ∧
      (injArmed b .fabp (l / 4) 0 = true → (frameIn b l).1 = false ∧ exec (.lldp dt l f) s = .next (closing s (frameIn b l).2) ∧
        exec (.neighbourSolicitation dt l f) s = .next (closing s (frameIn b l).2)) ∧
      ((ethBody f).1 ≠ 0x88CC → exec (.lldp dt l f) s = .next (closing s (frameIn b l).2)) ∧
      ((ethBody f).1 = 0x88CC → (frameIn b l).1 = true → ∃ pay, exec (.lldp dt l f) s = .next (closing s (discPut (frameIn b l).2 1 l pay))) ∧
      ((ethBody f).1 = 0x0806 → ipv4 b = true → beAt (ethBody f).2 0 8 = 0x0001080006040001 → ((ethBody f).2.drop 24).take 4 = (ownIp b).take 4 →
        (frameIn b l).1 = true → exec (.neighbourSolicitation dt l f) s = .next (closing s (putOther (frameIn b l).2 l
          (ethHead b l ((f.drop 6).take 6) 0x0806 ++ natBe 8 0x0001080006040002 ++ macOf b l ++ (ownIp b).take 4 ++ ((ethBody f).2.drop 8).take 10)))) ∧
      (∀ x u, rxDgram b l g = (some x, u) → x.ty = 0x0E →
        (leAt x.pay 2 2 ≠ ownDomain u → exec (.hello dt l g) s = .next (closing s (bump u (rv 0x810) 1))) ∧
        (leAt x.pay 2 2 = ownDomain u → leAt x.pay 0 2 ≠ ownNode u → exec (.hello dt l g) s = .next (closing s (discPut u 2 l (x.pay.take 48))))) ∧
      (regN b (rv 0x148) = 0 → ∀ kd y, discPut b kd l y = b) ∧
      (regN b (rv 0x148) ≠ 0 → ringFull b (rv 0x14C) (rv 0x150) (rv 0x148) = true → ∀ kd y, discPut b kd l y = raiseErr b .rolv 0 10 none))

/-- Requests for starts and reset (R602 to R605, R614, R616, R628, R643). -/
def Obligations.StartsAreRequested : Prop :=
  ∀ (dt : Nat) (s : State) (who : Who), let b := arrive dt s
    (writes b who (bt 0x104) →
      exec (.bootWarm dt who) s = .next (closing s (requestStart b false)) ∧ exec (.bootCold dt who) s = .next (closing s (requestStart b true)) ∧
      (bootState b = 3 → exec (.hostGo dt who) s = .next (closing s (requestStart b true))) ∧
      (bootState b ≠ 3 → exec (.hostGo dt who) s = .next (closing s b))) ∧
    (Awake b → exec (.warmStart dt) s = .next (closing s (requestStart b false))) ∧
    exec (.coldStart dt) s = .next (closing s (coldStart b)) ∧
    (b.boot.prog = none → b.boot.starting = false → coldStart b = beginStart { b with boot := { b.boot with inReset := false } } true) ∧
    (b.boot.prog = none → b.boot.starting = false → requestStart b true = beginStart b true ∧
      (bootState b = 2 → b.pwr.shutdown = false → requestStart b false = beginStart b false) ∧
      ((bootState b ≠ 2 ∨ b.pwr.shutdown = true) → requestStart b false = b)) ∧
    (b.boot.prog = none → b.boot.starting = true → requestStart b false = bump b (bt 0x80C) 1 ∧
      requestStart b true = if b.boot.cold then bump b (bt 0x80C) 1 else beginStart b true) ∧
    (∀ p c, b.boot.prog = some p → b.boot.waiting ≠ some 2 → ∃ k, requestStart b c = setBoot b { b.boot with waiting := some k } ∧ (c = true → k = 0)) ∧
    (∀ c, (beginStart b c).boot.starting = true ∧ (beginStart b c).boot.step = 1 ∧ (beginStart b c).boot.cold = c ∧ (beginStart b c).boot.inReset = false ∧
      bootState (beginStart b c) = (if c then 0 else 1) ∧ (beginStart b c).time = (if c then 0 else b.time) ∧ (beginStart b c).graphs = [] ∧
      (beginStart b c).units = [] ∧ (beginStart b c).host = b.host ∧ (beginStart b c).boot.otp = b.boot.otp ∧
      (c = false → (beginStart b c).hbm = b.hbm ∧ (beginStart b c).dbg.crumbs = b.dbg.crumbs)) ∧
    (Awake b → b.boot.prog = none → exec (.resetNFall dt) s = .next (closing s (enterReset b)) ∧ (enterReset b).boot.inReset = true ∧
      (enterReset b).boot.starting = false ∧ (enterReset b).pwr.thermtrip = false ∧ (enterReset b).boot.otp = b.boot.otp) ∧
    (∀ p, Awake b → b.boot.prog = some p → ∃ u, exec (.resetNFall dt) s = .next (closing s u) ∧ u.boot.prog = some p ∧ u.boot.waiting = some 2 ∧
      u.boot.inReset = false ∧ u.pwr.thermtrip = false ∧ u.regs = b.regs ∧ u.hbm = b.hbm) ∧
    (Awake b → exec (.refclkLoss dt) s = .next (closing s (refclkAct b)) ∧ (refclkAct b).timeOn = false)

/-- The steps of a start, its failures and its end (R543, R604, R606 to R619). -/
def Obligations.StartStepsTakeEffect : Prop :=
  ∀ (dt : Nat) (s : State) (ok : Bool) (rows : List Nat), let b := arrive dt s
    let e := fun (t : State) => exec (.startStepComplete dt ok rows) s = .next (closing s t)
    let f := fun (code : Nat) => exec (.startStepComplete dt ok rows) s = .next (closing s (failStart b code))
    Awake b →
    (b.boot.starting = false → e b ∧ exec (.fwReady dt) s = .next (closing s b) ∧ exec (.fwHang dt) s = .next (closing s b) ∧
      exec (.tjHigh dt) s = .next (closing s b)) ∧
    (b.boot.starting = true → b.boot.step = 1 →
      ((ok = false ∨ (b.boot.cold = true ∧ 380 ≤ b.pwr.tj)) → e b) ∧
      (ok = true → (b.boot.cold = false ∨ b.pwr.tj < 380) →
        (fixedOk b = false → f 1) ∧ (fixedOk b = true → useGen b = none → f 2) ∧
        (∀ g, fixedOk b = true → useGen b = some g → variantOk (fuseWord b) = false → f 4) ∧
        (∀ g, fixedOk b = true → useGen b = some g → variantOk (fuseWord b) = true → e (nextStep (otpLoad b g)))) ∧
      (b.boot.cold = true → 380 ≤ b.pwr.tj → 60000000000 ≤ since b b.boot.startAt → exec (.tjHigh dt) s = .next (closing s (failStart b 3)))) ∧
    (b.boot.starting = true → b.boot.step = 2 →
      (b.boot.cold = true → ok = false → f 0x10) ∧
      (b.boot.cold = false → (ok = false ∨ repairSig b.boot.repair ≠ reg64 b (bt 0x118) (bt 0x11C)) → f 0x12) ∧
      (b.boot.cold = false → ok = true → repairSig b.boot.repair = reg64 b (bt 0x118) (bt 0x11C) →
        ∃ u, e (nextStep u) ∧ u.spad = b.spad ∧ u.boot.repair = b.boot.repair ∧ u.hbm = b.hbm)) ∧
    (b.boot.starting = true → b.boot.step = 3 → ok = false → f (if b.boot.cold then 0x20 else 0x21)) ∧
    (b.boot.starting = true → b.boot.step = 3 → ok = true → ∃ u, e (nextStep u) ∧ u.pwr.hbmSelf = false ∧ u.hbm = b.hbm ∧
      ∀ n ∈ presentList b .hbm, regN u (pg .hbm n + 0x144) = if b.boot.cold then 1 else 3) ∧
    (b.boot.starting = true → b.boot.step = 4 → ok = true → ∃ u, e (nextStep u) ∧ regN u (safePg + 0x108) = 0x3FF ∧
      u.boot.imgAddr = reg64 b (bt 0x108) (bt 0x10C) ∧ u.boot.imgLen = regN b (bt 0x110)) ∧
    (b.boot.starting = true → b.boot.step = 4 → ok = false → (rows = [] ∨ ∃ i ∈ rows, i < 10) → ∃ u, e (failStart u 0x30) ∧ regN u (safePg + 0x108) < 0x3FF ∧ u.boot = b.boot) ∧
    (b.boot.starting = true → b.boot.step = 5 →
      (imageBytes b = none → f 0x40) ∧
      (∀ l h, imageBytes b = some (l, h) → ok = false → f 0x41) ∧
      (∀ l h, imageBytes b = some (l, h) → ok = true → let u := { b with hbm := memWrite b.hbm (hbmCap b - 0x400_0000) l }
        (imageOkFmt l = false → e (failStart u 0x42)) ∧ (imageOkFmt l = true → keyMatch b l = none → e (failStart u 0x43)) ∧
        (∀ k, imageOkFmt l = true → keyMatch b l = some k →
          (edVerify ((l.drop 16).take 32) (imageDigest l) ((l.drop 48).take 64) = false → e (failStart u 0x44)) ∧
          (edVerify ((l.drop 16).take 32) (imageDigest l) ((l.drop 48).take 64) = true → leAt l 12 4 < b.boot.minVersion → e (failStart u 0x45)) ∧
          (edVerify ((l.drop 16).take 32) (imageDigest l) ((l.drop 48).take 64) = true → b.boot.minVersion ≤ leAt l 12 4 →
            ∃ t, e (nextStep t) ∧ regN t (bt 0x120) = leAt l 12 4 ∧ t.boot.keyUsed = k ∧ t.boot.digest = imageDigest l ∧ t.hbm = u.hbm)))) ∧
    (b.boot.starting = true → b.boot.step = 6 →
      (since b b.boot.stepAt ≤ 2000000000 → ∃ u, exec (.fwReady dt) s = .next (closing s u) ∧ bootState u = 2 ∧ u.boot.starting = false ∧
        u.safe.hbOn = true ∧ u.hbm = b.hbm ∧ (∀ x ∈ mapOrder, present b x.1 x.2 = false → regN u (partAddr x.1 x.2) = regN b (partAddr x.1 x.2))) ∧
      (2000000000 ≤ since b b.boot.stepAt → exec (.fwHang dt) s = .next (closing s (failStart b 0x50)))) ∧
    (∀ c, (b.boot.cold = true → bootState (failStart b c) = 3 ∧ (failStart b c).boot.starting = false) ∧
      (b.boot.cold = false → (failStart b c).boot.starting = true ∧ (failStart b c).boot.step = 1 ∧
        ((failStart b c).boot.cold = true ↔ 2 ≤ bootFld b 16 2)))

/-- Programming and attestation (R627 to R631). -/
def Obligations.OtpAndAttestationTakeEffect : Prop :=
  ∀ (dt : Nat) (s : State) (who : Who) (v : Word) (ok : Bool), let b := arrive dt s
    let a := regN b (ot 0x100) &&& 0xFFC
    (writes b who (ot 0x10C) →
      ((bitOf v.toNat 0 = false ∨ b.boot.prog.isSome = true) → exec (.otpProgram dt who v) s = .next (closing s b)) ∧
      (bitOf v.toNat 0 = true → b.boot.prog = none → progRefused b a = true → ∃ u, exec (.otpProgram dt who v) s = .next (closing s u) ∧
        u.boot = b.boot ∧ u.hbm = b.hbm ∧ u = raiseErr (orReg b (ot 0x110) 4) .otp 0 9 none) ∧
      (bitOf v.toNat 0 = true → b.boot.prog = none → progRefused b a = false → ∃ u, exec (.otpProgram dt who v) s = .next (closing s u) ∧
        u.boot.prog = some (a, regN b (ot 0x108), b.time) ∧ u.boot.otp = b.boot.otp ∧ bitOf (regN u (ot 0x110)) 0 = true ∧ u.hbm = b.hbm)) ∧
    (Awake b →
      ((b.boot.prog = none ∨ ∃ p, b.boot.prog = some p ∧ since b p.2.2 < 20000) → exec (.otpProgramDone dt ok) s = .next (closing s b)) ∧
      (∀ p w t, b.boot.prog = some (p, w, t) → 20000 ≤ since b t → b.boot.waiting = none → ok = true →
        ∃ u, exec (.otpProgramDone dt ok) s = .next (closing s u) ∧ u.boot.prog = none ∧
          u.boot.otp = memWrite b.boot.otp p (natLe 4 (leNat (otpRead b p 4) ||| w)) ∧ bitOf (regN u (ot 0x110)) 0 = false ∧ u.hbm = b.hbm) ∧
      (∀ p w t, b.boot.prog = some (p, w, t) → 20000 ≤ since b t → b.boot.waiting = none → ok = false →
        ∃ u x, exec (.otpProgramDone dt ok) s = .next (closing s u) ∧ u.boot.prog = none ∧
          u.boot.otp = memWrite b.boot.otp p (natLe 4 (leNat (otpRead b p 4) ||| (w &&& x)))) ∧
      (∀ p w t, b.boot.prog = some (p, w, t) → 20000 ≤ since b t → b.boot.waiting = some 2 → ok = true →
        ∃ u, exec (.otpProgramDone dt ok) s = .next (closing s u) ∧ u.boot.inReset = true ∧ u.boot.prog = none)) ∧
    (a &&& 0xFE0 = 0x80 → otpData b = 0) ∧
    (writes b who (se 0x120) →
      (b.boot.att.isSome = true → exec (.attGo dt who) s = .next (closing s (orReg b (se 0x124) 4))) ∧
      (b.boot.att = none → exec (.attGo dt who) s = .next (closing s (setRegN
        (setBoot b { b.boot with att := some ((List.range 8).flatMap (fun i => natLe 4 (regN b (se (0x100 + 4 * i))))) }) (se 0x124) 1)))) ∧
    (Awake b → (b.boot.att = none → exec (.attReportDone dt) s = .next (closing s b)) ∧
      (∀ n, b.boot.att = some n → ∃ u, exec (.attReportDone dt) s = .next (closing s u) ∧ u.boot.att = none ∧ fld (regN u (se 0x124)) 0 2 = 2 ∧
        (∀ i, i < 64 → regN u (se (0x200 + 4 * i)) = leAt (reportHead b n ++ edSign (idSeed b) (reportHead b n)) (4 * i) 4) ∧
        u.hbm = b.hbm ∧ u.boot.otp = b.boot.otp))

/-- FREEZE, UNFREEZE, FREEZE_INSTANT, GC_CLEAR and TRIG_ARM (R577 to R579, R589). -/
def Obligations.CountersAndTriggerTakeEffect : Prop :=
  ∀ (dt : Nat) (s : State) (who : Who) (v : Word), let b := arrive dt s
    (writes b who (db 0x100) →
      exec (.freeze dt who) s = .next (closing s (reqFreeze b true)) ∧ exec (.unfreeze dt who) s = .next (closing s (reqFreeze b false)) ∧
      (∀ f, frozen b = f → reqFreeze b f = b) ∧
      (∀ f, frozen b ≠ f → (reqFreeze b f).dbg.freezeAt = some (b.time + 32, f) ∧ (reqFreeze b f).hbm = b.hbm ∧
        (f = true → reg64 (reqFreeze b f) (dbgPg + 0x108) (dbgPg + 0x10C) = (b.time + 32).toNat))) ∧
    (Awake b →
      (b.dbg.freezeAt = none → exec (.freezeInstant dt) s = .next (closing s b)) ∧
      (∀ t f, b.dbg.freezeAt = some (t, f) → b.time.toNat < t.toNat → exec (.freezeInstant dt) s = .next (closing s b)) ∧
      (∀ t f, b.dbg.freezeAt = some (t, f) → t.toNat ≤ b.time.toNat → ∃ u, exec (.freezeInstant dt) s = .next (closing s u) ∧
        u.dbg.freezeAt = none ∧ frozen u = f ∧ u.graphs = b.graphs ∧ u.hbm = b.hbm)) ∧
    (writes b who (db 0x310) → ∃ u, exec (.gcClear dt who) s = .next (closing s u) ∧ u.graphs = b.graphs ∧ u.hbm = b.hbm ∧
      (∀ c, c < 64 → regN u (db (0x800 + 8 * c)) = 0 ∧ tget (fun _ => (0 : Word)) u.hi (db (0x800 + 8 * c)) = 0) ∧
      (∀ a, (∀ c, c < 64 → a ≠ db (0x800 + 8 * c)) → reg u a = reg b a)) ∧
    (writes b who (db 0x120) → ∃ u, exec (.trigArm dt who v) s = .next (closing s u) ∧
      regN u (db 0x120) = (v.toNat ||| 0x80000000) &&& 0x8000337F ∧ regN u (db 0x128) = 0 ∧ u.hbm = b.hbm ∧
      (∀ a, a ≠ db 0x120 → a ≠ db 0x128 → reg u a = reg b a))

/-- GLOBAL_STOP, MEMRD, SCAN_RESTART, SCAN_DATA_READ and the JTAG instructions (R593 to R599); one bit of BYPASS captures 0 (log entry 62). -/
def Obligations.StopAndReadOutTakeEffect : Prop :=
  ∀ (dt : Nat) (s : State) (who : Who) (v : Word) (bits pins : List Bool), let b := arrive dt s
    (writes b who (db 0x110) → exec (.globalStop dt who) s = .next (closing s (takeStop b 1))) ∧
    (∀ k, (isStopped b = true → takeStop b k = b) ∧
      (isStopped b = false → bitOf (regN b (safePg + 0x104)) 0 = false → takeStop b k = raiseErr b .dbg 0 8 none) ∧
      (isStopped b = false → bitOf (regN b (safePg + 0x104)) 0 = true → k < 4 → isStopped (takeStop b k) = true ∧ (takeStop b k).pwr.hbmSelf = true ∧
        fld (regN (takeStop b k) (dbgPg + 0x114)) 4 2 = k ∧ reg64 (takeStop b k) (dbgPg + 0x118) (dbgPg + 0x11C) = b.time.toNat ∧
        (takeStop b k).hbm = b.hbm ∧ (takeStop b k).spad = b.spad ∧ (takeStop b k).graphs = b.graphs)) ∧
    (writes b who (db 0x328) → (bitOf v.toNat 0 = false → exec (.memrd dt who v) s = .next (closing s b)) ∧
      (bitOf v.toNat 0 = true → ∃ u, exec (.memrd dt who v) s = .next (closing s u) ∧ u.spad = b.spad ∧ u.hbm = b.hbm ∧
        (∀ i, i < 136 → regN u (db (0xC40 + 4 * i)) = leAt (memrdBytes b) (4 * i) 4) ∧ (isStopped b = false → memrdBytes b = []))) ∧
    (writes b who (db 0xC00) → exec (.scanRestart dt who v) s = .next (closing s
      (setDbg (setRegN b (db 0xC00) ((v.toNat ||| 0x100) % 512)) { b.dbg with chain := v.toNat % 256, shift := 0 }))) ∧
    (Awake b →
      (readable b who (db 0xC08) = true → isStopped b = false → exec (.scanDataRead dt who) s = .next (closing s (answered (setRegN b (db 0xC08) 0) 0))) ∧
      (readable b who (db 0xC08) = true → isStopped b = true → ∃ x u, exec (.scanDataRead dt who) s = .next (closing s (answered (setRegN u (db 0xC08) x) x)) ∧
        x < 2 ^ 32 ∧ u.dbg.shift = (b.dbg.shift + 32) % max 1 (scanLen b) ∧ u.hbm = b.hbm ∧ u.regs = b.regs) ∧
      (readable b who (db 0xC08) = false → exec (.scanDataRead dt who) s = .next (closing s (answered b 0))) ∧
      (∃ u, exec (.bypass dt bits) s = .next (closing s u) ∧ u = setDbg b { b.dbg with tdo := (false :: bits).take bits.length, extest := false }) ∧
      (∃ u, exec (.idcode dt bits) s = .next (closing s u) ∧
        u = setDbg b { b.dbg with tdo := (bitsOf 32 (idcodeOf b) ++ bits).take bits.length, extest := false }) ∧
      (jtagOpen b = false → ∃ u, exec (.bypass dt bits) s = .next u ∧ exec (.samplePreload dt pins bits) s = .next u ∧
        exec (.extest dt pins bits) s = .next u ∧ exec (.scanSel dt bits) s = .next u ∧ exec (.scanDr dt bits) s = .next u ∧
        exec (.gstop dt) s = .next (closing s b)) ∧
      (jtagOpen b = true → exec (.gstop dt) s = .next (closing s (takeStop b 2)) ∧
        (let p := shiftThrough pins bits
         exec (.samplePreload dt pins bits) s = .next (closing s (setDbg b { b.dbg with tdo := p.1, boundary := p.2, extest := false })) ∧
         exec (.extest dt pins bits) s = .next (closing s (setDbg b { b.dbg with tdo := p.1, boundary := p.2, pins := p.2, extest := true }))) ∧
        (let q := shiftThrough (bitsOf 8 b.dbg.chain) bits
         exec (.scanSel dt bits) s = .next (closing s (setDbg b { b.dbg with tdo := q.1, chain := ofBits q.2 % 256, shift := 0 }))) ∧
        (isStopped b = false → exec (.scanDr dt bits) s = .next (closing s (setDbg b { b.dbg with tdo := bitsOf bits.length 0 }))) ∧
        (isStopped b = true → ∃ x u, exec (.scanDr dt bits) s = .next (closing s (setTdo u (bitsOf bits.length x))) ∧
          u.dbg.shift = (b.dbg.shift + bits.length) % max 1 (scanLen b) ∧ u.hbm = b.hbm ∧ u.regs = b.regs)))

/-- The data plane is closed outside RUNNING, after a thermal shutdown and in a global stop (R571, R595, R603); which commands are of the data plane is the list of dataPlaneNs (the model's reading). -/
def Obligations.StopSilencesDataPlane : Prop :=
  ∀ (c : Instr) (dt : Nat) (s : State), let b := arrive dt s
    dataPlaneNs c = some dt → (isRunning b = false ∨ isStopped b = true) → b.boot.inReset = false → exec c s = .next (closing s b)
end

