-- ==== Sys2Proof/Laws/Sparse.lean ====
section
/-! SUPPORT. Tables and byte memories: reads after writes, and the canonical form that every operation keeps. -/

namespace Sys2Proof.Machine

variable {α : Type} [DecidableEq α]

/-! ## Reads -/

omit [DecidableEq α] in
/-- An unlisted key reads as the default. -/
@[simp] theorem tget_nil (d : Nat → α) (k : Nat) : tget d [] k = d k := rfl

/-- A key below the first one listed is unlisted in a canonical table. -/
theorem tget_of_lt (d : Nat → α) {lo k : Nat} {m : Tbl α} (h : twfFrom d lo m = true) (hk : k < lo) : tget d m k = d k := by
  cases m with
  | nil => rfl
  | cons e r =>
    obtain ⟨a, v⟩ := e
    simp only [twfFrom, Bool.and_eq_true, decide_eq_true_eq] at h
    have h1 : k ≠ a := by omega
    have h2 : k < a := by omega
    simp [tget, h1, h2]

/-- A key reads the value last put there, whatever the table, unless it is the default. -/
theorem tget_tset_ne (d : Nat → α) (k : Nat) (v : α) (hv : v ≠ d k) : ∀ m : Tbl α, tget d (tset d m k v) k = v
  | [] => by simp [tset, hv, tget]
  | (a, w) :: r => by
    unfold tset
    split
    · simp [tget]
    · split
      · simp [tget]
      · rename_i h1 h2
        simp [tget, h1, h2, tget_tset_ne d k v hv r]

/-- A key of a canonical table reads the value last put there. -/
theorem tget_tset_same (d : Nat → α) (k : Nat) (v : α) : ∀ {lo : Nat} {m : Tbl α}, twfFrom d lo m = true → tget d (tset d m k v) k = v
  | _, [], _ => by by_cases hv : v = d k <;> simp [tset, hv, tget]
  | lo, (a, w) :: r, h => by
    by_cases hv : v = d k
    · simp only [twfFrom, Bool.and_eq_true, decide_eq_true_eq] at h
      unfold tset
      split
      · have h1 : k ≠ a := by omega
        simp_all [tget]
      · split
        · subst_vars
          simpa using tget_of_lt d h.2 (Nat.lt_succ_self _)
        · rename_i h1 h2
          simp [tget, h1, h2, tget_tset_same d k v h.2]
    · exact tget_tset_ne d k v hv _

/-- Every other key reads as before. -/
theorem tget_tset_other (d : Nat → α) (k j : Nat) (v : α) (hj : j ≠ k) : ∀ {lo : Nat} {m : Tbl α}, twfFrom d lo m = true →
    tget d (tset d m k v) j = tget d m j
  | _, [], _ => by
    by_cases hv : v = d k
    · simp [tset, hv]
    · by_cases hl : j < k <;> simp [tset, hv, tget, hj, hl]
  | lo, (a, w) :: r, h => by
    simp only [twfFrom, Bool.and_eq_true, decide_eq_true_eq] at h
    unfold tset
    split
    · split
      · rfl
      · rename_i h1 h2
        by_cases hl : j < k
        · have h3 : j ≠ a := by omega
          have h4 : j < a := by omega
          simp [tget, hj, hl, h3, h4]
        · simp [tget, hj, hl]
    · split
      · rename_i h1 h2
        subst h2
        split
        · by_cases hl : j < k
          · simp [tget, hj, hl, tget_of_lt d h.2 (Nat.lt_succ_of_lt hl)]
          · simp [tget, hj, hl]
        · simp [tget, hj]
      · rename_i h1 h2
        simp only [tget]
        rw [tget_tset_other d k j v hj h.2]

/-! ## The canonical form -/

/-- A lower bound may fall. -/
theorem twfFrom_mono (d : Nat → α) {lo lo' : Nat} {m : Tbl α} (h : twfFrom d lo m = true) (hl : lo' ≤ lo) : twfFrom d lo' m = true := by
  cases m with
  | nil => rfl
  | cons e r =>
    simp only [twfFrom, Bool.and_eq_true, decide_eq_true_eq] at h ⊢
    exact ⟨⟨by omega, h.1.2⟩, h.2⟩

/-- Putting a value keeps the canonical form. -/
theorem twfFrom_tset (d : Nat → α) (k : Nat) (v : α) : ∀ {lo : Nat} {m : Tbl α}, twfFrom d lo m = true → lo ≤ k → twfFrom d lo (tset d m k v) = true
  | _, [], _, hk => by by_cases hv : v = d k <;> simp [tset, hv, twfFrom, hk]
  | lo, (a, w) :: r, h, hk => by
    simp only [twfFrom, Bool.and_eq_true, decide_eq_true_eq] at h
    unfold tset
    split
    · rename_i h1
      split
      · simp [twfFrom, h]
      · rename_i hv
        have h3 : k + 1 ≤ a := h1
        simp [twfFrom, hv, hk, h, h3]
    · split
      · rename_i h1 h2
        subst h2
        split
        · exact twfFrom_mono d h.2 (by omega)
        · rename_i hv
          simp [twfFrom, hv, hk, h.2]
      · rename_i h1 h2
        simp only [twfFrom, Bool.and_eq_true, decide_eq_true_eq]
        exact ⟨h.1, twfFrom_tset d k v h.2 (by omega)⟩

/-- Putting a value keeps the canonical form. -/
theorem twf_tset (d : Nat → α) (k : Nat) (v : α) {m : Tbl α} (h : twf d m = true) : twf d (tset d m k v) = true :=
  twfFrom_tset d k v h (Nat.zero_le k)

/-! ## Byte memories -/

/-- Storing a byte keeps the canonical form. -/
theorem memSet_wf (m : Mem) (a : Nat) (b : BitVec 8) (h : memWf m = true) : memWf (memSet m a b) = true := twf_tset memDflt a b h

/-- Storing bytes keeps the canonical form. -/
theorem memWrite_wf : ∀ (l : List (BitVec 8)) (m : Mem) (a : Nat), memWf m = true → memWf (memWrite m a l) = true
  | [], _, _, h => h
  | b :: r, m, a, h => memWrite_wf r (memSet m a b) (a + 1) (memSet_wf m a b h)

/-- A table built from entries is canonical. -/
theorem tblOf_wf (d : Nat → α) : ∀ l : List (Nat × α), twf d (tblOf d l) = true
  | [] => rfl
  | (a, v) :: r => twf_tset d a v (tblOf_wf d r)

/-- A memory built from cells is canonical. -/
theorem memOf_wf (l : List (Nat × BitVec 8)) : memWf (memOf l) = true := tblOf_wf memDflt l

/-- A byte put below every listed key of a table whose canonical form starts above it goes to the front. -/
theorem tset_front (d : Nat → α) {k : Nat} {v : α} {m : Tbl α} (h : twfFrom d (k + 1) m = true) (hv : v ≠ d k) : tset d m k v = (k, v) :: m := by
  cases m with
  | nil => simp [tset, hv]
  | cons e r =>
    obtain ⟨a, w⟩ := e
    simp only [twfFrom, Bool.and_eq_true, decide_eq_true_eq] at h
    have h1 : k < a := by omega
    simp [tset, h1, hv]

/-- A canonical table is rebuilt as it was. -/
theorem tblOf_from (d : Nat → α) : ∀ (m : Tbl α) (lo : Nat), twfFrom d lo m = true → tblOf d m = m
  | [], _, _ => rfl
  | (a, v) :: r, lo, h => by
    simp only [twfFrom, Bool.and_eq_true, decide_eq_true_eq] at h
    simp only [tblOf, tblOf_from d r (a + 1) h.2]
    exact tset_front d h.2 h.1.2

/-- A canonical table is rebuilt as it was. -/
theorem tblOf_eq (d : Nat → α) (m : Tbl α) (h : twf d m = true) : tblOf d m = m := tblOf_from d m 0 h

/-- A canonical memory is rebuilt as it was. -/
theorem memOf_eq (m : Mem) (h : memWf m = true) : memOf m = m := tblOf_eq memDflt m h

/-- Dropping cells keeps the canonical form. -/
theorem twfFrom_filter (d : Nat → α) (p : Nat × α → Bool) : ∀ (m : Tbl α) (lo : Nat), twfFrom d lo m = true → twfFrom d lo (m.filter p) = true
  | [], _, _ => rfl
  | (a, v) :: r, lo, h => by
    simp only [twfFrom, Bool.and_eq_true, decide_eq_true_eq] at h
    simp only [List.filter_cons]
    split
    · simp only [twfFrom, Bool.and_eq_true, decide_eq_true_eq]
      exact ⟨h.1, twfFrom_filter d p r (a + 1) h.2⟩
    · exact twfFrom_mono d (twfFrom_filter d p r (a + 1) h.2) (by omega)

/-- Clearing a range keeps the canonical form. -/
theorem memClear_wf (m : Mem) (lo hi : Nat) (h : memWf m = true) : memWf (memClear m lo hi) = true := twfFrom_filter memDflt _ m 0 h

/-- The byte just stored reads back. -/
theorem memGet_memSet (m : Mem) (a : Nat) (b : BitVec 8) (h : memWf m = true) : memGet (memSet m a b) a = b := tget_tset_same memDflt a b h

/-- Every other byte reads as before. -/
theorem memGet_memSet_other (m : Mem) (a c : Nat) (b : BitVec 8) (h : memWf m = true) (hc : c ≠ a) : memGet (memSet m a b) c = memGet m c :=
  tget_tset_other memDflt a c b hc h

/-- A byte outside the stored range reads as before. -/
theorem memGet_memWrite_other : ∀ (l : List (BitVec 8)) (m : Mem) (a c : Nat), memWf m = true → (c < a ∨ a + l.length ≤ c) →
    memGet (memWrite m a l) c = memGet m c
  | [], _, _, _, _, _ => rfl
  | b :: r, m, a, c, h, hc => by
    simp only [List.length_cons] at hc
    rw [memWrite, memGet_memWrite_other r (memSet m a b) (a + 1) c (memSet_wf m a b h) (by omega), memGet_memSet_other m a c b h (by omega)]

/-- The bytes just stored read back. -/
theorem memGet_memWrite : ∀ (l : List (BitVec 8)) (m : Mem) (a i : Nat) (hi : i < l.length), memWf m = true →
    memGet (memWrite m a l) (a + i) = l[i]
  | b :: r, m, a, 0, _, h => by
    rw [memWrite, memGet_memWrite_other r (memSet m a b) (a + 1) (a + 0) (memSet_wf m a b h) (by omega)]
    exact memGet_memSet m a b h
  | b :: r, m, a, i + 1, hi, h => by
    have := memGet_memWrite r (memSet m a b) (a + 1) i (by simpa using hi) (memSet_wf m a b h)
    rw [memWrite, show a + (i + 1) = a + 1 + i by omega, this]
    simp

end Sys2Proof.Machine
end

