-- ==== Sys2Proof/Laws/State.lean ====
section
/-! SUPPORT. What each named update of the state leaves in each field: one lemma per field per update, all by rfl. -/

namespace Sys2Proof.Machine
open Sys2Proof

variable (s : State)

/-! ## setReg -/

@[simp] theorem setReg_time (a : Nat) (v : Word) : (setReg s a v).time = s.time := rfl
@[simp] theorem setReg_timeOn (a : Nat) (v : Word) : (setReg s a v).timeOn = s.timeOn := rfl
@[simp] theorem setReg_slew (a : Nat) (v : Word) : (setReg s a v).slew = s.slew := rfl
@[simp] theorem setReg_pending (a : Nat) (v : Word) : (setReg s a v).pending = s.pending := rfl
@[simp] theorem setReg_free (a : Nat) (v : Word) : (setReg s a v).free = s.free := rfl
@[simp] theorem setReg_rdata (a : Nat) (v : Word) : (setReg s a v).rdata = s.rdata := rfl
@[simp] theorem setReg_regs (a : Nat) (v : Word) : (setReg s a v).regs = tset regRst s.regs a v := rfl
@[simp] theorem setReg_applied (a : Nat) (v : Word) : (setReg s a v).applied = s.applied := rfl
@[simp] theorem setReg_hi (a : Nat) (v : Word) : (setReg s a v).hi = s.hi := rfl
@[simp] theorem setReg_commits (a : Nat) (v : Word) : (setReg s a v).commits = s.commits := rfl
@[simp] theorem setReg_tone (a : Nat) (v : Word) : (setReg s a v).tone = s.tone := rfl
@[simp] theorem setReg_irqCtx (a : Nat) (v : Word) : (setReg s a v).irqCtx = s.irqCtx := rfl
@[simp] theorem setReg_absent (a : Nat) (v : Word) : (setReg s a v).absent = s.absent := rfl
@[simp] theorem setReg_stackGiB (a : Nat) (v : Word) : (setReg s a v).stackGiB = s.stackGiB := rfl
@[simp] theorem setReg_hbm (a : Nat) (v : Word) : (setReg s a v).hbm = s.hbm := rfl
@[simp] theorem setReg_host (a : Nat) (v : Word) : (setReg s a v).host = s.host := rfl
@[simp] theorem setReg_tile (a : Nat) (v : Word) : (setReg s a v).tile = s.tile := rfl
@[simp] theorem setReg_spad (a : Nat) (v : Word) : (setReg s a v).spad = s.spad := rfl
@[simp] theorem setReg_lane (a : Nat) (v : Word) : (setReg s a v).lane = s.lane := rfl
@[simp] theorem setReg_hbmUe (a : Nat) (v : Word) : (setReg s a v).hbmUe = s.hbmUe := rfl
@[simp] theorem setReg_spadUe (a : Nat) (v : Word) : (setReg s a v).spadUe = s.spadUe := rfl
@[simp] theorem setReg_tileUe (a : Nat) (v : Word) : (setReg s a v).tileUe = s.tileUe := rfl
@[simp] theorem setReg_clearing (a : Nat) (v : Word) : (setReg s a v).clearing = s.clearing := rfl
@[simp] theorem setReg_cmdw (a : Nat) (v : Word) : (setReg s a v).cmdw = s.cmdw := rfl
@[simp] theorem setReg_dlog (a : Nat) (v : Word) : (setReg s a v).dlog = s.dlog := rfl
@[simp] theorem setReg_msix (a : Nat) (v : Word) : (setReg s a v).msix = s.msix := rfl
@[simp] theorem setReg_graphs (a : Nat) (v : Word) : (setReg s a v).graphs = s.graphs := rfl
@[simp] theorem setReg_hampers (a : Nat) (v : Word) : (setReg s a v).hampers = s.hampers := rfl
@[simp] theorem setReg_units (a : Nat) (v : Word) : (setReg s a v).units = s.units := rfl
@[simp] theorem setReg_fifos (a : Nat) (v : Word) : (setReg s a v).fifos = s.fifos := rfl
@[simp] theorem setReg_collector (a : Nat) (v : Word) : (setReg s a v).collector = s.collector := rfl
@[simp] theorem setReg_ages (a : Nat) (v : Word) : (setReg s a v).ages = s.ages := rfl
@[simp] theorem setReg_ladles (a : Nat) (v : Word) : (setReg s a v).ladles = s.ladles := rfl
@[simp] theorem setReg_cams (a : Nat) (v : Word) : (setReg s a v).cams = s.cams := rfl
@[simp] theorem setReg_sctl (a : Nat) (v : Word) : (setReg s a v).sctl = s.sctl := rfl
@[simp] theorem setReg_fsync (a : Nat) (v : Word) : (setReg s a v).fsync = s.fsync := rfl
@[simp] theorem setReg_rpl (a : Nat) (v : Word) : (setReg s a v).rpl = s.rpl := rfl
@[simp] theorem setReg_safe (a : Nat) (v : Word) : (setReg s a v).safe = s.safe := rfl
@[simp] theorem setReg_dbg (a : Nat) (v : Word) : (setReg s a v).dbg = s.dbg := rfl
@[simp] theorem setReg_movers (a : Nat) (v : Word) : (setReg s a v).movers = s.movers := rfl
@[simp] theorem setReg_flights (a : Nat) (v : Word) : (setReg s a v).flights = s.flights := rfl
@[simp] theorem setReg_rolv (a : Nat) (v : Word) : (setReg s a v).rolv = s.rolv := rfl
@[simp] theorem setReg_cores (a : Nat) (v : Word) : (setReg s a v).cores = s.cores := rfl
@[simp] theorem setReg_fms (a : Nat) (v : Word) : (setReg s a v).fms = s.fms := rfl
@[simp] theorem setReg_ringSigs (a : Nat) (v : Word) : (setReg s a v).ringSigs = s.ringSigs := rfl
@[simp] theorem setReg_hbmRec (a : Nat) (v : Word) : (setReg s a v).hbmRec = s.hbmRec := rfl
@[simp] theorem setReg_invs (a : Nat) (v : Word) : (setReg s a v).invs = s.invs := rfl
@[simp] theorem setReg_nocBad (a : Nat) (v : Word) : (setReg s a v).nocBad = s.nocBad := rfl
@[simp] theorem setReg_actor (a : Nat) (v : Word) : (setReg s a v).actor = s.actor := rfl
@[simp] theorem setReg_pwr (a : Nat) (v : Word) : (setReg s a v).pwr = s.pwr := rfl
@[simp] theorem setReg_boot (a : Nat) (v : Word) : (setReg s a v).boot = s.boot := rfl
@[simp] theorem setReg_bar2 (a : Nat) (v : Word) : (setReg s a v).bar2 = s.bar2 := rfl

/-! ## setApp -/

@[simp] theorem setApp_time (a : Nat) (v : Word) : (setApp s a v).time = s.time := rfl
@[simp] theorem setApp_timeOn (a : Nat) (v : Word) : (setApp s a v).timeOn = s.timeOn := rfl
@[simp] theorem setApp_slew (a : Nat) (v : Word) : (setApp s a v).slew = s.slew := rfl
@[simp] theorem setApp_pending (a : Nat) (v : Word) : (setApp s a v).pending = s.pending := rfl
@[simp] theorem setApp_free (a : Nat) (v : Word) : (setApp s a v).free = s.free := rfl
@[simp] theorem setApp_rdata (a : Nat) (v : Word) : (setApp s a v).rdata = s.rdata := rfl
@[simp] theorem setApp_regs (a : Nat) (v : Word) : (setApp s a v).regs = s.regs := rfl
@[simp] theorem setApp_applied (a : Nat) (v : Word) : (setApp s a v).applied = tset regRst s.applied a v := rfl
@[simp] theorem setApp_hi (a : Nat) (v : Word) : (setApp s a v).hi = s.hi := rfl
@[simp] theorem setApp_commits (a : Nat) (v : Word) : (setApp s a v).commits = s.commits := rfl
@[simp] theorem setApp_tone (a : Nat) (v : Word) : (setApp s a v).tone = s.tone := rfl
@[simp] theorem setApp_irqCtx (a : Nat) (v : Word) : (setApp s a v).irqCtx = s.irqCtx := rfl
@[simp] theorem setApp_absent (a : Nat) (v : Word) : (setApp s a v).absent = s.absent := rfl
@[simp] theorem setApp_stackGiB (a : Nat) (v : Word) : (setApp s a v).stackGiB = s.stackGiB := rfl
@[simp] theorem setApp_hbm (a : Nat) (v : Word) : (setApp s a v).hbm = s.hbm := rfl
@[simp] theorem setApp_host (a : Nat) (v : Word) : (setApp s a v).host = s.host := rfl
@[simp] theorem setApp_tile (a : Nat) (v : Word) : (setApp s a v).tile = s.tile := rfl
@[simp] theorem setApp_spad (a : Nat) (v : Word) : (setApp s a v).spad = s.spad := rfl
@[simp] theorem setApp_lane (a : Nat) (v : Word) : (setApp s a v).lane = s.lane := rfl
@[simp] theorem setApp_hbmUe (a : Nat) (v : Word) : (setApp s a v).hbmUe = s.hbmUe := rfl
@[simp] theorem setApp_spadUe (a : Nat) (v : Word) : (setApp s a v).spadUe = s.spadUe := rfl
@[simp] theorem setApp_tileUe (a : Nat) (v : Word) : (setApp s a v).tileUe = s.tileUe := rfl
@[simp] theorem setApp_clearing (a : Nat) (v : Word) : (setApp s a v).clearing = s.clearing := rfl
@[simp] theorem setApp_cmdw (a : Nat) (v : Word) : (setApp s a v).cmdw = s.cmdw := rfl
@[simp] theorem setApp_dlog (a : Nat) (v : Word) : (setApp s a v).dlog = s.dlog := rfl
@[simp] theorem setApp_msix (a : Nat) (v : Word) : (setApp s a v).msix = s.msix := rfl
@[simp] theorem setApp_graphs (a : Nat) (v : Word) : (setApp s a v).graphs = s.graphs := rfl
@[simp] theorem setApp_hampers (a : Nat) (v : Word) : (setApp s a v).hampers = s.hampers := rfl
@[simp] theorem setApp_units (a : Nat) (v : Word) : (setApp s a v).units = s.units := rfl
@[simp] theorem setApp_fifos (a : Nat) (v : Word) : (setApp s a v).fifos = s.fifos := rfl
@[simp] theorem setApp_collector (a : Nat) (v : Word) : (setApp s a v).collector = s.collector := rfl
@[simp] theorem setApp_ages (a : Nat) (v : Word) : (setApp s a v).ages = s.ages := rfl
@[simp] theorem setApp_ladles (a : Nat) (v : Word) : (setApp s a v).ladles = s.ladles := rfl
@[simp] theorem setApp_cams (a : Nat) (v : Word) : (setApp s a v).cams = s.cams := rfl
@[simp] theorem setApp_sctl (a : Nat) (v : Word) : (setApp s a v).sctl = s.sctl := rfl
@[simp] theorem setApp_fsync (a : Nat) (v : Word) : (setApp s a v).fsync = s.fsync := rfl
@[simp] theorem setApp_rpl (a : Nat) (v : Word) : (setApp s a v).rpl = s.rpl := rfl
@[simp] theorem setApp_safe (a : Nat) (v : Word) : (setApp s a v).safe = s.safe := rfl
@[simp] theorem setApp_dbg (a : Nat) (v : Word) : (setApp s a v).dbg = s.dbg := rfl
@[simp] theorem setApp_movers (a : Nat) (v : Word) : (setApp s a v).movers = s.movers := rfl
@[simp] theorem setApp_flights (a : Nat) (v : Word) : (setApp s a v).flights = s.flights := rfl
@[simp] theorem setApp_rolv (a : Nat) (v : Word) : (setApp s a v).rolv = s.rolv := rfl
@[simp] theorem setApp_cores (a : Nat) (v : Word) : (setApp s a v).cores = s.cores := rfl
@[simp] theorem setApp_fms (a : Nat) (v : Word) : (setApp s a v).fms = s.fms := rfl
@[simp] theorem setApp_ringSigs (a : Nat) (v : Word) : (setApp s a v).ringSigs = s.ringSigs := rfl
@[simp] theorem setApp_hbmRec (a : Nat) (v : Word) : (setApp s a v).hbmRec = s.hbmRec := rfl
@[simp] theorem setApp_invs (a : Nat) (v : Word) : (setApp s a v).invs = s.invs := rfl
@[simp] theorem setApp_nocBad (a : Nat) (v : Word) : (setApp s a v).nocBad = s.nocBad := rfl
@[simp] theorem setApp_actor (a : Nat) (v : Word) : (setApp s a v).actor = s.actor := rfl
@[simp] theorem setApp_pwr (a : Nat) (v : Word) : (setApp s a v).pwr = s.pwr := rfl
@[simp] theorem setApp_boot (a : Nat) (v : Word) : (setApp s a v).boot = s.boot := rfl
@[simp] theorem setApp_bar2 (a : Nat) (v : Word) : (setApp s a v).bar2 = s.bar2 := rfl

/-! ## setUnit -/

@[simp] theorem setUnit_time (b : Blk) (n : Nat) (u : UnitSt) : (setUnit s b n u).time = s.time := rfl
@[simp] theorem setUnit_timeOn (b : Blk) (n : Nat) (u : UnitSt) : (setUnit s b n u).timeOn = s.timeOn := rfl
@[simp] theorem setUnit_slew (b : Blk) (n : Nat) (u : UnitSt) : (setUnit s b n u).slew = s.slew := rfl
@[simp] theorem setUnit_pending (b : Blk) (n : Nat) (u : UnitSt) : (setUnit s b n u).pending = s.pending := rfl
@[simp] theorem setUnit_free (b : Blk) (n : Nat) (u : UnitSt) : (setUnit s b n u).free = s.free := rfl
@[simp] theorem setUnit_rdata (b : Blk) (n : Nat) (u : UnitSt) : (setUnit s b n u).rdata = s.rdata := rfl
@[simp] theorem setUnit_regs (b : Blk) (n : Nat) (u : UnitSt) : (setUnit s b n u).regs = s.regs := rfl
@[simp] theorem setUnit_applied (b : Blk) (n : Nat) (u : UnitSt) : (setUnit s b n u).applied = s.applied := rfl
@[simp] theorem setUnit_hi (b : Blk) (n : Nat) (u : UnitSt) : (setUnit s b n u).hi = s.hi := rfl
@[simp] theorem setUnit_commits (b : Blk) (n : Nat) (u : UnitSt) : (setUnit s b n u).commits = s.commits := rfl
@[simp] theorem setUnit_tone (b : Blk) (n : Nat) (u : UnitSt) : (setUnit s b n u).tone = s.tone := rfl
@[simp] theorem setUnit_irqCtx (b : Blk) (n : Nat) (u : UnitSt) : (setUnit s b n u).irqCtx = s.irqCtx := rfl
@[simp] theorem setUnit_absent (b : Blk) (n : Nat) (u : UnitSt) : (setUnit s b n u).absent = s.absent := rfl
@[simp] theorem setUnit_stackGiB (b : Blk) (n : Nat) (u : UnitSt) : (setUnit s b n u).stackGiB = s.stackGiB := rfl
@[simp] theorem setUnit_hbm (b : Blk) (n : Nat) (u : UnitSt) : (setUnit s b n u).hbm = s.hbm := rfl
@[simp] theorem setUnit_host (b : Blk) (n : Nat) (u : UnitSt) : (setUnit s b n u).host = s.host := rfl
@[simp] theorem setUnit_tile (b : Blk) (n : Nat) (u : UnitSt) : (setUnit s b n u).tile = s.tile := rfl
@[simp] theorem setUnit_spad (b : Blk) (n : Nat) (u : UnitSt) : (setUnit s b n u).spad = s.spad := rfl
@[simp] theorem setUnit_lane (b : Blk) (n : Nat) (u : UnitSt) : (setUnit s b n u).lane = s.lane := rfl
@[simp] theorem setUnit_hbmUe (b : Blk) (n : Nat) (u : UnitSt) : (setUnit s b n u).hbmUe = s.hbmUe := rfl
@[simp] theorem setUnit_spadUe (b : Blk) (n : Nat) (u : UnitSt) : (setUnit s b n u).spadUe = s.spadUe := rfl
@[simp] theorem setUnit_tileUe (b : Blk) (n : Nat) (u : UnitSt) : (setUnit s b n u).tileUe = s.tileUe := rfl
@[simp] theorem setUnit_clearing (b : Blk) (n : Nat) (u : UnitSt) : (setUnit s b n u).clearing = s.clearing := rfl
@[simp] theorem setUnit_cmdw (b : Blk) (n : Nat) (u : UnitSt) : (setUnit s b n u).cmdw = s.cmdw := rfl
@[simp] theorem setUnit_dlog (b : Blk) (n : Nat) (u : UnitSt) : (setUnit s b n u).dlog = s.dlog := rfl
@[simp] theorem setUnit_msix (b : Blk) (n : Nat) (u : UnitSt) : (setUnit s b n u).msix = s.msix := rfl
@[simp] theorem setUnit_graphs (b : Blk) (n : Nat) (u : UnitSt) : (setUnit s b n u).graphs = s.graphs := rfl
@[simp] theorem setUnit_hampers (b : Blk) (n : Nat) (u : UnitSt) : (setUnit s b n u).hampers = s.hampers := rfl
@[simp] theorem setUnit_units (b : Blk) (n : Nat) (u : UnitSt) : (setUnit s b n u).units = tset (fun _ => {}) s.units (ukey b n) u := rfl
@[simp] theorem setUnit_fifos (b : Blk) (n : Nat) (u : UnitSt) : (setUnit s b n u).fifos = s.fifos := rfl
@[simp] theorem setUnit_collector (b : Blk) (n : Nat) (u : UnitSt) : (setUnit s b n u).collector = s.collector := rfl
@[simp] theorem setUnit_ages (b : Blk) (n : Nat) (u : UnitSt) : (setUnit s b n u).ages = s.ages := rfl
@[simp] theorem setUnit_ladles (b : Blk) (n : Nat) (u : UnitSt) : (setUnit s b n u).ladles = s.ladles := rfl
@[simp] theorem setUnit_cams (b : Blk) (n : Nat) (u : UnitSt) : (setUnit s b n u).cams = s.cams := rfl
@[simp] theorem setUnit_sctl (b : Blk) (n : Nat) (u : UnitSt) : (setUnit s b n u).sctl = s.sctl := rfl
@[simp] theorem setUnit_fsync (b : Blk) (n : Nat) (u : UnitSt) : (setUnit s b n u).fsync = s.fsync := rfl
@[simp] theorem setUnit_rpl (b : Blk) (n : Nat) (u : UnitSt) : (setUnit s b n u).rpl = s.rpl := rfl
@[simp] theorem setUnit_safe (b : Blk) (n : Nat) (u : UnitSt) : (setUnit s b n u).safe = s.safe := rfl
@[simp] theorem setUnit_dbg (b : Blk) (n : Nat) (u : UnitSt) : (setUnit s b n u).dbg = s.dbg := rfl
@[simp] theorem setUnit_movers (b : Blk) (n : Nat) (u : UnitSt) : (setUnit s b n u).movers = s.movers := rfl
@[simp] theorem setUnit_flights (b : Blk) (n : Nat) (u : UnitSt) : (setUnit s b n u).flights = s.flights := rfl
@[simp] theorem setUnit_rolv (b : Blk) (n : Nat) (u : UnitSt) : (setUnit s b n u).rolv = s.rolv := rfl
@[simp] theorem setUnit_cores (b : Blk) (n : Nat) (u : UnitSt) : (setUnit s b n u).cores = s.cores := rfl
@[simp] theorem setUnit_fms (b : Blk) (n : Nat) (u : UnitSt) : (setUnit s b n u).fms = s.fms := rfl
@[simp] theorem setUnit_ringSigs (b : Blk) (n : Nat) (u : UnitSt) : (setUnit s b n u).ringSigs = s.ringSigs := rfl
@[simp] theorem setUnit_hbmRec (b : Blk) (n : Nat) (u : UnitSt) : (setUnit s b n u).hbmRec = s.hbmRec := rfl
@[simp] theorem setUnit_invs (b : Blk) (n : Nat) (u : UnitSt) : (setUnit s b n u).invs = s.invs := rfl
@[simp] theorem setUnit_nocBad (b : Blk) (n : Nat) (u : UnitSt) : (setUnit s b n u).nocBad = s.nocBad := rfl
@[simp] theorem setUnit_actor (b : Blk) (n : Nat) (u : UnitSt) : (setUnit s b n u).actor = s.actor := rfl
@[simp] theorem setUnit_pwr (b : Blk) (n : Nat) (u : UnitSt) : (setUnit s b n u).pwr = s.pwr := rfl
@[simp] theorem setUnit_boot (b : Blk) (n : Nat) (u : UnitSt) : (setUnit s b n u).boot = s.boot := rfl
@[simp] theorem setUnit_bar2 (b : Blk) (n : Nat) (u : UnitSt) : (setUnit s b n u).bar2 = s.bar2 := rfl

/-! ## setGraph -/

@[simp] theorem setGraph_time (g : Nat) (x : Graph) : (setGraph s g x).time = s.time := rfl
@[simp] theorem setGraph_timeOn (g : Nat) (x : Graph) : (setGraph s g x).timeOn = s.timeOn := rfl
@[simp] theorem setGraph_slew (g : Nat) (x : Graph) : (setGraph s g x).slew = s.slew := rfl
@[simp] theorem setGraph_pending (g : Nat) (x : Graph) : (setGraph s g x).pending = s.pending := rfl
@[simp] theorem setGraph_free (g : Nat) (x : Graph) : (setGraph s g x).free = s.free := rfl
@[simp] theorem setGraph_rdata (g : Nat) (x : Graph) : (setGraph s g x).rdata = s.rdata := rfl
@[simp] theorem setGraph_regs (g : Nat) (x : Graph) : (setGraph s g x).regs = s.regs := rfl
@[simp] theorem setGraph_applied (g : Nat) (x : Graph) : (setGraph s g x).applied = s.applied := rfl
@[simp] theorem setGraph_hi (g : Nat) (x : Graph) : (setGraph s g x).hi = s.hi := rfl
@[simp] theorem setGraph_commits (g : Nat) (x : Graph) : (setGraph s g x).commits = s.commits := rfl
@[simp] theorem setGraph_tone (g : Nat) (x : Graph) : (setGraph s g x).tone = s.tone := rfl
@[simp] theorem setGraph_irqCtx (g : Nat) (x : Graph) : (setGraph s g x).irqCtx = s.irqCtx := rfl
@[simp] theorem setGraph_absent (g : Nat) (x : Graph) : (setGraph s g x).absent = s.absent := rfl
@[simp] theorem setGraph_stackGiB (g : Nat) (x : Graph) : (setGraph s g x).stackGiB = s.stackGiB := rfl
@[simp] theorem setGraph_hbm (g : Nat) (x : Graph) : (setGraph s g x).hbm = s.hbm := rfl
@[simp] theorem setGraph_host (g : Nat) (x : Graph) : (setGraph s g x).host = s.host := rfl
@[simp] theorem setGraph_tile (g : Nat) (x : Graph) : (setGraph s g x).tile = s.tile := rfl
@[simp] theorem setGraph_spad (g : Nat) (x : Graph) : (setGraph s g x).spad = s.spad := rfl
@[simp] theorem setGraph_lane (g : Nat) (x : Graph) : (setGraph s g x).lane = s.lane := rfl
@[simp] theorem setGraph_hbmUe (g : Nat) (x : Graph) : (setGraph s g x).hbmUe = s.hbmUe := rfl
@[simp] theorem setGraph_spadUe (g : Nat) (x : Graph) : (setGraph s g x).spadUe = s.spadUe := rfl
@[simp] theorem setGraph_tileUe (g : Nat) (x : Graph) : (setGraph s g x).tileUe = s.tileUe := rfl
@[simp] theorem setGraph_clearing (g : Nat) (x : Graph) : (setGraph s g x).clearing = s.clearing := rfl
@[simp] theorem setGraph_cmdw (g : Nat) (x : Graph) : (setGraph s g x).cmdw = s.cmdw := rfl
@[simp] theorem setGraph_dlog (g : Nat) (x : Graph) : (setGraph s g x).dlog = s.dlog := rfl
@[simp] theorem setGraph_msix (g : Nat) (x : Graph) : (setGraph s g x).msix = s.msix := rfl
@[simp] theorem setGraph_graphs (g : Nat) (x : Graph) : (setGraph s g x).graphs = tset (fun _ => {}) s.graphs g x := rfl
@[simp] theorem setGraph_hampers (g : Nat) (x : Graph) : (setGraph s g x).hampers = s.hampers := rfl
@[simp] theorem setGraph_units (g : Nat) (x : Graph) : (setGraph s g x).units = s.units := rfl
@[simp] theorem setGraph_fifos (g : Nat) (x : Graph) : (setGraph s g x).fifos = s.fifos := rfl
@[simp] theorem setGraph_collector (g : Nat) (x : Graph) : (setGraph s g x).collector = s.collector := rfl
@[simp] theorem setGraph_ages (g : Nat) (x : Graph) : (setGraph s g x).ages = s.ages := rfl
@[simp] theorem setGraph_ladles (g : Nat) (x : Graph) : (setGraph s g x).ladles = s.ladles := rfl
@[simp] theorem setGraph_cams (g : Nat) (x : Graph) : (setGraph s g x).cams = s.cams := rfl
@[simp] theorem setGraph_sctl (g : Nat) (x : Graph) : (setGraph s g x).sctl = s.sctl := rfl
@[simp] theorem setGraph_fsync (g : Nat) (x : Graph) : (setGraph s g x).fsync = s.fsync := rfl
@[simp] theorem setGraph_rpl (g : Nat) (x : Graph) : (setGraph s g x).rpl = s.rpl := rfl
@[simp] theorem setGraph_safe (g : Nat) (x : Graph) : (setGraph s g x).safe = s.safe := rfl
@[simp] theorem setGraph_dbg (g : Nat) (x : Graph) : (setGraph s g x).dbg = s.dbg := rfl
@[simp] theorem setGraph_movers (g : Nat) (x : Graph) : (setGraph s g x).movers = s.movers := rfl
@[simp] theorem setGraph_flights (g : Nat) (x : Graph) : (setGraph s g x).flights = s.flights := rfl
@[simp] theorem setGraph_rolv (g : Nat) (x : Graph) : (setGraph s g x).rolv = s.rolv := rfl
@[simp] theorem setGraph_cores (g : Nat) (x : Graph) : (setGraph s g x).cores = s.cores := rfl
@[simp] theorem setGraph_fms (g : Nat) (x : Graph) : (setGraph s g x).fms = s.fms := rfl
@[simp] theorem setGraph_ringSigs (g : Nat) (x : Graph) : (setGraph s g x).ringSigs = s.ringSigs := rfl
@[simp] theorem setGraph_hbmRec (g : Nat) (x : Graph) : (setGraph s g x).hbmRec = s.hbmRec := rfl
@[simp] theorem setGraph_invs (g : Nat) (x : Graph) : (setGraph s g x).invs = s.invs := rfl
@[simp] theorem setGraph_nocBad (g : Nat) (x : Graph) : (setGraph s g x).nocBad = s.nocBad := rfl
@[simp] theorem setGraph_actor (g : Nat) (x : Graph) : (setGraph s g x).actor = s.actor := rfl
@[simp] theorem setGraph_pwr (g : Nat) (x : Graph) : (setGraph s g x).pwr = s.pwr := rfl
@[simp] theorem setGraph_boot (g : Nat) (x : Graph) : (setGraph s g x).boot = s.boot := rfl
@[simp] theorem setGraph_bar2 (g : Nat) (x : Graph) : (setGraph s g x).bar2 = s.bar2 := rfl

/-! ## setCmdw -/

@[simp] theorem setCmdw_time (p : Nat) (c : Cmdw) : (setCmdw s p c).time = s.time := rfl
@[simp] theorem setCmdw_timeOn (p : Nat) (c : Cmdw) : (setCmdw s p c).timeOn = s.timeOn := rfl
@[simp] theorem setCmdw_slew (p : Nat) (c : Cmdw) : (setCmdw s p c).slew = s.slew := rfl
@[simp] theorem setCmdw_pending (p : Nat) (c : Cmdw) : (setCmdw s p c).pending = s.pending := rfl
@[simp] theorem setCmdw_free (p : Nat) (c : Cmdw) : (setCmdw s p c).free = s.free := rfl
@[simp] theorem setCmdw_rdata (p : Nat) (c : Cmdw) : (setCmdw s p c).rdata = s.rdata := rfl
@[simp] theorem setCmdw_regs (p : Nat) (c : Cmdw) : (setCmdw s p c).regs = s.regs := rfl
@[simp] theorem setCmdw_applied (p : Nat) (c : Cmdw) : (setCmdw s p c).applied = s.applied := rfl
@[simp] theorem setCmdw_hi (p : Nat) (c : Cmdw) : (setCmdw s p c).hi = s.hi := rfl
@[simp] theorem setCmdw_commits (p : Nat) (c : Cmdw) : (setCmdw s p c).commits = s.commits := rfl
@[simp] theorem setCmdw_tone (p : Nat) (c : Cmdw) : (setCmdw s p c).tone = s.tone := rfl
@[simp] theorem setCmdw_irqCtx (p : Nat) (c : Cmdw) : (setCmdw s p c).irqCtx = s.irqCtx := rfl
@[simp] theorem setCmdw_absent (p : Nat) (c : Cmdw) : (setCmdw s p c).absent = s.absent := rfl
@[simp] theorem setCmdw_stackGiB (p : Nat) (c : Cmdw) : (setCmdw s p c).stackGiB = s.stackGiB := rfl
@[simp] theorem setCmdw_hbm (p : Nat) (c : Cmdw) : (setCmdw s p c).hbm = s.hbm := rfl
@[simp] theorem setCmdw_host (p : Nat) (c : Cmdw) : (setCmdw s p c).host = s.host := rfl
@[simp] theorem setCmdw_tile (p : Nat) (c : Cmdw) : (setCmdw s p c).tile = s.tile := rfl
@[simp] theorem setCmdw_spad (p : Nat) (c : Cmdw) : (setCmdw s p c).spad = s.spad := rfl
@[simp] theorem setCmdw_lane (p : Nat) (c : Cmdw) : (setCmdw s p c).lane = s.lane := rfl
@[simp] theorem setCmdw_hbmUe (p : Nat) (c : Cmdw) : (setCmdw s p c).hbmUe = s.hbmUe := rfl
@[simp] theorem setCmdw_spadUe (p : Nat) (c : Cmdw) : (setCmdw s p c).spadUe = s.spadUe := rfl
@[simp] theorem setCmdw_tileUe (p : Nat) (c : Cmdw) : (setCmdw s p c).tileUe = s.tileUe := rfl
@[simp] theorem setCmdw_clearing (p : Nat) (c : Cmdw) : (setCmdw s p c).clearing = s.clearing := rfl
@[simp] theorem setCmdw_cmdw (p : Nat) (c : Cmdw) : (setCmdw s p c).cmdw = tset (fun _ => {}) s.cmdw p c := rfl
@[simp] theorem setCmdw_dlog (p : Nat) (c : Cmdw) : (setCmdw s p c).dlog = s.dlog := rfl
@[simp] theorem setCmdw_msix (p : Nat) (c : Cmdw) : (setCmdw s p c).msix = s.msix := rfl
@[simp] theorem setCmdw_graphs (p : Nat) (c : Cmdw) : (setCmdw s p c).graphs = s.graphs := rfl
@[simp] theorem setCmdw_hampers (p : Nat) (c : Cmdw) : (setCmdw s p c).hampers = s.hampers := rfl
@[simp] theorem setCmdw_units (p : Nat) (c : Cmdw) : (setCmdw s p c).units = s.units := rfl
@[simp] theorem setCmdw_fifos (p : Nat) (c : Cmdw) : (setCmdw s p c).fifos = s.fifos := rfl
@[simp] theorem setCmdw_collector (p : Nat) (c : Cmdw) : (setCmdw s p c).collector = s.collector := rfl
@[simp] theorem setCmdw_ages (p : Nat) (c : Cmdw) : (setCmdw s p c).ages = s.ages := rfl
@[simp] theorem setCmdw_ladles (p : Nat) (c : Cmdw) : (setCmdw s p c).ladles = s.ladles := rfl
@[simp] theorem setCmdw_cams (p : Nat) (c : Cmdw) : (setCmdw s p c).cams = s.cams := rfl
@[simp] theorem setCmdw_sctl (p : Nat) (c : Cmdw) : (setCmdw s p c).sctl = s.sctl := rfl
@[simp] theorem setCmdw_fsync (p : Nat) (c : Cmdw) : (setCmdw s p c).fsync = s.fsync := rfl
@[simp] theorem setCmdw_rpl (p : Nat) (c : Cmdw) : (setCmdw s p c).rpl = s.rpl := rfl
@[simp] theorem setCmdw_safe (p : Nat) (c : Cmdw) : (setCmdw s p c).safe = s.safe := rfl
@[simp] theorem setCmdw_dbg (p : Nat) (c : Cmdw) : (setCmdw s p c).dbg = s.dbg := rfl
@[simp] theorem setCmdw_movers (p : Nat) (c : Cmdw) : (setCmdw s p c).movers = s.movers := rfl
@[simp] theorem setCmdw_flights (p : Nat) (c : Cmdw) : (setCmdw s p c).flights = s.flights := rfl
@[simp] theorem setCmdw_rolv (p : Nat) (c : Cmdw) : (setCmdw s p c).rolv = s.rolv := rfl
@[simp] theorem setCmdw_cores (p : Nat) (c : Cmdw) : (setCmdw s p c).cores = s.cores := rfl
@[simp] theorem setCmdw_fms (p : Nat) (c : Cmdw) : (setCmdw s p c).fms = s.fms := rfl
@[simp] theorem setCmdw_ringSigs (p : Nat) (c : Cmdw) : (setCmdw s p c).ringSigs = s.ringSigs := rfl
@[simp] theorem setCmdw_hbmRec (p : Nat) (c : Cmdw) : (setCmdw s p c).hbmRec = s.hbmRec := rfl
@[simp] theorem setCmdw_invs (p : Nat) (c : Cmdw) : (setCmdw s p c).invs = s.invs := rfl
@[simp] theorem setCmdw_nocBad (p : Nat) (c : Cmdw) : (setCmdw s p c).nocBad = s.nocBad := rfl
@[simp] theorem setCmdw_actor (p : Nat) (c : Cmdw) : (setCmdw s p c).actor = s.actor := rfl
@[simp] theorem setCmdw_pwr (p : Nat) (c : Cmdw) : (setCmdw s p c).pwr = s.pwr := rfl
@[simp] theorem setCmdw_boot (p : Nat) (c : Cmdw) : (setCmdw s p c).boot = s.boot := rfl
@[simp] theorem setCmdw_bar2 (p : Nat) (c : Cmdw) : (setCmdw s p c).bar2 = s.bar2 := rfl

/-! ## setCams -/

@[simp] theorem setCams_time (n : Nat) (c : Cams) : (setCams s n c).time = s.time := rfl
@[simp] theorem setCams_timeOn (n : Nat) (c : Cams) : (setCams s n c).timeOn = s.timeOn := rfl
@[simp] theorem setCams_slew (n : Nat) (c : Cams) : (setCams s n c).slew = s.slew := rfl
@[simp] theorem setCams_pending (n : Nat) (c : Cams) : (setCams s n c).pending = s.pending := rfl
@[simp] theorem setCams_free (n : Nat) (c : Cams) : (setCams s n c).free = s.free := rfl
@[simp] theorem setCams_rdata (n : Nat) (c : Cams) : (setCams s n c).rdata = s.rdata := rfl
@[simp] theorem setCams_regs (n : Nat) (c : Cams) : (setCams s n c).regs = s.regs := rfl
@[simp] theorem setCams_applied (n : Nat) (c : Cams) : (setCams s n c).applied = s.applied := rfl
@[simp] theorem setCams_hi (n : Nat) (c : Cams) : (setCams s n c).hi = s.hi := rfl
@[simp] theorem setCams_commits (n : Nat) (c : Cams) : (setCams s n c).commits = s.commits := rfl
@[simp] theorem setCams_tone (n : Nat) (c : Cams) : (setCams s n c).tone = s.tone := rfl
@[simp] theorem setCams_irqCtx (n : Nat) (c : Cams) : (setCams s n c).irqCtx = s.irqCtx := rfl
@[simp] theorem setCams_absent (n : Nat) (c : Cams) : (setCams s n c).absent = s.absent := rfl
@[simp] theorem setCams_stackGiB (n : Nat) (c : Cams) : (setCams s n c).stackGiB = s.stackGiB := rfl
@[simp] theorem setCams_hbm (n : Nat) (c : Cams) : (setCams s n c).hbm = s.hbm := rfl
@[simp] theorem setCams_host (n : Nat) (c : Cams) : (setCams s n c).host = s.host := rfl
@[simp] theorem setCams_tile (n : Nat) (c : Cams) : (setCams s n c).tile = s.tile := rfl
@[simp] theorem setCams_spad (n : Nat) (c : Cams) : (setCams s n c).spad = s.spad := rfl
@[simp] theorem setCams_lane (n : Nat) (c : Cams) : (setCams s n c).lane = s.lane := rfl
@[simp] theorem setCams_hbmUe (n : Nat) (c : Cams) : (setCams s n c).hbmUe = s.hbmUe := rfl
@[simp] theorem setCams_spadUe (n : Nat) (c : Cams) : (setCams s n c).spadUe = s.spadUe := rfl
@[simp] theorem setCams_tileUe (n : Nat) (c : Cams) : (setCams s n c).tileUe = s.tileUe := rfl
@[simp] theorem setCams_clearing (n : Nat) (c : Cams) : (setCams s n c).clearing = s.clearing := rfl
@[simp] theorem setCams_cmdw (n : Nat) (c : Cams) : (setCams s n c).cmdw = s.cmdw := rfl
@[simp] theorem setCams_dlog (n : Nat) (c : Cams) : (setCams s n c).dlog = s.dlog := rfl
@[simp] theorem setCams_msix (n : Nat) (c : Cams) : (setCams s n c).msix = s.msix := rfl
@[simp] theorem setCams_graphs (n : Nat) (c : Cams) : (setCams s n c).graphs = s.graphs := rfl
@[simp] theorem setCams_hampers (n : Nat) (c : Cams) : (setCams s n c).hampers = s.hampers := rfl
@[simp] theorem setCams_units (n : Nat) (c : Cams) : (setCams s n c).units = s.units := rfl
@[simp] theorem setCams_fifos (n : Nat) (c : Cams) : (setCams s n c).fifos = s.fifos := rfl
@[simp] theorem setCams_collector (n : Nat) (c : Cams) : (setCams s n c).collector = s.collector := rfl
@[simp] theorem setCams_ages (n : Nat) (c : Cams) : (setCams s n c).ages = s.ages := rfl
@[simp] theorem setCams_ladles (n : Nat) (c : Cams) : (setCams s n c).ladles = s.ladles := rfl
@[simp] theorem setCams_cams (n : Nat) (c : Cams) : (setCams s n c).cams = tset (fun _ => {}) s.cams n c := rfl
@[simp] theorem setCams_sctl (n : Nat) (c : Cams) : (setCams s n c).sctl = s.sctl := rfl
@[simp] theorem setCams_fsync (n : Nat) (c : Cams) : (setCams s n c).fsync = s.fsync := rfl
@[simp] theorem setCams_rpl (n : Nat) (c : Cams) : (setCams s n c).rpl = s.rpl := rfl
@[simp] theorem setCams_safe (n : Nat) (c : Cams) : (setCams s n c).safe = s.safe := rfl
@[simp] theorem setCams_dbg (n : Nat) (c : Cams) : (setCams s n c).dbg = s.dbg := rfl
@[simp] theorem setCams_movers (n : Nat) (c : Cams) : (setCams s n c).movers = s.movers := rfl
@[simp] theorem setCams_flights (n : Nat) (c : Cams) : (setCams s n c).flights = s.flights := rfl
@[simp] theorem setCams_rolv (n : Nat) (c : Cams) : (setCams s n c).rolv = s.rolv := rfl
@[simp] theorem setCams_cores (n : Nat) (c : Cams) : (setCams s n c).cores = s.cores := rfl
@[simp] theorem setCams_fms (n : Nat) (c : Cams) : (setCams s n c).fms = s.fms := rfl
@[simp] theorem setCams_ringSigs (n : Nat) (c : Cams) : (setCams s n c).ringSigs = s.ringSigs := rfl
@[simp] theorem setCams_hbmRec (n : Nat) (c : Cams) : (setCams s n c).hbmRec = s.hbmRec := rfl
@[simp] theorem setCams_invs (n : Nat) (c : Cams) : (setCams s n c).invs = s.invs := rfl
@[simp] theorem setCams_nocBad (n : Nat) (c : Cams) : (setCams s n c).nocBad = s.nocBad := rfl
@[simp] theorem setCams_actor (n : Nat) (c : Cams) : (setCams s n c).actor = s.actor := rfl
@[simp] theorem setCams_pwr (n : Nat) (c : Cams) : (setCams s n c).pwr = s.pwr := rfl
@[simp] theorem setCams_boot (n : Nat) (c : Cams) : (setCams s n c).boot = s.boot := rfl
@[simp] theorem setCams_bar2 (n : Nat) (c : Cams) : (setCams s n c).bar2 = s.bar2 := rfl

/-! ## setSctl -/

@[simp] theorem setSctl_time (n : Nat) (c : Sctl) : (setSctl s n c).time = s.time := rfl
@[simp] theorem setSctl_timeOn (n : Nat) (c : Sctl) : (setSctl s n c).timeOn = s.timeOn := rfl
@[simp] theorem setSctl_slew (n : Nat) (c : Sctl) : (setSctl s n c).slew = s.slew := rfl
@[simp] theorem setSctl_pending (n : Nat) (c : Sctl) : (setSctl s n c).pending = s.pending := rfl
@[simp] theorem setSctl_free (n : Nat) (c : Sctl) : (setSctl s n c).free = s.free := rfl
@[simp] theorem setSctl_rdata (n : Nat) (c : Sctl) : (setSctl s n c).rdata = s.rdata := rfl
@[simp] theorem setSctl_regs (n : Nat) (c : Sctl) : (setSctl s n c).regs = s.regs := rfl
@[simp] theorem setSctl_applied (n : Nat) (c : Sctl) : (setSctl s n c).applied = s.applied := rfl
@[simp] theorem setSctl_hi (n : Nat) (c : Sctl) : (setSctl s n c).hi = s.hi := rfl
@[simp] theorem setSctl_commits (n : Nat) (c : Sctl) : (setSctl s n c).commits = s.commits := rfl
@[simp] theorem setSctl_tone (n : Nat) (c : Sctl) : (setSctl s n c).tone = s.tone := rfl
@[simp] theorem setSctl_irqCtx (n : Nat) (c : Sctl) : (setSctl s n c).irqCtx = s.irqCtx := rfl
@[simp] theorem setSctl_absent (n : Nat) (c : Sctl) : (setSctl s n c).absent = s.absent := rfl
@[simp] theorem setSctl_stackGiB (n : Nat) (c : Sctl) : (setSctl s n c).stackGiB = s.stackGiB := rfl
@[simp] theorem setSctl_hbm (n : Nat) (c : Sctl) : (setSctl s n c).hbm = s.hbm := rfl
@[simp] theorem setSctl_host (n : Nat) (c : Sctl) : (setSctl s n c).host = s.host := rfl
@[simp] theorem setSctl_tile (n : Nat) (c : Sctl) : (setSctl s n c).tile = s.tile := rfl
@[simp] theorem setSctl_spad (n : Nat) (c : Sctl) : (setSctl s n c).spad = s.spad := rfl
@[simp] theorem setSctl_lane (n : Nat) (c : Sctl) : (setSctl s n c).lane = s.lane := rfl
@[simp] theorem setSctl_hbmUe (n : Nat) (c : Sctl) : (setSctl s n c).hbmUe = s.hbmUe := rfl
@[simp] theorem setSctl_spadUe (n : Nat) (c : Sctl) : (setSctl s n c).spadUe = s.spadUe := rfl
@[simp] theorem setSctl_tileUe (n : Nat) (c : Sctl) : (setSctl s n c).tileUe = s.tileUe := rfl
@[simp] theorem setSctl_clearing (n : Nat) (c : Sctl) : (setSctl s n c).clearing = s.clearing := rfl
@[simp] theorem setSctl_cmdw (n : Nat) (c : Sctl) : (setSctl s n c).cmdw = s.cmdw := rfl
@[simp] theorem setSctl_dlog (n : Nat) (c : Sctl) : (setSctl s n c).dlog = s.dlog := rfl
@[simp] theorem setSctl_msix (n : Nat) (c : Sctl) : (setSctl s n c).msix = s.msix := rfl
@[simp] theorem setSctl_graphs (n : Nat) (c : Sctl) : (setSctl s n c).graphs = s.graphs := rfl
@[simp] theorem setSctl_hampers (n : Nat) (c : Sctl) : (setSctl s n c).hampers = s.hampers := rfl
@[simp] theorem setSctl_units (n : Nat) (c : Sctl) : (setSctl s n c).units = s.units := rfl
@[simp] theorem setSctl_fifos (n : Nat) (c : Sctl) : (setSctl s n c).fifos = s.fifos := rfl
@[simp] theorem setSctl_collector (n : Nat) (c : Sctl) : (setSctl s n c).collector = s.collector := rfl
@[simp] theorem setSctl_ages (n : Nat) (c : Sctl) : (setSctl s n c).ages = s.ages := rfl
@[simp] theorem setSctl_ladles (n : Nat) (c : Sctl) : (setSctl s n c).ladles = s.ladles := rfl
@[simp] theorem setSctl_cams (n : Nat) (c : Sctl) : (setSctl s n c).cams = s.cams := rfl
@[simp] theorem setSctl_sctl (n : Nat) (c : Sctl) : (setSctl s n c).sctl = tset (fun _ => {}) s.sctl n c := rfl
@[simp] theorem setSctl_fsync (n : Nat) (c : Sctl) : (setSctl s n c).fsync = s.fsync := rfl
@[simp] theorem setSctl_rpl (n : Nat) (c : Sctl) : (setSctl s n c).rpl = s.rpl := rfl
@[simp] theorem setSctl_safe (n : Nat) (c : Sctl) : (setSctl s n c).safe = s.safe := rfl
@[simp] theorem setSctl_dbg (n : Nat) (c : Sctl) : (setSctl s n c).dbg = s.dbg := rfl
@[simp] theorem setSctl_movers (n : Nat) (c : Sctl) : (setSctl s n c).movers = s.movers := rfl
@[simp] theorem setSctl_flights (n : Nat) (c : Sctl) : (setSctl s n c).flights = s.flights := rfl
@[simp] theorem setSctl_rolv (n : Nat) (c : Sctl) : (setSctl s n c).rolv = s.rolv := rfl
@[simp] theorem setSctl_cores (n : Nat) (c : Sctl) : (setSctl s n c).cores = s.cores := rfl
@[simp] theorem setSctl_fms (n : Nat) (c : Sctl) : (setSctl s n c).fms = s.fms := rfl
@[simp] theorem setSctl_ringSigs (n : Nat) (c : Sctl) : (setSctl s n c).ringSigs = s.ringSigs := rfl
@[simp] theorem setSctl_hbmRec (n : Nat) (c : Sctl) : (setSctl s n c).hbmRec = s.hbmRec := rfl
@[simp] theorem setSctl_invs (n : Nat) (c : Sctl) : (setSctl s n c).invs = s.invs := rfl
@[simp] theorem setSctl_nocBad (n : Nat) (c : Sctl) : (setSctl s n c).nocBad = s.nocBad := rfl
@[simp] theorem setSctl_actor (n : Nat) (c : Sctl) : (setSctl s n c).actor = s.actor := rfl
@[simp] theorem setSctl_pwr (n : Nat) (c : Sctl) : (setSctl s n c).pwr = s.pwr := rfl
@[simp] theorem setSctl_boot (n : Nat) (c : Sctl) : (setSctl s n c).boot = s.boot := rfl
@[simp] theorem setSctl_bar2 (n : Nat) (c : Sctl) : (setSctl s n c).bar2 = s.bar2 := rfl

/-! ## setCore -/

@[simp] theorem setCore_time (n : Nat) (c : Core) : (setCore s n c).time = s.time := rfl
@[simp] theorem setCore_timeOn (n : Nat) (c : Core) : (setCore s n c).timeOn = s.timeOn := rfl
@[simp] theorem setCore_slew (n : Nat) (c : Core) : (setCore s n c).slew = s.slew := rfl
@[simp] theorem setCore_pending (n : Nat) (c : Core) : (setCore s n c).pending = s.pending := rfl
@[simp] theorem setCore_free (n : Nat) (c : Core) : (setCore s n c).free = s.free := rfl
@[simp] theorem setCore_rdata (n : Nat) (c : Core) : (setCore s n c).rdata = s.rdata := rfl
@[simp] theorem setCore_regs (n : Nat) (c : Core) : (setCore s n c).regs = s.regs := rfl
@[simp] theorem setCore_applied (n : Nat) (c : Core) : (setCore s n c).applied = s.applied := rfl
@[simp] theorem setCore_hi (n : Nat) (c : Core) : (setCore s n c).hi = s.hi := rfl
@[simp] theorem setCore_commits (n : Nat) (c : Core) : (setCore s n c).commits = s.commits := rfl
@[simp] theorem setCore_tone (n : Nat) (c : Core) : (setCore s n c).tone = s.tone := rfl
@[simp] theorem setCore_irqCtx (n : Nat) (c : Core) : (setCore s n c).irqCtx = s.irqCtx := rfl
@[simp] theorem setCore_absent (n : Nat) (c : Core) : (setCore s n c).absent = s.absent := rfl
@[simp] theorem setCore_stackGiB (n : Nat) (c : Core) : (setCore s n c).stackGiB = s.stackGiB := rfl
@[simp] theorem setCore_hbm (n : Nat) (c : Core) : (setCore s n c).hbm = s.hbm := rfl
@[simp] theorem setCore_host (n : Nat) (c : Core) : (setCore s n c).host = s.host := rfl
@[simp] theorem setCore_tile (n : Nat) (c : Core) : (setCore s n c).tile = s.tile := rfl
@[simp] theorem setCore_spad (n : Nat) (c : Core) : (setCore s n c).spad = s.spad := rfl
@[simp] theorem setCore_lane (n : Nat) (c : Core) : (setCore s n c).lane = s.lane := rfl
@[simp] theorem setCore_hbmUe (n : Nat) (c : Core) : (setCore s n c).hbmUe = s.hbmUe := rfl
@[simp] theorem setCore_spadUe (n : Nat) (c : Core) : (setCore s n c).spadUe = s.spadUe := rfl
@[simp] theorem setCore_tileUe (n : Nat) (c : Core) : (setCore s n c).tileUe = s.tileUe := rfl
@[simp] theorem setCore_clearing (n : Nat) (c : Core) : (setCore s n c).clearing = s.clearing := rfl
@[simp] theorem setCore_cmdw (n : Nat) (c : Core) : (setCore s n c).cmdw = s.cmdw := rfl
@[simp] theorem setCore_dlog (n : Nat) (c : Core) : (setCore s n c).dlog = s.dlog := rfl
@[simp] theorem setCore_msix (n : Nat) (c : Core) : (setCore s n c).msix = s.msix := rfl
@[simp] theorem setCore_graphs (n : Nat) (c : Core) : (setCore s n c).graphs = s.graphs := rfl
@[simp] theorem setCore_hampers (n : Nat) (c : Core) : (setCore s n c).hampers = s.hampers := rfl
@[simp] theorem setCore_units (n : Nat) (c : Core) : (setCore s n c).units = s.units := rfl
@[simp] theorem setCore_fifos (n : Nat) (c : Core) : (setCore s n c).fifos = s.fifos := rfl
@[simp] theorem setCore_collector (n : Nat) (c : Core) : (setCore s n c).collector = s.collector := rfl
@[simp] theorem setCore_ages (n : Nat) (c : Core) : (setCore s n c).ages = s.ages := rfl
@[simp] theorem setCore_ladles (n : Nat) (c : Core) : (setCore s n c).ladles = s.ladles := rfl
@[simp] theorem setCore_cams (n : Nat) (c : Core) : (setCore s n c).cams = s.cams := rfl
@[simp] theorem setCore_sctl (n : Nat) (c : Core) : (setCore s n c).sctl = s.sctl := rfl
@[simp] theorem setCore_fsync (n : Nat) (c : Core) : (setCore s n c).fsync = s.fsync := rfl
@[simp] theorem setCore_rpl (n : Nat) (c : Core) : (setCore s n c).rpl = s.rpl := rfl
@[simp] theorem setCore_safe (n : Nat) (c : Core) : (setCore s n c).safe = s.safe := rfl
@[simp] theorem setCore_dbg (n : Nat) (c : Core) : (setCore s n c).dbg = s.dbg := rfl
@[simp] theorem setCore_movers (n : Nat) (c : Core) : (setCore s n c).movers = s.movers := rfl
@[simp] theorem setCore_flights (n : Nat) (c : Core) : (setCore s n c).flights = s.flights := rfl
@[simp] theorem setCore_rolv (n : Nat) (c : Core) : (setCore s n c).rolv = s.rolv := rfl
@[simp] theorem setCore_cores (n : Nat) (c : Core) : (setCore s n c).cores = tset (fun _ => {}) s.cores n c := rfl
@[simp] theorem setCore_fms (n : Nat) (c : Core) : (setCore s n c).fms = s.fms := rfl
@[simp] theorem setCore_ringSigs (n : Nat) (c : Core) : (setCore s n c).ringSigs = s.ringSigs := rfl
@[simp] theorem setCore_hbmRec (n : Nat) (c : Core) : (setCore s n c).hbmRec = s.hbmRec := rfl
@[simp] theorem setCore_invs (n : Nat) (c : Core) : (setCore s n c).invs = s.invs := rfl
@[simp] theorem setCore_nocBad (n : Nat) (c : Core) : (setCore s n c).nocBad = s.nocBad := rfl
@[simp] theorem setCore_actor (n : Nat) (c : Core) : (setCore s n c).actor = s.actor := rfl
@[simp] theorem setCore_pwr (n : Nat) (c : Core) : (setCore s n c).pwr = s.pwr := rfl
@[simp] theorem setCore_boot (n : Nat) (c : Core) : (setCore s n c).boot = s.boot := rfl
@[simp] theorem setCore_bar2 (n : Nat) (c : Core) : (setCore s n c).bar2 = s.bar2 := rfl

/-! ## setMov -/

@[simp] theorem setMov_time (k : Nat) (m : Mov) : (setMov s k m).time = s.time := rfl
@[simp] theorem setMov_timeOn (k : Nat) (m : Mov) : (setMov s k m).timeOn = s.timeOn := rfl
@[simp] theorem setMov_slew (k : Nat) (m : Mov) : (setMov s k m).slew = s.slew := rfl
@[simp] theorem setMov_pending (k : Nat) (m : Mov) : (setMov s k m).pending = s.pending := rfl
@[simp] theorem setMov_free (k : Nat) (m : Mov) : (setMov s k m).free = s.free := rfl
@[simp] theorem setMov_rdata (k : Nat) (m : Mov) : (setMov s k m).rdata = s.rdata := rfl
@[simp] theorem setMov_regs (k : Nat) (m : Mov) : (setMov s k m).regs = s.regs := rfl
@[simp] theorem setMov_applied (k : Nat) (m : Mov) : (setMov s k m).applied = s.applied := rfl
@[simp] theorem setMov_hi (k : Nat) (m : Mov) : (setMov s k m).hi = s.hi := rfl
@[simp] theorem setMov_commits (k : Nat) (m : Mov) : (setMov s k m).commits = s.commits := rfl
@[simp] theorem setMov_tone (k : Nat) (m : Mov) : (setMov s k m).tone = s.tone := rfl
@[simp] theorem setMov_irqCtx (k : Nat) (m : Mov) : (setMov s k m).irqCtx = s.irqCtx := rfl
@[simp] theorem setMov_absent (k : Nat) (m : Mov) : (setMov s k m).absent = s.absent := rfl
@[simp] theorem setMov_stackGiB (k : Nat) (m : Mov) : (setMov s k m).stackGiB = s.stackGiB := rfl
@[simp] theorem setMov_hbm (k : Nat) (m : Mov) : (setMov s k m).hbm = s.hbm := rfl
@[simp] theorem setMov_host (k : Nat) (m : Mov) : (setMov s k m).host = s.host := rfl
@[simp] theorem setMov_tile (k : Nat) (m : Mov) : (setMov s k m).tile = s.tile := rfl
@[simp] theorem setMov_spad (k : Nat) (m : Mov) : (setMov s k m).spad = s.spad := rfl
@[simp] theorem setMov_lane (k : Nat) (m : Mov) : (setMov s k m).lane = s.lane := rfl
@[simp] theorem setMov_hbmUe (k : Nat) (m : Mov) : (setMov s k m).hbmUe = s.hbmUe := rfl
@[simp] theorem setMov_spadUe (k : Nat) (m : Mov) : (setMov s k m).spadUe = s.spadUe := rfl
@[simp] theorem setMov_tileUe (k : Nat) (m : Mov) : (setMov s k m).tileUe = s.tileUe := rfl
@[simp] theorem setMov_clearing (k : Nat) (m : Mov) : (setMov s k m).clearing = s.clearing := rfl
@[simp] theorem setMov_cmdw (k : Nat) (m : Mov) : (setMov s k m).cmdw = s.cmdw := rfl
@[simp] theorem setMov_dlog (k : Nat) (m : Mov) : (setMov s k m).dlog = s.dlog := rfl
@[simp] theorem setMov_msix (k : Nat) (m : Mov) : (setMov s k m).msix = s.msix := rfl
@[simp] theorem setMov_graphs (k : Nat) (m : Mov) : (setMov s k m).graphs = s.graphs := rfl
@[simp] theorem setMov_hampers (k : Nat) (m : Mov) : (setMov s k m).hampers = s.hampers := rfl
@[simp] theorem setMov_units (k : Nat) (m : Mov) : (setMov s k m).units = s.units := rfl
@[simp] theorem setMov_fifos (k : Nat) (m : Mov) : (setMov s k m).fifos = s.fifos := rfl
@[simp] theorem setMov_collector (k : Nat) (m : Mov) : (setMov s k m).collector = s.collector := rfl
@[simp] theorem setMov_ages (k : Nat) (m : Mov) : (setMov s k m).ages = s.ages := rfl
@[simp] theorem setMov_ladles (k : Nat) (m : Mov) : (setMov s k m).ladles = s.ladles := rfl
@[simp] theorem setMov_cams (k : Nat) (m : Mov) : (setMov s k m).cams = s.cams := rfl
@[simp] theorem setMov_sctl (k : Nat) (m : Mov) : (setMov s k m).sctl = s.sctl := rfl
@[simp] theorem setMov_fsync (k : Nat) (m : Mov) : (setMov s k m).fsync = s.fsync := rfl
@[simp] theorem setMov_rpl (k : Nat) (m : Mov) : (setMov s k m).rpl = s.rpl := rfl
@[simp] theorem setMov_safe (k : Nat) (m : Mov) : (setMov s k m).safe = s.safe := rfl
@[simp] theorem setMov_dbg (k : Nat) (m : Mov) : (setMov s k m).dbg = s.dbg := rfl
@[simp] theorem setMov_movers (k : Nat) (m : Mov) : (setMov s k m).movers = tset (fun _ => {}) s.movers k m := rfl
@[simp] theorem setMov_rolv (k : Nat) (m : Mov) : (setMov s k m).rolv = s.rolv := rfl
@[simp] theorem setMov_cores (k : Nat) (m : Mov) : (setMov s k m).cores = s.cores := rfl
@[simp] theorem setMov_fms (k : Nat) (m : Mov) : (setMov s k m).fms = s.fms := rfl
@[simp] theorem setMov_ringSigs (k : Nat) (m : Mov) : (setMov s k m).ringSigs = s.ringSigs := rfl
@[simp] theorem setMov_hbmRec (k : Nat) (m : Mov) : (setMov s k m).hbmRec = s.hbmRec := rfl
@[simp] theorem setMov_invs (k : Nat) (m : Mov) : (setMov s k m).invs = s.invs := rfl
@[simp] theorem setMov_nocBad (k : Nat) (m : Mov) : (setMov s k m).nocBad = s.nocBad := rfl
@[simp] theorem setMov_actor (k : Nat) (m : Mov) : (setMov s k m).actor = s.actor := rfl
@[simp] theorem setMov_pwr (k : Nat) (m : Mov) : (setMov s k m).pwr = s.pwr := rfl
@[simp] theorem setMov_boot (k : Nat) (m : Mov) : (setMov s k m).boot = s.boot := rfl
@[simp] theorem setMov_bar2 (k : Nat) (m : Mov) : (setMov s k m).bar2 = s.bar2 := rfl

/-! ## setDlog -/

@[simp] theorem setDlog_time (p : Nat) (d : Dlog) : (setDlog s p d).time = s.time := rfl
@[simp] theorem setDlog_timeOn (p : Nat) (d : Dlog) : (setDlog s p d).timeOn = s.timeOn := rfl
@[simp] theorem setDlog_slew (p : Nat) (d : Dlog) : (setDlog s p d).slew = s.slew := rfl
@[simp] theorem setDlog_pending (p : Nat) (d : Dlog) : (setDlog s p d).pending = s.pending := rfl
@[simp] theorem setDlog_free (p : Nat) (d : Dlog) : (setDlog s p d).free = s.free := rfl
@[simp] theorem setDlog_rdata (p : Nat) (d : Dlog) : (setDlog s p d).rdata = s.rdata := rfl
@[simp] theorem setDlog_regs (p : Nat) (d : Dlog) : (setDlog s p d).regs = s.regs := rfl
@[simp] theorem setDlog_applied (p : Nat) (d : Dlog) : (setDlog s p d).applied = s.applied := rfl
@[simp] theorem setDlog_hi (p : Nat) (d : Dlog) : (setDlog s p d).hi = s.hi := rfl
@[simp] theorem setDlog_commits (p : Nat) (d : Dlog) : (setDlog s p d).commits = s.commits := rfl
@[simp] theorem setDlog_tone (p : Nat) (d : Dlog) : (setDlog s p d).tone = s.tone := rfl
@[simp] theorem setDlog_irqCtx (p : Nat) (d : Dlog) : (setDlog s p d).irqCtx = s.irqCtx := rfl
@[simp] theorem setDlog_absent (p : Nat) (d : Dlog) : (setDlog s p d).absent = s.absent := rfl
@[simp] theorem setDlog_stackGiB (p : Nat) (d : Dlog) : (setDlog s p d).stackGiB = s.stackGiB := rfl
@[simp] theorem setDlog_hbm (p : Nat) (d : Dlog) : (setDlog s p d).hbm = s.hbm := rfl
@[simp] theorem setDlog_host (p : Nat) (d : Dlog) : (setDlog s p d).host = s.host := rfl
@[simp] theorem setDlog_tile (p : Nat) (d : Dlog) : (setDlog s p d).tile = s.tile := rfl
@[simp] theorem setDlog_spad (p : Nat) (d : Dlog) : (setDlog s p d).spad = s.spad := rfl
@[simp] theorem setDlog_lane (p : Nat) (d : Dlog) : (setDlog s p d).lane = s.lane := rfl
@[simp] theorem setDlog_hbmUe (p : Nat) (d : Dlog) : (setDlog s p d).hbmUe = s.hbmUe := rfl
@[simp] theorem setDlog_spadUe (p : Nat) (d : Dlog) : (setDlog s p d).spadUe = s.spadUe := rfl
@[simp] theorem setDlog_tileUe (p : Nat) (d : Dlog) : (setDlog s p d).tileUe = s.tileUe := rfl
@[simp] theorem setDlog_clearing (p : Nat) (d : Dlog) : (setDlog s p d).clearing = s.clearing := rfl
@[simp] theorem setDlog_cmdw (p : Nat) (d : Dlog) : (setDlog s p d).cmdw = s.cmdw := rfl
@[simp] theorem setDlog_dlog (p : Nat) (d : Dlog) : (setDlog s p d).dlog = tset (fun _ => {}) s.dlog p d := rfl
@[simp] theorem setDlog_msix (p : Nat) (d : Dlog) : (setDlog s p d).msix = s.msix := rfl
@[simp] theorem setDlog_graphs (p : Nat) (d : Dlog) : (setDlog s p d).graphs = s.graphs := rfl
@[simp] theorem setDlog_hampers (p : Nat) (d : Dlog) : (setDlog s p d).hampers = s.hampers := rfl
@[simp] theorem setDlog_units (p : Nat) (d : Dlog) : (setDlog s p d).units = s.units := rfl
@[simp] theorem setDlog_fifos (p : Nat) (d : Dlog) : (setDlog s p d).fifos = s.fifos := rfl
@[simp] theorem setDlog_collector (p : Nat) (d : Dlog) : (setDlog s p d).collector = s.collector := rfl
@[simp] theorem setDlog_ages (p : Nat) (d : Dlog) : (setDlog s p d).ages = s.ages := rfl
@[simp] theorem setDlog_ladles (p : Nat) (d : Dlog) : (setDlog s p d).ladles = s.ladles := rfl
@[simp] theorem setDlog_cams (p : Nat) (d : Dlog) : (setDlog s p d).cams = s.cams := rfl
@[simp] theorem setDlog_sctl (p : Nat) (d : Dlog) : (setDlog s p d).sctl = s.sctl := rfl
@[simp] theorem setDlog_fsync (p : Nat) (d : Dlog) : (setDlog s p d).fsync = s.fsync := rfl
@[simp] theorem setDlog_rpl (p : Nat) (d : Dlog) : (setDlog s p d).rpl = s.rpl := rfl
@[simp] theorem setDlog_safe (p : Nat) (d : Dlog) : (setDlog s p d).safe = s.safe := rfl
@[simp] theorem setDlog_dbg (p : Nat) (d : Dlog) : (setDlog s p d).dbg = s.dbg := rfl
@[simp] theorem setDlog_movers (p : Nat) (d : Dlog) : (setDlog s p d).movers = s.movers := rfl
@[simp] theorem setDlog_flights (p : Nat) (d : Dlog) : (setDlog s p d).flights = s.flights := rfl
@[simp] theorem setDlog_rolv (p : Nat) (d : Dlog) : (setDlog s p d).rolv = s.rolv := rfl
@[simp] theorem setDlog_cores (p : Nat) (d : Dlog) : (setDlog s p d).cores = s.cores := rfl
@[simp] theorem setDlog_fms (p : Nat) (d : Dlog) : (setDlog s p d).fms = s.fms := rfl
@[simp] theorem setDlog_ringSigs (p : Nat) (d : Dlog) : (setDlog s p d).ringSigs = s.ringSigs := rfl
@[simp] theorem setDlog_hbmRec (p : Nat) (d : Dlog) : (setDlog s p d).hbmRec = s.hbmRec := rfl
@[simp] theorem setDlog_invs (p : Nat) (d : Dlog) : (setDlog s p d).invs = s.invs := rfl
@[simp] theorem setDlog_nocBad (p : Nat) (d : Dlog) : (setDlog s p d).nocBad = s.nocBad := rfl
@[simp] theorem setDlog_actor (p : Nat) (d : Dlog) : (setDlog s p d).actor = s.actor := rfl
@[simp] theorem setDlog_pwr (p : Nat) (d : Dlog) : (setDlog s p d).pwr = s.pwr := rfl
@[simp] theorem setDlog_boot (p : Nat) (d : Dlog) : (setDlog s p d).boot = s.boot := rfl
@[simp] theorem setDlog_bar2 (p : Nat) (d : Dlog) : (setDlog s p d).bar2 = s.bar2 := rfl

/-! ## setPwr -/

@[simp] theorem setPwr_time (w : Pwr) : (setPwr s w).time = s.time := rfl
@[simp] theorem setPwr_timeOn (w : Pwr) : (setPwr s w).timeOn = s.timeOn := rfl
@[simp] theorem setPwr_slew (w : Pwr) : (setPwr s w).slew = s.slew := rfl
@[simp] theorem setPwr_pending (w : Pwr) : (setPwr s w).pending = s.pending := rfl
@[simp] theorem setPwr_free (w : Pwr) : (setPwr s w).free = s.free := rfl
@[simp] theorem setPwr_rdata (w : Pwr) : (setPwr s w).rdata = s.rdata := rfl
@[simp] theorem setPwr_regs (w : Pwr) : (setPwr s w).regs = s.regs := rfl
@[simp] theorem setPwr_applied (w : Pwr) : (setPwr s w).applied = s.applied := rfl
@[simp] theorem setPwr_hi (w : Pwr) : (setPwr s w).hi = s.hi := rfl
@[simp] theorem setPwr_commits (w : Pwr) : (setPwr s w).commits = s.commits := rfl
@[simp] theorem setPwr_tone (w : Pwr) : (setPwr s w).tone = s.tone := rfl
@[simp] theorem setPwr_irqCtx (w : Pwr) : (setPwr s w).irqCtx = s.irqCtx := rfl
@[simp] theorem setPwr_absent (w : Pwr) : (setPwr s w).absent = s.absent := rfl
@[simp] theorem setPwr_stackGiB (w : Pwr) : (setPwr s w).stackGiB = s.stackGiB := rfl
@[simp] theorem setPwr_hbm (w : Pwr) : (setPwr s w).hbm = s.hbm := rfl
@[simp] theorem setPwr_host (w : Pwr) : (setPwr s w).host = s.host := rfl
@[simp] theorem setPwr_tile (w : Pwr) : (setPwr s w).tile = s.tile := rfl
@[simp] theorem setPwr_spad (w : Pwr) : (setPwr s w).spad = s.spad := rfl
@[simp] theorem setPwr_lane (w : Pwr) : (setPwr s w).lane = s.lane := rfl
@[simp] theorem setPwr_hbmUe (w : Pwr) : (setPwr s w).hbmUe = s.hbmUe := rfl
@[simp] theorem setPwr_spadUe (w : Pwr) : (setPwr s w).spadUe = s.spadUe := rfl
@[simp] theorem setPwr_tileUe (w : Pwr) : (setPwr s w).tileUe = s.tileUe := rfl
@[simp] theorem setPwr_clearing (w : Pwr) : (setPwr s w).clearing = s.clearing := rfl
@[simp] theorem setPwr_cmdw (w : Pwr) : (setPwr s w).cmdw = s.cmdw := rfl
@[simp] theorem setPwr_dlog (w : Pwr) : (setPwr s w).dlog = s.dlog := rfl
@[simp] theorem setPwr_msix (w : Pwr) : (setPwr s w).msix = s.msix := rfl
@[simp] theorem setPwr_graphs (w : Pwr) : (setPwr s w).graphs = s.graphs := rfl
@[simp] theorem setPwr_hampers (w : Pwr) : (setPwr s w).hampers = s.hampers := rfl
@[simp] theorem setPwr_units (w : Pwr) : (setPwr s w).units = s.units := rfl
@[simp] theorem setPwr_fifos (w : Pwr) : (setPwr s w).fifos = s.fifos := rfl
@[simp] theorem setPwr_collector (w : Pwr) : (setPwr s w).collector = s.collector := rfl
@[simp] theorem setPwr_ages (w : Pwr) : (setPwr s w).ages = s.ages := rfl
@[simp] theorem setPwr_ladles (w : Pwr) : (setPwr s w).ladles = s.ladles := rfl
@[simp] theorem setPwr_cams (w : Pwr) : (setPwr s w).cams = s.cams := rfl
@[simp] theorem setPwr_sctl (w : Pwr) : (setPwr s w).sctl = s.sctl := rfl
@[simp] theorem setPwr_fsync (w : Pwr) : (setPwr s w).fsync = s.fsync := rfl
@[simp] theorem setPwr_rpl (w : Pwr) : (setPwr s w).rpl = s.rpl := rfl
@[simp] theorem setPwr_safe (w : Pwr) : (setPwr s w).safe = s.safe := rfl
@[simp] theorem setPwr_dbg (w : Pwr) : (setPwr s w).dbg = s.dbg := rfl
@[simp] theorem setPwr_movers (w : Pwr) : (setPwr s w).movers = s.movers := rfl
@[simp] theorem setPwr_flights (w : Pwr) : (setPwr s w).flights = s.flights := rfl
@[simp] theorem setPwr_rolv (w : Pwr) : (setPwr s w).rolv = s.rolv := rfl
@[simp] theorem setPwr_cores (w : Pwr) : (setPwr s w).cores = s.cores := rfl
@[simp] theorem setPwr_fms (w : Pwr) : (setPwr s w).fms = s.fms := rfl
@[simp] theorem setPwr_ringSigs (w : Pwr) : (setPwr s w).ringSigs = s.ringSigs := rfl
@[simp] theorem setPwr_hbmRec (w : Pwr) : (setPwr s w).hbmRec = s.hbmRec := rfl
@[simp] theorem setPwr_invs (w : Pwr) : (setPwr s w).invs = s.invs := rfl
@[simp] theorem setPwr_nocBad (w : Pwr) : (setPwr s w).nocBad = s.nocBad := rfl
@[simp] theorem setPwr_actor (w : Pwr) : (setPwr s w).actor = s.actor := rfl
@[simp] theorem setPwr_pwr (w : Pwr) : (setPwr s w).pwr = w := rfl
@[simp] theorem setPwr_boot (w : Pwr) : (setPwr s w).boot = s.boot := rfl
@[simp] theorem setPwr_bar2 (w : Pwr) : (setPwr s w).bar2 = s.bar2 := rfl

/-! ## setDbg -/

@[simp] theorem setDbg_time (d : Dbg) : (setDbg s d).time = s.time := rfl
@[simp] theorem setDbg_timeOn (d : Dbg) : (setDbg s d).timeOn = s.timeOn := rfl
@[simp] theorem setDbg_slew (d : Dbg) : (setDbg s d).slew = s.slew := rfl
@[simp] theorem setDbg_pending (d : Dbg) : (setDbg s d).pending = s.pending := rfl
@[simp] theorem setDbg_free (d : Dbg) : (setDbg s d).free = s.free := rfl
@[simp] theorem setDbg_rdata (d : Dbg) : (setDbg s d).rdata = s.rdata := rfl
@[simp] theorem setDbg_regs (d : Dbg) : (setDbg s d).regs = s.regs := rfl
@[simp] theorem setDbg_applied (d : Dbg) : (setDbg s d).applied = s.applied := rfl
@[simp] theorem setDbg_hi (d : Dbg) : (setDbg s d).hi = s.hi := rfl
@[simp] theorem setDbg_commits (d : Dbg) : (setDbg s d).commits = s.commits := rfl
@[simp] theorem setDbg_tone (d : Dbg) : (setDbg s d).tone = s.tone := rfl
@[simp] theorem setDbg_irqCtx (d : Dbg) : (setDbg s d).irqCtx = s.irqCtx := rfl
@[simp] theorem setDbg_absent (d : Dbg) : (setDbg s d).absent = s.absent := rfl
@[simp] theorem setDbg_stackGiB (d : Dbg) : (setDbg s d).stackGiB = s.stackGiB := rfl
@[simp] theorem setDbg_hbm (d : Dbg) : (setDbg s d).hbm = s.hbm := rfl
@[simp] theorem setDbg_host (d : Dbg) : (setDbg s d).host = s.host := rfl
@[simp] theorem setDbg_tile (d : Dbg) : (setDbg s d).tile = s.tile := rfl
@[simp] theorem setDbg_spad (d : Dbg) : (setDbg s d).spad = s.spad := rfl
@[simp] theorem setDbg_lane (d : Dbg) : (setDbg s d).lane = s.lane := rfl
@[simp] theorem setDbg_hbmUe (d : Dbg) : (setDbg s d).hbmUe = s.hbmUe := rfl
@[simp] theorem setDbg_spadUe (d : Dbg) : (setDbg s d).spadUe = s.spadUe := rfl
@[simp] theorem setDbg_tileUe (d : Dbg) : (setDbg s d).tileUe = s.tileUe := rfl
@[simp] theorem setDbg_clearing (d : Dbg) : (setDbg s d).clearing = s.clearing := rfl
@[simp] theorem setDbg_cmdw (d : Dbg) : (setDbg s d).cmdw = s.cmdw := rfl
@[simp] theorem setDbg_dlog (d : Dbg) : (setDbg s d).dlog = s.dlog := rfl
@[simp] theorem setDbg_msix (d : Dbg) : (setDbg s d).msix = s.msix := rfl
@[simp] theorem setDbg_graphs (d : Dbg) : (setDbg s d).graphs = s.graphs := rfl
@[simp] theorem setDbg_hampers (d : Dbg) : (setDbg s d).hampers = s.hampers := rfl
@[simp] theorem setDbg_units (d : Dbg) : (setDbg s d).units = s.units := rfl
@[simp] theorem setDbg_fifos (d : Dbg) : (setDbg s d).fifos = s.fifos := rfl
@[simp] theorem setDbg_collector (d : Dbg) : (setDbg s d).collector = s.collector := rfl
@[simp] theorem setDbg_ages (d : Dbg) : (setDbg s d).ages = s.ages := rfl
@[simp] theorem setDbg_ladles (d : Dbg) : (setDbg s d).ladles = s.ladles := rfl
@[simp] theorem setDbg_cams (d : Dbg) : (setDbg s d).cams = s.cams := rfl
@[simp] theorem setDbg_sctl (d : Dbg) : (setDbg s d).sctl = s.sctl := rfl
@[simp] theorem setDbg_fsync (d : Dbg) : (setDbg s d).fsync = s.fsync := rfl
@[simp] theorem setDbg_rpl (d : Dbg) : (setDbg s d).rpl = s.rpl := rfl
@[simp] theorem setDbg_safe (d : Dbg) : (setDbg s d).safe = s.safe := rfl
@[simp] theorem setDbg_dbg (d : Dbg) : (setDbg s d).dbg = d := rfl
@[simp] theorem setDbg_movers (d : Dbg) : (setDbg s d).movers = s.movers := rfl
@[simp] theorem setDbg_flights (d : Dbg) : (setDbg s d).flights = s.flights := rfl
@[simp] theorem setDbg_rolv (d : Dbg) : (setDbg s d).rolv = s.rolv := rfl
@[simp] theorem setDbg_cores (d : Dbg) : (setDbg s d).cores = s.cores := rfl
@[simp] theorem setDbg_fms (d : Dbg) : (setDbg s d).fms = s.fms := rfl
@[simp] theorem setDbg_ringSigs (d : Dbg) : (setDbg s d).ringSigs = s.ringSigs := rfl
@[simp] theorem setDbg_hbmRec (d : Dbg) : (setDbg s d).hbmRec = s.hbmRec := rfl
@[simp] theorem setDbg_invs (d : Dbg) : (setDbg s d).invs = s.invs := rfl
@[simp] theorem setDbg_nocBad (d : Dbg) : (setDbg s d).nocBad = s.nocBad := rfl
@[simp] theorem setDbg_actor (d : Dbg) : (setDbg s d).actor = s.actor := rfl
@[simp] theorem setDbg_pwr (d : Dbg) : (setDbg s d).pwr = s.pwr := rfl
@[simp] theorem setDbg_boot (d : Dbg) : (setDbg s d).boot = s.boot := rfl
@[simp] theorem setDbg_bar2 (d : Dbg) : (setDbg s d).bar2 = s.bar2 := rfl

/-! ## setBoot -/

@[simp] theorem setBoot_time (d : Boot) : (setBoot s d).time = s.time := rfl
@[simp] theorem setBoot_timeOn (d : Boot) : (setBoot s d).timeOn = s.timeOn := rfl
@[simp] theorem setBoot_slew (d : Boot) : (setBoot s d).slew = s.slew := rfl
@[simp] theorem setBoot_pending (d : Boot) : (setBoot s d).pending = s.pending := rfl
@[simp] theorem setBoot_free (d : Boot) : (setBoot s d).free = s.free := rfl
@[simp] theorem setBoot_rdata (d : Boot) : (setBoot s d).rdata = s.rdata := rfl
@[simp] theorem setBoot_regs (d : Boot) : (setBoot s d).regs = s.regs := rfl
@[simp] theorem setBoot_applied (d : Boot) : (setBoot s d).applied = s.applied := rfl
@[simp] theorem setBoot_hi (d : Boot) : (setBoot s d).hi = s.hi := rfl
@[simp] theorem setBoot_commits (d : Boot) : (setBoot s d).commits = s.commits := rfl
@[simp] theorem setBoot_tone (d : Boot) : (setBoot s d).tone = s.tone := rfl
@[simp] theorem setBoot_irqCtx (d : Boot) : (setBoot s d).irqCtx = s.irqCtx := rfl
@[simp] theorem setBoot_absent (d : Boot) : (setBoot s d).absent = s.absent := rfl
@[simp] theorem setBoot_stackGiB (d : Boot) : (setBoot s d).stackGiB = s.stackGiB := rfl
@[simp] theorem setBoot_hbm (d : Boot) : (setBoot s d).hbm = s.hbm := rfl
@[simp] theorem setBoot_host (d : Boot) : (setBoot s d).host = s.host := rfl
@[simp] theorem setBoot_tile (d : Boot) : (setBoot s d).tile = s.tile := rfl
@[simp] theorem setBoot_spad (d : Boot) : (setBoot s d).spad = s.spad := rfl
@[simp] theorem setBoot_lane (d : Boot) : (setBoot s d).lane = s.lane := rfl
@[simp] theorem setBoot_hbmUe (d : Boot) : (setBoot s d).hbmUe = s.hbmUe := rfl
@[simp] theorem setBoot_spadUe (d : Boot) : (setBoot s d).spadUe = s.spadUe := rfl
@[simp] theorem setBoot_tileUe (d : Boot) : (setBoot s d).tileUe = s.tileUe := rfl
@[simp] theorem setBoot_clearing (d : Boot) : (setBoot s d).clearing = s.clearing := rfl
@[simp] theorem setBoot_cmdw (d : Boot) : (setBoot s d).cmdw = s.cmdw := rfl
@[simp] theorem setBoot_dlog (d : Boot) : (setBoot s d).dlog = s.dlog := rfl
@[simp] theorem setBoot_msix (d : Boot) : (setBoot s d).msix = s.msix := rfl
@[simp] theorem setBoot_graphs (d : Boot) : (setBoot s d).graphs = s.graphs := rfl
@[simp] theorem setBoot_hampers (d : Boot) : (setBoot s d).hampers = s.hampers := rfl
@[simp] theorem setBoot_units (d : Boot) : (setBoot s d).units = s.units := rfl
@[simp] theorem setBoot_fifos (d : Boot) : (setBoot s d).fifos = s.fifos := rfl
@[simp] theorem setBoot_collector (d : Boot) : (setBoot s d).collector = s.collector := rfl
@[simp] theorem setBoot_ages (d : Boot) : (setBoot s d).ages = s.ages := rfl
@[simp] theorem setBoot_ladles (d : Boot) : (setBoot s d).ladles = s.ladles := rfl
@[simp] theorem setBoot_cams (d : Boot) : (setBoot s d).cams = s.cams := rfl
@[simp] theorem setBoot_sctl (d : Boot) : (setBoot s d).sctl = s.sctl := rfl
@[simp] theorem setBoot_fsync (d : Boot) : (setBoot s d).fsync = s.fsync := rfl
@[simp] theorem setBoot_rpl (d : Boot) : (setBoot s d).rpl = s.rpl := rfl
@[simp] theorem setBoot_safe (d : Boot) : (setBoot s d).safe = s.safe := rfl
@[simp] theorem setBoot_dbg (d : Boot) : (setBoot s d).dbg = s.dbg := rfl
@[simp] theorem setBoot_movers (d : Boot) : (setBoot s d).movers = s.movers := rfl
@[simp] theorem setBoot_flights (d : Boot) : (setBoot s d).flights = s.flights := rfl
@[simp] theorem setBoot_rolv (d : Boot) : (setBoot s d).rolv = s.rolv := rfl
@[simp] theorem setBoot_cores (d : Boot) : (setBoot s d).cores = s.cores := rfl
@[simp] theorem setBoot_fms (d : Boot) : (setBoot s d).fms = s.fms := rfl
@[simp] theorem setBoot_ringSigs (d : Boot) : (setBoot s d).ringSigs = s.ringSigs := rfl
@[simp] theorem setBoot_hbmRec (d : Boot) : (setBoot s d).hbmRec = s.hbmRec := rfl
@[simp] theorem setBoot_invs (d : Boot) : (setBoot s d).invs = s.invs := rfl
@[simp] theorem setBoot_nocBad (d : Boot) : (setBoot s d).nocBad = s.nocBad := rfl
@[simp] theorem setBoot_actor (d : Boot) : (setBoot s d).actor = s.actor := rfl
@[simp] theorem setBoot_pwr (d : Boot) : (setBoot s d).pwr = s.pwr := rfl
@[simp] theorem setBoot_boot (d : Boot) : (setBoot s d).boot = d := rfl
@[simp] theorem setBoot_bar2 (d : Boot) : (setBoot s d).bar2 = s.bar2 := rfl

/-! ## drawn -/

@[simp] theorem drawn_time : (drawn s).time = s.time := rfl
@[simp] theorem drawn_timeOn : (drawn s).timeOn = s.timeOn := rfl
@[simp] theorem drawn_slew : (drawn s).slew = s.slew := rfl
@[simp] theorem drawn_pending : (drawn s).pending = s.pending := rfl
@[simp] theorem drawn_free : (drawn s).free = s.free + 1 := rfl
@[simp] theorem drawn_rdata : (drawn s).rdata = s.rdata := rfl
@[simp] theorem drawn_regs : (drawn s).regs = s.regs := rfl
@[simp] theorem drawn_applied : (drawn s).applied = s.applied := rfl
@[simp] theorem drawn_hi : (drawn s).hi = s.hi := rfl
@[simp] theorem drawn_commits : (drawn s).commits = s.commits := rfl
@[simp] theorem drawn_tone : (drawn s).tone = s.tone := rfl
@[simp] theorem drawn_irqCtx : (drawn s).irqCtx = s.irqCtx := rfl
@[simp] theorem drawn_absent : (drawn s).absent = s.absent := rfl
@[simp] theorem drawn_stackGiB : (drawn s).stackGiB = s.stackGiB := rfl
@[simp] theorem drawn_hbm : (drawn s).hbm = s.hbm := rfl
@[simp] theorem drawn_host : (drawn s).host = s.host := rfl
@[simp] theorem drawn_tile : (drawn s).tile = s.tile := rfl
@[simp] theorem drawn_spad : (drawn s).spad = s.spad := rfl
@[simp] theorem drawn_lane : (drawn s).lane = s.lane := rfl
@[simp] theorem drawn_hbmUe : (drawn s).hbmUe = s.hbmUe := rfl
@[simp] theorem drawn_spadUe : (drawn s).spadUe = s.spadUe := rfl
@[simp] theorem drawn_tileUe : (drawn s).tileUe = s.tileUe := rfl
@[simp] theorem drawn_clearing : (drawn s).clearing = s.clearing := rfl
@[simp] theorem drawn_cmdw : (drawn s).cmdw = s.cmdw := rfl
@[simp] theorem drawn_dlog : (drawn s).dlog = s.dlog := rfl
@[simp] theorem drawn_msix : (drawn s).msix = s.msix := rfl
@[simp] theorem drawn_graphs : (drawn s).graphs = s.graphs := rfl
@[simp] theorem drawn_hampers : (drawn s).hampers = s.hampers := rfl
@[simp] theorem drawn_units : (drawn s).units = s.units := rfl
@[simp] theorem drawn_fifos : (drawn s).fifos = s.fifos := rfl
@[simp] theorem drawn_collector : (drawn s).collector = s.collector := rfl
@[simp] theorem drawn_ages : (drawn s).ages = s.ages := rfl
@[simp] theorem drawn_ladles : (drawn s).ladles = s.ladles := rfl
@[simp] theorem drawn_cams : (drawn s).cams = s.cams := rfl
@[simp] theorem drawn_sctl : (drawn s).sctl = s.sctl := rfl
@[simp] theorem drawn_fsync : (drawn s).fsync = s.fsync := rfl
@[simp] theorem drawn_rpl : (drawn s).rpl = s.rpl := rfl
@[simp] theorem drawn_safe : (drawn s).safe = s.safe := rfl
@[simp] theorem drawn_dbg : (drawn s).dbg = s.dbg := rfl
@[simp] theorem drawn_movers : (drawn s).movers = s.movers := rfl
@[simp] theorem drawn_flights : (drawn s).flights = s.flights := rfl
@[simp] theorem drawn_rolv : (drawn s).rolv = s.rolv := rfl
@[simp] theorem drawn_cores : (drawn s).cores = s.cores := rfl
@[simp] theorem drawn_fms : (drawn s).fms = s.fms := rfl
@[simp] theorem drawn_ringSigs : (drawn s).ringSigs = s.ringSigs := rfl
@[simp] theorem drawn_hbmRec : (drawn s).hbmRec = s.hbmRec := rfl
@[simp] theorem drawn_invs : (drawn s).invs = s.invs := rfl
@[simp] theorem drawn_nocBad : (drawn s).nocBad = s.nocBad := rfl
@[simp] theorem drawn_actor : (drawn s).actor = s.actor := rfl
@[simp] theorem drawn_pwr : (drawn s).pwr = s.pwr := rfl
@[simp] theorem drawn_boot : (drawn s).boot = s.boot := rfl
@[simp] theorem drawn_bar2 : (drawn s).bar2 = s.bar2 := rfl

end Sys2Proof.Machine
end

