-- ==== Sys2Proof/Laws/Ops.lean ====
section
/-! SUPPORT. What the shared operations can do, said once: reads after writes of registers and tables, the reach of interrupts, errors and
counters, and the form of every command. -/

namespace Sys2Proof.Machine
open Sys2Proof

/-! ## Registers -/

/-- A register reads the value last set. -/
theorem reg_setReg_same {s : State} (h : twf regRst s.regs = true) (a : Nat) (v : Word) : reg (setReg s a v) a = v :=
  tget_tset_same regRst a v h

/-- Every other register reads as before. -/
theorem reg_setReg_other {s : State} (h : twf regRst s.regs = true) {a j : Nat} (hj : j ≠ a) (v : Word) : reg (setReg s a v) j = reg s j :=
  tget_tset_other regRst a j v hj h

/-- Setting a register keeps the canonical form. -/
theorem setReg_wf {s : State} (h : twf regRst s.regs = true) (a : Nat) (v : Word) : twf regRst (setReg s a v).regs = true := twf_tset regRst a v h

/-- A register set to a number reads its low 32 bits. -/
theorem regN_setRegN_same {s : State} (h : twf regRst s.regs = true) (a n : Nat) : regN (setRegN s a n) a = n % 2 ^ 32 := by
  simp [regN, setRegN, reg_setReg_same h]

/-- Every other register reads as before, as a number. -/
theorem regN_setRegN_other {s : State} (h : twf regRst s.regs = true) {a j : Nat} (hj : j ≠ a) (n : Nat) : regN (setRegN s a n) j = regN s j := by
  simp [regN, setRegN, reg_setReg_other h hj]

/-- Setting a register to a number keeps the canonical form. -/
theorem setRegN_wf {s : State} (h : twf regRst s.regs = true) (a n : Nat) : twf regRst (setRegN s a n).regs = true := setReg_wf h a _

/-- Bits set in a register read as set, the others as before. -/
theorem regN_orReg {s : State} (h : twf regRst s.regs = true) (a m : Nat) : regN (orReg s a m) a = (regN s a ||| m) % 2 ^ 32 := regN_setRegN_same h a _

/-- Bits cleared in a register read 0, the others as before. -/
theorem reg_clrReg {s : State} (h : twf regRst s.regs = true) (a m : Nat) : reg (clrReg s a m) a = reg s a &&& ~~~ BitVec.ofNat 32 m :=
  reg_setReg_same h a _

/-- A pair of registers set to a number below 2^64 reads it. -/
theorem reg64_setReg64 {s : State} (h : twf regRst s.regs = true) {lo hi : Nat} (hn : lo ≠ hi) (n : Nat) (hv : n < 2 ^ 64) :
    reg64 (setReg64 s lo hi n) lo hi = n := by
  simp only [reg64, setReg64, regN_setRegN_same (setRegN_wf h lo n), regN_setRegN_other (setRegN_wf h lo n) hn, regN_setRegN_same h]
  omega

/-! ## Tables of units -/

/-- A graph slot reads what was put there. -/
theorem graphAt_setGraph_same {s : State} (h : twf (fun _ => ({} : Graph)) s.graphs = true) (g : Nat) (x : Graph) : graphAt (setGraph s g x) g = x :=
  tget_tset_same _ g x h

/-- Every other graph slot reads as before. -/
theorem graphAt_setGraph_other {s : State} (h : twf (fun _ => ({} : Graph)) s.graphs = true) {g j : Nat} (hj : j ≠ g) (x : Graph) :
    graphAt (setGraph s g x) j = graphAt s j := tget_tset_other _ g j x hj h

/-- A unit reads what was put there. -/
theorem unitAt_setUnit_same {s : State} (h : twf (fun _ => ({} : UnitSt)) s.units = true) (b : Blk) (n : Nat) (u : UnitSt) :
    unitAt (setUnit s b n u) b n = u := tget_tset_same _ _ u h

/-- A command window reads what was put there. -/
theorem cmdwAt_setCmdw_same {s : State} (h : twf (fun _ => ({} : Cmdw)) s.cmdw = true) (p : Nat) (c : Cmdw) : cmdwAt (setCmdw s p c) p = c :=
  tget_tset_same _ p c h

/-- Every other command window reads as before. -/
theorem cmdwAt_setCmdw_other {s : State} (h : twf (fun _ => ({} : Cmdw)) s.cmdw = true) {p j : Nat} (hj : j ≠ p) (c : Cmdw) :
    cmdwAt (setCmdw s p c) j = cmdwAt s j := tget_tset_other _ p j c hj h

/-- A stream context reads what was put there. -/
theorem camsAt_setCams_same {s : State} (h : twf (fun _ => ({} : Cams)) s.cams = true) (n : Nat) (c : Cams) : camsAt (setCams s n c) n = c :=
  tget_tset_same _ n c h

/-! ## Interrupts, errors and counters -/

/-- State t is s but for registers, the contexts of interrupts and the list of messages. -/
def IrqOnly (s t : State) : Prop := ∃ r c m, t = { s with
  regs := r
  irqCtx := c
  msix := m }

/-- No change is such a change. -/
theorem irqOnly_refl (s : State) : IrqOnly s s := ⟨s.regs, s.irqCtx, s.msix, rfl⟩

/-- Two such changes are one. -/
theorem irqOnly_trans {s t u : State} (h : IrqOnly s t) (k : IrqOnly t u) : IrqOnly s u := by
  obtain ⟨_, _, _, rfl⟩ := h
  obtain ⟨r, c, m, rfl⟩ := k
  exact ⟨r, c, m, rfl⟩

/-- A message or a pending bit changes no more. -/
theorem sendMsi_irqOnly (s : State) (fn vec : Nat) : IrqOnly s (sendMsi s fn vec) := by
  unfold sendMsi
  split
  · exact ⟨_, s.irqCtx, s.msix, rfl⟩
  · exact ⟨s.regs, s.irqCtx, _, rfl⟩

/-- A delivery changes no more. -/
theorem deliver_irqOnly (s : State) (p : Nat) (b : Blk) : IrqOnly s (deliver s p b) := by
  simp only [deliver]
  split
  · exact irqOnly_refl s
  · exact sendMsi_irqOnly s _ _

/-- An interrupt changes registers, the contexts of interrupts and the list of messages, and nothing else. -/
theorem raiseIrq_irqOnly (s : State) (b : Blk) (n bit : Nat) (ctx : Option Nat) : IrqOnly s (raiseIrq s b n bit ctx) := by
  unfold raiseIrq
  extract_lets a s1 s2
  have h1 : IrqOnly s s1 := ⟨_, s.irqCtx, s.msix, rfl⟩
  have h2 : IrqOnly s s2 := irqOnly_trans h1 ⟨s1.regs, _, s1.msix, rfl⟩
  clear_value s2
  split
  · exact irqOnly_refl s
  · split
    · exact irqOnly_trans h2 (deliver_irqOnly s2 _ b)
    · exact h2

/-- An error changes what an interrupt changes. -/
theorem raiseErr_irqOnly (s : State) (b : Blk) (n bit : Nat) (ctx : Option Nat) : IrqOnly s (raiseErr s b n bit ctx) := by
  unfold raiseErr
  dsimp only
  split
  · exact irqOnly_refl s
  · exact irqOnly_trans ⟨_, s.irqCtx, s.msix, rfl⟩ (raiseIrq_irqOnly _ b n 1 ctx)

/-- A counter's advance changes registers alone. -/
theorem bump_eq (s : State) (a n : Nat) : ∃ r, bump s a n = { s with regs := r } := by
  unfold bump
  split
  · exact ⟨s.regs, rfl⟩
  · exact ⟨_, rfl⟩

/-! ## The form of a command -/

/-- Whatever a state was, its canonical form is canonical. -/
theorem canonical_wf (s : State) : memoriesWf (canonical s) = true ∧ tablesWf (canonical s) = true := by
  have t {α : Type} [DecidableEq α] (d : Nat → α) (l : List (Nat × α)) : twf d (tblOf d l) = true := tblOf_wf d l
  refine ⟨?_, ?_⟩
  · simp only [memoriesWf, canonical, Memory.wf, memOf_wf, Bool.and_self]
  · simp only [tablesWf, canonical, t, Bool.and_self]

/-- The state in which a command takes effect has canonical registers. -/
theorem arrive_wf (dt : Nat) (s : State) : memoriesWf (arrive dt s) = true ∧ tablesWf (arrive dt s) = true := canonical_wf _

/-- A command of a block that is awake: its effect, and what follows in the same instant. -/
theorem act_awake {dt : Nat} {f : State → State} {s : State} (h : Awake (arrive dt s)) : act dt f s = .next (closing s (f (arrive dt s))) := by
  have h' : (arrive dt s).boot.inReset = false := h
  simp only [act, h']
  rfl

/-- A command while RESET_N is low: only its time passes. -/
theorem act_inReset {dt : Nat} {f : State → State} {s : State} (h : (arrive dt s).boot.inReset = true) :
    act dt f s = .next (finish s (arrive dt s)) := by simp [act, h]

/-- A command of the data plane while it works. -/
theorem actLive_works {dt : Nat} {f : State → State} {s : State} (h : Works (arrive dt s)) :
    actLive dt f s = .next (closing s (f (arrive dt s))) := by
  obtain ⟨h1, h2, h3⟩ := h
  simp [actLive, act_awake (show Awake (arrive dt s) from h1), live, h2, h3]

/-- A command of the data plane while it is closed. -/
theorem actLive_closed {dt : Nat} {f : State → State} {s : State} (h : Awake (arrive dt s))
    (hc : isRunning (arrive dt s) = false ∨ isStopped (arrive dt s) = true) : actLive dt f s = .next (closing s (arrive dt s)) := by
  rcases hc with hc | hc <;> simp [actLive, act_awake h, live, hc]

/-- The end of a command puts the queue back. -/
@[simp] theorem finish_pending (s u : State) : (finish s u).pending = s.pending := rfl

/-- The end of a command leaves no actor. -/
@[simp] theorem finish_actor (s u : State) : (finish s u).actor = (0, 0, 0) := rfl

/-- Closing a command puts the queue back. -/
@[simp] theorem closing_pending (s u : State) : (closing s u).pending = s.pending := rfl

/-- The end of a command is canonical. -/
theorem finish_wf (s u : State) : memoriesWf (finish s u) = true ∧ tablesWf (finish s u) = true := canonical_wf u

end Sys2Proof.Machine
end

