-- ==== Sys2Proof/Tests/Slice0.lean ====
section
/-! SUPPORT. The model's own tests: ill-formed commands are refused, each statement's hypotheses are met by a concrete state (witness_…, one
conjunct per clause), and small commands act as the spec says. -/

namespace Sys2Proof.Tests
open Sys2Proof Sys2Proof.Machine

set_option Elab.async false

/-! ## Small states -/

/-- A running block with registers set. -/
def at' (l : List (Nat × Word)) : State := { State.reset with regs := tblOf regRst ((bt 0x100, 2) :: l) }

/-- A running block. -/
def base : State := at' []

/-- Values in a register's applied copy. -/
def applied (l : List (Nat × Word)) (s : State) : State := { s with applied := tblOf regRst l }

/-- A block in which partition 0 sees 2 MiB of HBM from 0x200000 on at address 0, for every use, and bytes there. -/
def mapped (a : Nat) (bytes : List Byte) (s : State) : State :=
  { s with
    applied := tset regRst s.applied (nocPg + 0x100) 0x1001
    hbm := memWrite (memWrite (memWrite (memWrite s.hbm 0x1000 (natLe 8 0x2001)) 0x2000 (natLe 8 0x3001)) 0x3000 (natLe 8 0x20001F)) (0x200000 + a) bytes }

/-- Does a command answer a next state with a property. -/
def leads (c : Instr) (s : State) (f : State → Bool) : Bool := match exec c s with | .next t => f t | _ => false

/-- The test of `writes`. -/
def writesAt (b : State) (who : Who) (a : Nat) : Bool :=
  match locate a with
  | none => false
  | some l => (headerOff l).isNone && (match rowAt l with | some (r, k) => decide (openWrite b who l r k) | none => false)

/-- A test that passes shows that the write reaches its register. -/
theorem writes_of {b : State} {who : Who} {a : Nat} (h : writesAt b who a = true) : writes b who a := by
  unfold writesAt at h
  split at h
  · cases h
  · rename_i l hl
    simp only [Bool.and_eq_true, Option.isNone_iff_eq_none] at h
    obtain ⟨h1, h2⟩ := h
    split at h2
    · rename_i r k hr
      exact ⟨l, r, k, hl, h1, hr, of_decide_eq_true h2⟩
    · cases h2

/-- The image of a graph with one node of a unit type, one flow, one trigger of kind COMMAND with number 3, and one task of 64 bytes at 0x1000. -/
def image1 (ty : Nat) : List Byte :=
  let body := natLe 2 ty ++ List.replicate 4 0 ++ natLe 3 0x1234 ++ [7] ++ natLe 2 5 ++ natLe 2 0 ++ natLe 2 1 ++ natLe 8 0 ++ natLe 8 0 ++
    natLe 2 5 ++ [4, 0] ++ natLe 4 0 ++ natLe 8 0 ++
    natLe 2 5 ++ [3, 0] ++ natLe 2 3 ++ List.replicate 26 0 ++
    natLe 8 0x1000 ++ natLe 4 64 ++ [1] ++ List.replicate 19 0
  let head := natLe 4 0x31534746 ++ natLe 2 1 ++ natLe 2 0 ++ natLe 4 176 ++ natLe 2 1 ++ natLe 2 1 ++ natLe 2 1 ++ natLe 2 1 ++ natLe 4 0 ++
    natLe 8 0 ++ natLe 4 64 ++ natLe 4 176 ++ natLe 4 96 ++ natLe 4 112 ++ natLe 4 144 ++ List.replicate 8 0
  head ++ natLe 4 (crc32 (head ++ natLe 4 0 ++ body)) ++ body

/-- Graph 0 with that image, in a state of its life. -/
def graph1 (ty : Nat) (st : GStat) : Graph := { stat := st, img := readImage (image1 ty), flows := if st = .started then [{}] else [], handle := 1 }

/-- The task of that graph. -/
def ref1 : TRef := ⟨0, 0, 0, 0, 0, 0⟩

/-- That graph started, its task running on unit 0 of its type since it was placed. -/
def running1 (b : Blk) (s : State) : State :=
  { s with
    graphs := [(0, graph1 (blkCode b) .started)]
    hampers := [⟨0, 0, 0, 0, 0, 1, 0, false, false, false, [{ node := 0, idx := 0, copy := 0, at_ := .running (ukey b 0), unit := ukey b 0 + 1 }], []⟩]
    units := tblOf (fun _ => {}) [(ukey b 0, { run := some ref1 })] }

/-- Sixteen words of a submission. -/
def words (l : List Nat) : List Word := (l ++ List.replicate 16 0).take 16 |>.map (BitVec.ofNat 32)

/-! ## Ill-formed commands -/

/-- PF4 does not exist. -/
theorem test_ill_function : Instr.wf (.registerWrite 0 (.pf 4) 0x1000 0) = false := by decide
/-- An offset that is not aligned, and one above 64 MiB. -/
theorem test_ill_offset : Instr.wf (.registerWrite 0 .fw 0x1002 0) = false ∧ Instr.wf (.commit 0 .fw 0x400_0000) = false := by decide
/-- Stream 16 of a core, core 8, stream 32 of a vision stream engine, engine 4, channel 32. -/
theorem test_ill_mover : Instr.wf (.faultHalt 0 (.nc 0 16)) = false ∧ Instr.wf (.faultHalt 0 (.nc 8 0)) = false ∧ Instr.wf (.faultHalt 0 (.vs 0 32)) = false ∧
    Instr.wf (.faultHalt 0 (.vs 4 0)) = false ∧ Instr.wf (.faultHalt 0 (.ch 32)) = false := by decide
/-- Partition 4, and seventeen words. -/
theorem test_ill_submission : Instr.wf (.loadGraph 0 4 none) = false ∧ Instr.wf (.loadGraph 0 0 (some (List.replicate 17 0))) = false := by decide
/-- A block type code of 17 bits. -/
theorem test_ill_block : Instr.wf (.taskEnd 0 0x10000 0) = false := by decide
/-- A window access whose length is not that of its bytes, and one of no bytes. -/
theorem test_ill_window : Instr.wf (.bar2Access 0 0 0 2 (some [1])) = false ∧ Instr.wf (.bar4Access 0 0 0 0 none) = false := by decide
/-- Operands one above their range. -/
theorem test_ill_range : Instr.wf (.ncRun 0 8) = false ∧ Instr.wf (.frameStart 0 12 0 0 false) = false ∧ Instr.wf (.frameTimeout 0 48) = false ∧
    Instr.wf (.pmbusPoll 0 0 0 (some 65536)) = false ∧ Instr.wf (.barrier 0 256) = false ∧ Instr.wf (.linkChange 0 4 true) = false := by decide
/-- Operands at the ends of their range are well formed. -/
theorem test_well_formed : Instr.wf (.ncRun 0 7) = true ∧ Instr.wf (.faultHalt 0 (.vs 3 31)) = true ∧ Instr.wf (.registerWrite 0 (.pf 3) 0x3FF_FFFC 0) = true := by
  decide

/-! ## Witnesses: registers, pages and rings -/

theorem witness_StepKeepsCanonicalForm : memoriesWf base = true ∧ tablesWf base = true ∧ (match step base with | .next _ => true | _ => false) = true := by
  decide +kernel
theorem witness_ResetHoldsTheBlock : { base with boot := { base.boot with inReset := true } }.boot.inReset = true ∧
    (match exec (.bootWarm 0 .fw) { base with boot := { base.boot with inReset := true } } with | .next _ => true | _ => false) = true := by decide +kernel
theorem witness_TimePasses : ({ base with timeOn := false }).timeOn = false ∧ base.timeOn = true ∧ base.slew = 0 ∧ ({ base with slew := 7 }).slew ≠ 0 := by decide
theorem witness_AbsentPagesReadZero : let s := { base with absent := [pg .str 3] }
    (arrive 0 s).boot.inReset = false ∧ locate (pg .str 3 + 0x100) = some ⟨.str, 3, 0x100⟩ ∧ present (arrive 0 s) .str 3 = false := by decide +kernel

/-- Is the register at an address of an access code, and open to the firmware. -/
def opens (s : State) (a : Nat) (acc : Access) : Bool :=
  match locate a with
  | some l => (headerOff l).isNone && (match rowAt l with | some (r, k) => decide (openWrite s .fw l r k ∧ r.acc = acc) | none => false)
  | none => false

theorem witness_RegisterWriteTakesEffect :
    opens (arrive 0 base) (pg .spc 7 + 0x180) .rw = true ∧ plainBlk .spc = true ∧ opens (arrive 0 base) (pg .dbg 0 + 0x104) .ro = true ∧
    opens (arrive 0 base) 0x188 .w1c = true ∧
    (let b := arrive 0 (at' [(partAddr .cams 47, 1)])
     match locate (pg .cams 47 + 0x134) with
     | some l => (match rowAt l with
       | some (r, k) => decide (headerOpen b (.pf 0) l ∧ r.acc = .ro ∧ mayWrite b (.pf 0) l r.r k = .refuse)
       | none => false)
     | none => false) = true ∧
    opens (arrive 0 base) (nocPg + 0x100) .rws = true ∧ (arrive 0 base).commits.contains (pg .noc 0) = false ∧
    opens (arrive 0 { base with commits := [pg .noc 0] }) (nocPg + 0x100) .rws = true ∧
    (arrive 0 { base with commits := [pg .noc 0] }).commits.contains (pg .noc 0) = true := by decide +kernel

/-- Does an address name header offset o of an open page that is not another partition's. -/
def heads (s : State) (who : Who) (a o : Nat) : Bool :=
  match locate a with
  | some l => headerOff l == some o && decide (headerOpen s who l) && !foreign s who l
  | none => false

theorem witness_RefusedWritesReport :
    (arrive 0 base).boot.inReset = false ∧ viewOf (arrive 0 base) (.pf 2) ⟨.cams, 0, 0x100⟩ = .absent ∧
    viewOf (arrive 0 base) (.pf 3) ⟨.safe, 0, 0x100⟩ = .denied ∧ viewOf (arrive 0 base) (.pf 3) ⟨.hbm, 3, 0x100⟩ = .shown ∧
    isStopped (arrive 0 base) = false ∧ bootState (arrive 0 base) = 2 ∧ headerOff ⟨.hbm, 3, 0x100⟩ = none ∧
    (match rowAt ⟨.hbm, 3, 0x100⟩ with | some (r, _) => decide (r.w = .host ∧ r.acc = .rws) | none => false) = true ∧
    headerOff ⟨.safe, 0, 0x24⟩ = some 0x24 ∧ blkClass .safe ≠ .assignable ∧
    (let b := arrive 0 (at' [(partAddr .pyr 0, 1)])
     viewOf b (.pf 0) ⟨.pyr, 0, 0x900⟩ = .shown ∧ isStopped b = false ∧ bootState b = 2 ∧ headerOff ⟨.pyr, 0, 0x900⟩ = none ∧
     rowAt ⟨.pyr, 0, 0x900⟩ = none ∧ foreign b (.pf 0) ⟨.pyr, 0, 0x900⟩ = true) ∧
    blkClass .cams = .assignable ∧ owner (arrive 0 base) .cams 47 ≠ 2 ∧ present (arrive 0 base) .cams 47 = true := by decide +kernel

theorem witness_CommitTakesEffect :
    heads (arrive 0 base) .fw (pg .str 3 + 0x20) 0x20 = true ∧ (arrive 0 base).commits.contains (pg .str 3) = false ∧
    (arrive 0 { base with commits := [pg .str 3] }).commits.contains (pg .str 3) = true ∧
    (let b := arrive 0 { at' [(hbmPg 0 + 0x110, 57)] with commits := [pg .hbm 0] }
     b.commits.contains (pg .hbm 0) = true ∧ atBoundary b .hbm 0 = true ∧ isStopped b = false ∧ commitCheck b .hbm 0 = false) ∧
    (let b := arrive 0 { at' [(hbmPg 0 + 0x110, 56)] with commits := [pg .hbm 0] }
     b.commits.contains (pg .hbm 0) = true ∧ atBoundary b .hbm 0 = true ∧ isStopped b = false ∧ commitCheck b .hbm 0 = true) := by decide +kernel

theorem witness_ShadowAppliesWhole : twf regRst base.applied = true ∧ (0x100 ∈ rwsOffsets (blkRows .noc)) ∧ Blk.noc ∈ pageGroup .noc ∧
    (∀ y ∈ pageGroup .noc, ∀ o ∈ rwsOffsets (blkRows y), nocPg + 0xFFC ≠ pg y 0 + o) := by decide +kernel

theorem witness_PageControlTakesEffect : isHost (.pf 0) = true ∧ heads (arrive 0 base) .fw (pg .camp 11 + 0x08) 0x08 = true ∧
    heads (arrive 0 base) .fw (pg .nc 7 + 0x24) 0x24 = true ∧ blkClass .nc = .assignable ∧ blkIdle (arrive 0 (running1 .nc base)) .nc 0 = false ∧
    heads (arrive 0 base) (.pf 0) (pg .hbm 3 + 0x1C) 0x1C = true := by decide +kernel

theorem witness_SoftResetRestores : twf regRst base.regs = true ∧ twf regRst base.applied = true ∧ 47 < blkCount .cams ∧ 3 < blkCount .vse ∧
    11 < blkCount .camp ∧ 0x100 ∈ rwOffsets (blkRows .camp) ∧ 0x100 ∈ rwOffsets (blkRows .isp) := by decide +kernel

theorem witness_ClearsEnd : Works (arrive 0 { base with clearing := [pg .spc 7, pg .vtm 0] }) ∧
    (arrive 0 { base with clearing := [pg .spc 7, pg .vtm 0] }).clearing.contains (pg .spc 7) = true ∧
    (arrive 0 { base with clearing := [pg .spc 7, pg .vtm 0] }).clearing.contains (pg .vtm 0) = true := by decide +kernel

theorem witness_PendingCommitLocksShadow :
    opens (arrive 0 { base with commits := [pg .noc 0] }) (nocPg + 0x100) .rws = true ∧ opens (arrive 0 { base with commits := [rv 0] }) (rv 0x2104) .rws = true ∧
    (arrive 0 { base with commits := [pg .noc 0, rv 0] }).commits.contains (pg .noc 0) = true ∧ twf regRst base.applied = true ∧
    heads (arrive 0 base) .fw (pg .str 3 + 0x20) 0x20 = true := by decide +kernel

theorem witness_ReadIndexWrites : writesAt (arrive 0 base) (.pf 3) (cw 3 + 0x160) = true ∧ writesAt (arrive 0 base) (.pf 0) (dl 3 + 0x10) = true ∧
    writesAt (arrive 0 base) .fw (safePg + 0x130) = true ∧ writesAt (arrive 0 base) .fw (sk 3 + 0x18) = true ∧ writesAt (arrive 0 base) .fw (rv 0x150) = true ∧
    rdIdxOk (arrive 0 (at' [(cw 3 + 0x158, 8), (cw 3 + 0x15C, 256)])) (cw 3 + 0x15C) (cw 3 + 0x158) 0 = true ∧
    rdIdxOk (arrive 0 (at' [(cw 3 + 0x158, 8), (cw 3 + 0x15C, 257)])) (cw 3 + 0x15C) (cw 3 + 0x158) 0 = false := by decide +kernel

theorem witness_RingConfigurationWrites : writesAt (arrive 0 base) (.pf 3) (cw 3 + 0x158) = true ∧
    (let b := arrive 0 base
     outstanding b 3 = 0 ∧ partStarted b 3 = false ∧ cplHeld b 3 = false ∧ writesAt b (.pf 0) (dl 3 + 8) = true ∧ (dlogAt b 3).lost = 0 ∧
     (dlogAt b 3).fault = false ∧ writesAt b .fw (safePg + 0x128) = true ∧ b.safe.vheld = []) ∧
    (let b := arrive 0 { base with graphs := [(0, graph1 0x31 .started)] }
     partStarted b 0 = true ∧ writesAt b .fw (cw 0 + 0x158) = true ∧ writesAt b .fw (dl 0 + 8) = true ∧ writesAt b .fw (safePg + 0x128) = true) := by
  decide +kernel

theorem witness_WindowControlWrites : heads (arrive 0 base) .fw (pg .camp 11 + 0x14) 0x14 = true ∧
    (∀ i ∈ List.range 32, bitOf 0xFF07 i = true → bitOf (regN (arrive 0 base) (pg .camp 11 + 0x10)) i = false) ∧
    writesAt (arrive 0 base) (.pf 3) (cw 3 + 0x400 + 4 * 255) = true ∧ writesAt (arrive 0 base) .fw (cw 3 + 0x16C) = true ∧
    writesAt (arrive 0 base) .fw (fgsPg + 0x120 + 4 * 3) = true ∧ grantBlocked (arrive 0 base) 3 = false ∧
    grantBlocked (arrive 0 { base with safe := { base.safe with react := [⟨0, 0x50, 3, 0, 0, 0, 0, 0, 0⟩] } }) 3 = true := by decide +kernel

theorem witness_ReadsWithEffects : Awake (arrive 0 base) ∧ readable (arrive 0 base) .fw (pg .ladle 15 + 0x814) = true ∧ isStopped (arrive 0 base) = false ∧
    readable (arrive 0 base) .fw (safePg + 0x30C) = true ∧ readable (arrive 0 base) .fw (pg .dbg 0 + 0x800) = true ∧
    latchOf (arrive 0 base) .fw (pg .dbg 0 + 0x800) = some (0, pg .dbg 0 + 0x804) ∧ (Blk.nc, 7) ∈ countedUnits ∧
    readable (arrive 0 base) .fw (pg .nc 7 + 0xC00) = true ∧ frozen (arrive 0 base) = false ∧ (cntAt (arrive 0 base) .nc 7).enteredAt ≠ some (arrive 0 base).time := by
  decide +kernel

/-! ## Witnesses: commands, the host, cameras and replay -/

/-- Is a submission accepted: a slot is free and no reason applies. -/
def acceptable (t : State) (p : Nat) (reasons : List (Bool × Nat)) : Bool :=
  (freeSlot t p).isSome && (lowest (commonReasons t p ++ reasons)).isNone

/-- Partition 0 with a log, a pyramid unit and a channel of its own, and bytes at address 0x100. -/
def ownedWith (l : List Byte) : State := mapped 0x100 l (at' [(cw 0 + 0x158, 8), (partAddr .pyr 0, 0), (pg .dma 0 + 0x200, 0x100)])

/-- The same with nothing at that address. -/
def owned : State := ownedWith []

/-- The same with that graph in a state of its life. -/
def owned1 (st : GStat) : State := { owned with graphs := [(0, graph1 (blkCode .pyr) st)] }

theorem witness_SubmittedCommandsAreAccepted : Works (arrive 0 owned) ∧ (words [1]).length = 16 ∧ (cmdwAt (arrive 0 owned) 0).latched = none ∧
    (let w := words [0, 0x100, 0, 176]; let t := submitted (arrive 0 (ownedWith (image1 (blkCode .pyr)))) 0 1 w
     acceptable t 0 (loadReasons 0 w t) = true) ∧
    (let w := words [0]; let t := submitted (arrive 0 (owned1 .loaded)) 0 2 w
     acceptable t 0 (unloadReasons 0 w t) = true) ∧
    (let w := words [0]; let t := submitted (arrive 0 (owned1 .loaded)) 0 3 w
     acceptable t 0 (startReasons 0 w t) = true) ∧
    (let w := words [0, 1]; let t := submitted (arrive 0 (owned1 .started)) 0 4 w
     acceptable t 0 (stopReasons 0 w t) = true) ∧
    (let w := words [0, 3]; let t := submitted (arrive 0 (owned1 .started)) 0 5 w
     acceptable t 0 (runReasons 0 w t) = true) ∧
    (let w := words [0, 0, 0x80, 0, 64, 0]; let t := submitted (arrive 0 owned) 0 6 w
     acceptable t 0 (copyReasons 0 w t) = true) ∧
    (let w := words [10]; let t := submitted (arrive 0 owned) 0 7 w
     acceptable t 0 (oppReasons 0 w t) = true) ∧
    (let w := words [3, 0, 0, 8]; let t := submitted (arrive 0 owned) 0 8 w
     acceptable t 0 (queryReasons 0 w t) = true) := by decide +kernel

theorem witness_SubmittedCommandsAreRejected :
    (let w := words [256, 0x100, 0, 175]; let t := submitted (arrive 0 owned) 0 1 w
     lowest (commonReasons t 0 ++ loadReasons 0 w t) = some 4) ∧
    (let w := words [0]; let t := submitted (arrive 0 owned) 0 2 w
     lowest (commonReasons t 0 ++ unloadReasons 0 w t) = some 7) ∧
    (let w := words [0]; let t := submitted (arrive 0 (owned1 .started)) 0 3 w
     lowest (commonReasons t 0 ++ startReasons 0 w t) = some 9) ∧
    (let w := words [0]; let t := submitted (arrive 0 (owned1 .loaded)) 0 4 w
     lowest (commonReasons t 0 ++ stopReasons 0 w t) = some 10) ∧
    (let w := words [0, 4]; let t := submitted (arrive 0 (owned1 .started)) 0 5 w
     lowest (commonReasons t 0 ++ runReasons 0 w t) = some 4) ∧
    (let w := words [0, 0, 0x80, 0, 64, 1]; let t := submitted (arrive 0 owned) 0 6 w
     lowest (commonReasons t 0 ++ copyReasons 0 w t) = some 2) ∧
    (let w := words [11]; let t := submitted (arrive 0 owned) 0 7 w
     lowest (commonReasons t 0 ++ oppReasons 0 w t) = some 4) ∧
    (let w := words [4]; let t := submitted (arrive 0 owned) 0 8 w
     lowest (commonReasons t 0 ++ queryReasons 0 w t) = some 4) ∧
    (let w := words [0]; let t := submitted (arrive 0 base) 0 8 w
     lowest (commonReasons t 0 ++ queryReasons 0 w t) = some 5) := by decide +kernel

theorem witness_HandlesNameTheirSlot : freeSlot base 0 = some 0 ∧ mkHandle 3 8191 255 = 0x7FFF00FF := by decide +kernel

theorem witness_GraphCommandsChangeTheirGraph :
    (match vaRead (ownedWith (image1 (blkCode .pyr))) 0 0x100 176 with | .ok b => b == image1 (blkCode .pyr) | .error _ => false) = true ∧
    Works (arrive 0 { base with graphs := [(255, graph1 0x31 .loading)] }) ∧
    (graphAt (arrive 0 { base with graphs := [(255, graph1 0x31 .loading)] }) 255).stat = .loading ∧
    twf (fun _ => {}) (owned1 .started).graphs = true ∧ commandFlow (graphAt (owned1 .started) 0) 3 = some 0 ∧
    0 < (graphAt (owned1 .started) 0).flows.length := by decide +kernel

theorem witness_CopiesPointsAndQueriesTakeEffect : twf (fun _ => {}) base.movers = true ∧ (movAt base 256).active = none ∧
    (movAt { base with movers := [(256, { active := some { part := 0 } })] } 256).active ≠ none ∧ base.pwr.openMode = false ∧
    (setPwr base { base.pwr with openMode := true }).pwr.openMode = true := by decide +kernel

theorem witness_HostEventsTakeEffect :
    (let b := arrive 0 { base with cmdw := [(3, { unsig := 1 })] }
     Works b ∧ coalDue b 3 = true) ∧
    (let b := arrive 0 base
     Awake b ∧ isStopped b = false ∧ b.boot.prog = none ∧ b.boot.starting = false ∧ bootState b = 2 ∧ b.pwr.shutdown = false) ∧
    (let b := arrive 0 (mapped 0 [] base)
     bootState b = 2 ∧ piecesOf (bar2Va b 0 0) 8 = [(0, 8)] ∧ bar2Hit b 0 0 .r = true ∧ bar2Hit b 0 0 .w = true ∧
     0 + 8 ≤ bar2Size b 0 ∧ (match meetRead b 0 0 8 .r with | (.ok _, _) => true | _ => false) = true ∧ bar2Size b 0 < bar2Size b 0 + 8) ∧
    (let b := arrive 0 base
     bar2Hit b 0 0 .r = false ∧ bar2Hit b 0 0 .w = false) ∧
    bar4At (arrive 0 base) 0x2300_0000 = .none_ ∧ 0x2000_0000 + 8 ≤ 0x2000_0000 + vtmArea := by decide +kernel

theorem witness_SequencesCompareAround : seqBelow 0xFFFF_FFFF 0 = true ∧ seqBelow 0 0x7FFF_FFFF = true ∧ seqBelow 0 0x8000_0000 = false := by decide +kernel

/-- Camera port 11 is on, and context 47 takes its virtual channel 0: RAW8 lines of one pixel, two lines, in partition 0. -/
def camera : State :=
  let s := mapped 0 [] (at' [(pg .cams 47 + 8, 1), (partAddr .cams 47, 0)])
  { s with applied := tblOf regRst (s.applied ++ [(pg .camp 11 + 0x100, 1), (pg .cams 47 + 0x100, 0x2A000B), (pg .cams 47 + 0x104, 0x20001),
    (pg .cams 47 + 0x10C, 0x10000), (pg .cams 47 + 0x124, 1)]) }

/-- An open frame with sequence 5 of that context, so many lines in. -/
def fr5 (n : Nat) : OpenFrame := { seq := 5, fs := 0, last := 0, num := 9, lines := n }

/-- The camera in that frame. -/
def inFrame (f : OpenFrame) : State := { camera with cams := [(47, { prev := some 5, frame := some f })] }

theorem witness_CameraPacketsTakeEffect :
    (let b := arrive 0 camera
     Works b ∧ portOn b 11 = true ∧ ctxsOf b 11 (vcOf b 11 1) none = [] ∧ ctxsOf b 11 (vcOf b 11 1) (some 0x2A) = [] ∧ ctxsOf b 11 (vcOf b 11 0) none = [47] ∧ injArmed b .cams 47 1 = false ∧
     injArmed b .cams 47 0 = false ∧ bitOf (app b (cp 47 + 0x108)) 0 = false ∧ (camsAt b 47).halted = false ∧ camFlow b 47 = none ∧
     (camsAt b 47).frame = none) ∧
    (let b := arrive 0 (inFrame (fr5 0))
     ctxsOf b 11 (vcOf b 11 0) (some (if (dtBits 0x2A).isSome then 0x2A else 64)) = [47] ∧ (fr5 0).extra = false ∧ (camsAt b 47).frame = some (fr5 0) ∧ (fr5 0).lines + 1 < camH b 47 ∧ camDt b 47 = 0x2A ∧
     [7].length = packedLen (camDt b 47) (camW b 47) ∧
     (match writeLine b 47 { fr5 0 with last := b.time } ((unpackLine (camDt b 47) [7]).take (camW b 47) ++
        List.replicate (camW b 47 - ((unpackLine (camDt b 47) [7]).take (camW b 47)).length) (app b (cp 47 + 0x110) % 65536)) 0 with
      | (some f, _) => f.lines == 1 && f.flags == 0 | (none, _) => false) = true) ∧
    (let b := arrive 0 (inFrame (fr5 0))
     app b (cp 47 + 0x130) < (fr5 0).emb + (4 + ([7].length + 3) / 4 * 4)) ∧
    (let b := arrive 0 (applied ((pg .cams 47 + 0x130, 8) :: (inFrame (fr5 0)).applied) (inFrame (fr5 0)))
     (fr5 0).emb + (4 + ([7].length + 3) / 4 * 4) ≤ app b (cp 47 + 0x130) ∧ (camsAt b 47).frame = some (fr5 0) ∧
     (meetWrite b (owner b .cams 47) (camSlot b 47 5 + app b (cp 47 + 0x12C) + 0) (natLe 4 (0x12 + 256 * 1) ++ [7] ++ List.replicate 3 0)).2 = none) ∧
    (let b := arrive 0 (inFrame { fr5 0 with drop := true, extra := true })
     (camsAt b 47).frame = some { fr5 0 with drop := true, extra := true }) ∧
    (let b := arrive 0 (inFrame (fr5 2))
     (camsAt b 47).frame = some (fr5 2) ∧ (fr5 2).lines = camH b 47 ∧ dropReasons b 47 0 = [] ∧ settingsLate b 47 5 = false ∧
     (meetWrite b (owner b .cams 47) (camSlot b 47 5) (metaBytes b 47 (fr5 2) 0 2)).2 = none) := by decide +kernel

theorem witness_CameraFailuresDropFrames :
    (let b := arrive 0 camera
     Works b ∧ 11 < blkCount .camp ∧ 47 < blkCount .cams ∧ portOn b 11 = true ∧
     (∀ m ∈ presentList b .cams, camSrc b m = 11 → (camsAt b m).frame = none)) ∧
    (let b := arrive 1000 (inFrame (fr5 2))
     (camsAt b 47).frame = some (fr5 2) ∧ camH b 47 ≤ (fr5 2).lines ∧ (fr5 2).drop = false) ∧
    (let b := arrive 1000 (inFrame (fr5 0))
     (camsAt b 47).frame = some (fr5 0) ∧ fld (app b (cp 47 + 0x10C)) 16 16 ≠ 0 ∧
     fld (app b (cp 47 + 0x10C)) 16 16 * 1000 ≤ (b.time - (fr5 0).fs).toNat ∧ (camsAt b 47).logged ≠ some 5) := by decide +kernel

/-- A bundle of no entries for context 0. -/
def bundle0 : Bundle := { target := 4, id := 2, ctx := 0, discard := false, entries := [] }

theorem witness_SettingsAndFrameSyncTakeEffect :
    (let b := arrive 0 (mapped 0 [] (at' [(partAddr .sctl 11, 0)]))
     Works b ∧ writesAt b .fw (sp 11 + 0x158) = true ∧ (sctlAt b 11).bus = none ∧
     (match vaRead b (owner b .sctl 11) 0 16 with | .ok _ => true | .error _ => false) = true) ∧
    (let b := arrive 0 { base with sctl := [(11, { queue := List.replicate 16 bundle0 })] }
     16 ≤ (sctlAt b 11).queue.length) ∧
    (let b := arrive 0 { base with sctl := [(0, { bus := some bundle0 })] }
     Works b ∧ (sctlAt b 0).bus = some bundle0) ∧
    (let b := arrive 100 { base with sctl := [(11, { wins := [(3, [⟨4, 100⟩, ⟨5, 101⟩])] })] }
     (winsAt b 11 3).filter (fun w => decide (b.time.toNat < w.close.toNat)) = [⟨5, 101⟩] ∧ twf (fun _ => []) (sctlAt b 11).wins = true) ∧
    (let b := arrive 0 (applied [(sp 0 + 0x110, 1)] { base with
        sctl := [(0, { queue := [bundle0], wins := [(0, [⟨4, 1000000⟩])] })] })
     (sctlAt b 0).bus = none ∧ b.commits.contains (pg .sctl 0) = false ∧ (nextBundle b 0).isSome = true) ∧
    (let b := arrive 0 (at' [(fsyncBase 15, 10000)])
     writesAt b .fw (fsyncBase 15 + 0x10) = true ∧ b.time.toNat + 10000 ≤ reg64 b (fsyncBase 15) (fsyncBase 15 + 4)) ∧
    (let b := arrive 1 (at' [(fsyncBase 15, 10000)])
     writesAt b .fw (fsyncBase 15 + 0x10) = true ∧ reg64 b (fsyncBase 15) (fsyncBase 15 + 4) < b.time.toNat + 10000) ∧
    (let b := arrive 7 { base with fsync := [(15, { armed := true, start := 7 })] }
     (fsyncAt b 15).armed = true ∧ fsyncPresent b 15 = true ∧ ((fsyncAt b 15).start + BitVec.ofNat 64 ((fsyncAt b 15).count * (fsyncAt b 15).period)).toNat ≤ b.time.toNat) := by
  decide +kernel

/-- List 15 of replay channel 7 holds one item, of a type; with a context, context 47 takes the channel. -/
def replay (ty : Nat) (ctx : Bool) : State :=
  let s := mapped 0 (natLe 2 ty ++ natLe 2 0 ++ natLe 4 5) (at' [(partAddr .rpl 7, 0), (rp 7 + 8, 1), (rp 7 + 0x11C + 0xF0, 1), (partAddr .cams 47, 0),
    (pg .cams 47 + 8, b2n ctx)])
  { s with applied := tblOf regRst (s.applied ++ [(rp 7 + 0x118 + 0xF0, 0x12F04), (pg .cams 47 + 0x100, 0x2A0017)]) }

theorem witness_ReplayItemsTakeEffect :
    writesAt (arrive 0 base) .fw (rp 7 + 0x11C + 0x10 * 15) = true ∧
    (∀ x ∈ [(1, true), (2, false), (2, true), (3, false)], let b := arrive 0 (replay x.1 x.2)
     Works b ∧ present b .rpl 7 = true ∧ (rplAt b 7).halted = false ∧ bitOf (regN b (rp 7 + 8)) 0 = true ∧ nextList b 7 = some 15 ∧
     (match readItem b 7 15 with | .ok it => leAt it 0 2 == x.1 | .error _ => false) = true ∧
     tget (fun _ => (none : Option Word)) (rplAt b 7).prev 15 = none ∧ (x.2 = true → listCtx b 7 15 = some 47) ∧ (x.2 = false → listCtx b 7 15 = none) ∧
     dlogOn b (owner b .rpl 7) = false ∧ b.commits.contains (pg .rpl 7) = false) ∧
    (let b := arrive 0 { replay 3 false with hbm := [] }
     nextList b 7 = some 15 ∧ (match readItem b 7 15 with | .ok _ => false | .error _ => true) = true) ∧
    (let b := arrive 0 { replay 1 true with rpl := [(7, { prev := [(15, some 5)] })] }
     nextList b 7 = some 15 ∧ !seqAbove 5 5 = true) := by decide +kernel

/-- A graph whose flow is triggered every microsecond. -/
def ticking : Graph :=
  let g := graph1 (blkCode .pyr) .started
  { g with
    part := 3
    img := { g.img with trigs := [⟨5, 2, [], 1000, 0, 0⟩] } }

theorem witness_TriggersAndFormationTakeEffect :
    (let b := arrive 1000 { base with graphs := [(255, ticking)] }
     Works b ∧ (graphAt b 255).stat = .started ∧ (trigOf (graphAt b 255) 0).kind = 2 ∧ (flowAt (graphAt b 255) 0).stopped = false ∧
     0 < (graphAt b 255).flows.length ∧ tickTime (graphAt b 255) (trigOf (graphAt b 255) 0) (flowAt (graphAt b 255) 0).ticks ≤ now b ∧
     roomFor b 255 0 = true ∧ (hampersOf b 255 0).find? (releasable b) = none) ∧
    (let b := arrive 1000 { base with graphs := [(255, { ticking with flows := [{ resv := [⟨0, 0, 0, 0, []⟩, ⟨1, 0, 0, 0, []⟩, ⟨2, 0, 0, 0, []⟩, ⟨3, 0, 0, 0, []⟩] }] })] }
     roomFor b 255 0 = false ∧ (graphAt b 255).part < 4 ∧ frozen b = false) ∧
    (let b := arrive 0 { base with graphs := [(255, { ticking with flows := [{ resv := [⟨0, 0, 0, 0, []⟩] }] })] }
     ((formOrder b).findSome? (fun y => (formable b y.1 y.2).map (fun r => (y.1, y.2, r)))).isSome = true) ∧
    (let b := arrive 0 { base with
        graphs := [(0, { graph1 (blkCode .pyr) .started with part := 1 })]
        hampers := [⟨0, 0, 0, 0, 0, 1, 0, false, false, false, [{ node := 0, idx := 0, copy := 0, at_ := .ended 0 }], []⟩] }
     ((hampersOf b 0 0).find? (releasable b)).isSome = true ∧ ((hampersOf b 0 0).map faultyNodes) = [[]] ∧ mayRelease b (graphAt b 0).part = true) := by decide +kernel

/-- A graph of one node, its one task waiting, in partition 1, which owns the units at reset; unit 0 is enabled. -/
def waiting1 (ty : Nat) : State :=
  { at' [(pg .pyr 0 + 8, 1)] with
    graphs := [(0, { graph1 ty .started with part := 1 })]
    hampers := [⟨0, 0, 0, 0, 0, 1, 0, false, false, false, [{ node := 0, idx := 0, copy := 0, at_ := .waiting }], []⟩] }

/-- The task's context on core 0. -/
def ctx1 : Ctx := { task := ref1 }

/-- A core's task with a context, and the park settings of 100 ns. -/
def coreRuns (x : Ctx) : State :=
  let s := applied [(fgsPg + 0x100, 1)] (running1 .nc base)
  { s with cores := [(0, { ctx := some x })] }

theorem witness_TasksMoveThroughTheirUnits :
    (let b := arrive 0 (waiting1 (blkCode .pyr))
     Works b ∧ (match pick b (candidates b) with | some (_, some (x, i)) => x == .pyr && i == 0 | _ => false) = true) ∧
    (let b := arrive 0 { running1 .pyr base with units := tblOf (fun _ => {}) [(ukey .pyr 0, { run := some ref1, done := some 0 })] }
     (unitAt b .pyr 0).run = some ref1 ∧ (unitAt b .pyr 0).done = some 0 ∧ ladleRoom b (graphAt b 0) 0 0 = true ∧ Blk.pyr ∈ unitTypes ∧
     (fifoOf b (srcKey .pyr 0)).length < fifoDepth (srcKey .pyr 0)) ∧
    (let b := arrive 0 (coreRuns { ctx1 with kill := some 0 })
     (unitAt b .nc 0).run = some ref1 ∧ (unitAt b .nc 0).done = none ∧ (coreAt b 0).ctx = some { ctx1 with kill := some 0 } ∧
     ncQuiet (pruneTask b 0 ref1) 0 ref1 = true ∧ ladleRoom (pruneTask b 0 ref1) (graphAt (pruneTask b 0 ref1) 0) 0 0 = true) ∧
    (let b := arrive 0 { base with fifos := [(ukey .dma 0, [⟨ref1, 0⟩])] }
     (nextSource b).isSome = true) ∧
    (let b := arrive 100 { coreRuns { ctx1 with wait := some (.stream 1, 0) } with
        units := tblOf (fun _ => {}) [(ukey .nc 0, { run := some ref1, pre := some { ref1 with seq := 1 } })] }
     present b .nc 0 = true ∧ parkable (asActor .nc 0 (opOf b .nc 0) b) 0 = true ∧ (coreAt b 0).ctx = some { ctx1 with wait := some (.stream 1, 0) } ∧
     (coreAt b 0).live = false ∧
     (match saveFile 0 (freePark (coreAt b 0)) (asActor .nc 0 (opOf b .nc 0) b) with | (.ok (), _) => true | _ => false) = true) ∧
    (let s := coreRuns { ctx1 with wait := some (.stream 1, 0) }
     let b := arrive 100 { s with
        cores := [(0, { ctx := some { ctx1 with wait := some (.stream 1, 0) }, live := true })]
        regs := tblOf regRst (s.regs ++ [(pg .ncm 0 + 0x1C, 2)])
        applied := tblOf regRst (s.applied ++ [(pg .nc 0 + 0x100, 0x80000000)])
        units := tblOf (fun _ => {}) [(ukey .nc 0, { run := some ref1, pre := some { ref1 with seq := 1 } })] }
     let e := asActor .nc 0 (opOf b .nc 0) b
     parkable e 0 = true ∧ (match saveFile 0 (freePark (coreAt e 0)) e with | (.error st, _) => st == 0x0704 | _ => false) = true) ∧
    (let b := arrive 0 { coreRuns ctx1 with
        units := tblOf (fun _ => {}) [(ukey .nc 0, { parks := [(ref1, 0, true)] })]
        cores := [(0, { parked := [⟨ctx1, 0, false, false, []⟩] })] }
     let t := refreshParks (asActor .nc 0 (opOf b .nc 0) b)
     present b .nc 0 = true ∧ (unitAt t .nc 0).run = none ∧ tasterHolds t (unitAt t .nc 0) = false ∧
     (unitAt t .nc 0).parks.find? (fun q => q.2.2) = some (ref1, 0, true) ∧
     (coreAt t 0).parked.find? (fun q => q.ctx.task == ref1) = some ⟨ctx1, 0, false, false, []⟩) := by decide +kernel

/-! ## Witnesses: engines, match sets, cores and streams -/

/-- The running task of a unit of a type, with a command of a length at its address. -/
def engine (b : Blk) (len : Nat) (cmd : List Byte) : State :=
  let s := running1 b (mapped 0x1000 cmd base)
  let g := graphAt s 0
  setGraph s 0 { g with img := { g.img with tasks := [⟨0x1000, len, 1, 0, 0⟩] } }

/-- Does a meaning run the task of a state to its end, or end it with a status. -/
def endsIn (s : State) (b : Blk) (f : VTask → Eng Unit) (st : Option Nat) : Bool :=
  let t := startTask (arrive 0 s) b 0
  let e := asActor b 0 (opOf t b 0) t
  unitThere (arrive 0 s) b 0 && (match vtask e b 0 with
    | some v => (match f v e with | (.ok _, _) => st.isNone | (.error x, _) => st == some x)
    | none => false)

/-- The same of a command of 128 bytes. -/
def endsWith (b : Blk) (cmd : List Byte) (f : VTask → Eng Unit) (st : Option Nat) : Bool := endsIn (engine b 128 cmd) b f st

/-- The opcode and, where it is not that of the block's first row, the kind of command the task names. -/
def opIs (b : Blk) (cmd : List Byte) (f : State → Nat → Bool) : Bool :=
  let t := startTask (arrive 0 (engine b 128 cmd)) b 0
  f (asActor b 0 (opOf t b 0) t) 0

/-- PYR_BUILD of a plane of 3 by 3 bytes to one level. -/
def pyr3 : List Byte := natLe 2 1 ++ [0, 0, 1, 0, 0, 0] ++ natLe 2 3 ++ natLe 2 3 ++ List.replicate 8 0 ++ natLe 4 3 ++ natLe 8 0x4000 ++ natLe 8 0x5000

/-- WARP by a homography to one pixel, which is fill. -/
def hom1 : List Byte := natLe 2 2 ++ List.replicate 6 0 ++ natLe 2 1 ++ natLe 2 1 ++ natLe 2 1 ++ natLe 2 1 ++ List.replicate 16 0 ++ natLe 8 0x4000 ++
  natLe 4 1 ++ natLe 4 64 ++ natLe 8 0x5000 ++ List.replicate 8 0 ++ natLe 4 8

theorem witness_EnginesRunTheirTask :
    Works (arrive 0 (engine .isp 128 [])) ∧ endsWith .isp [] ispFrame (some 0x0201) = true ∧ endsWith .pyr [] pyrBuild (some 0x0301) = true ∧
    endsWith .warp [] warpTile (some 0x0311) = true ∧ opIs .warp [] warpIsHom = false ∧ endsWith .warp [2] warpTile (some 0x0311) = true ∧
    opIs .warp [2] warpIsHom = true ∧ endsWith .str [] strTile (some 0x0401) = true ∧ endsWith .flw [] flwTile (some 0x0501) = true ∧
    opIs .ftr [] (fun s u => ftrOp s u == 1) = true ∧
    endsWith .ftr [] (fun t => (do let c ← ftrCommand t; ftrDetect t c : Eng Unit)) (some 0x0601) = true ∧
    opIs .ftr [2, 0, 0, 9] (fun s u => ftrOp s u == 2) = true ∧
    endsWith .ftr [2, 0, 0, 9] (fun t => (do let c ← ftrCommand t; ftrMatch t c : Eng Unit)) (some 0x0601) = true := by decide +kernel

/-- WARP by a mesh of four nodes to one pixel. -/
def mesh1 : List Byte := natLe 2 1 ++ (hom1.drop 2 ++ List.replicate 4 0) ++ natLe 8 0x6000

/-- FLW_FLOW of a first frame of 16 by 16 bytes. -/
def flow16 : List Byte := natLe 2 1 ++ [0, 1, 0, 0, 0, 1] ++ natLe 2 16 ++ natLe 2 16 ++ natLe 2 0 ++ natLe 2 0 ++ natLe 2 1 ++ natLe 2 1 ++
  [1, 0, 1, 1, 0, 0, 0, 0] ++ natLe 4 16 ++ natLe 8 0x4000 ++ natLe 8 0 ++ natLe 8 0x5000 ++ List.replicate 28 0 ++ natLe 4 64 ++ natLe 8 0x6000

/-- FTR_MATCH of no features against set 9. -/
def match9 : List Byte := natLe 2 2 ++ List.replicate 20 0 ++ [9, 0] ++ natLe 2 1 ++ List.replicate 14 0 ++ natLe 8 0x4000 ++ natLe 8 0x5000

/-- That command with set 9 partition 0's own and a feature file of no records. -/
def matchState : State :=
  let h := natLe 4 0x31465446 ++ List.replicate 56 0
  let s := engine .ftr 64 match9
  { s with
    hbm := memWrite s.hbm 0x204000 (h ++ natLe 4 (crc32 h))
    fms := { s.fms with own := [(9, 256)], sets := [(9, [⟨0, 0, 0, [ref1]⟩])] } }

theorem witness_EnginesRunTheirTask_ok : endsIn (engine .pyr 64 pyr3) .pyr pyrBuild none = true ∧ endsWith .warp hom1 warpTile none = true ∧
    endsWith .warp mesh1 warpTile none = true ∧ endsWith .flw flow16 flwTile none = true ∧
    endsIn matchState .ftr (fun t => (do let c ← ftrCommand t; ftrMatch t c : Eng Unit)) none = true := by decide +kernel

/-- ISP_FRAME with no output, whose settings block at 0x4000 names frames of 2 by 2 pixels and whose slot at 0x6000 holds one of sequence 0 and
data type RAW8. -/
def ispState : State :=
  let spb := natLe 2 2 ++ natLe 2 2 ++ List.replicate 28 0 ++ [1, 0, 0, 0, 1] ++ List.replicate 87 0 ++ [4] ++ List.replicate 15 0 ++
    natLe 4 64 ++ natLe 4 64 ++ natLe 4 64 ++ natLe 4 8
  let cmd := natLe 2 1 ++ [0, 0] ++ natLe 2 1 ++ List.replicate 2 0 ++ natLe 8 0x4000 ++ natLe 8 0x6000
  let hdr := List.replicate 45 0 ++ [0x2A] ++ List.replicate 6 0 ++ natLe 2 2 ++ natLe 2 2 ++ List.replicate 4 0
  let s := engine .isp 80 cmd
  { s with hbm := memWrite (memWrite s.hbm 0x204000 spb) 0x206000 (hdr ++ natLe 4 (crc32 hdr)) }

/-- STR_DISPARITY of one pixel of two views of 16 by 8 bytes. -/
def str1 : List Byte :=
  natLe 2 1 ++ [0, 2, 0, 0, 0, 0] ++ natLe 2 16 ++ natLe 2 8 ++ natLe 2 0 ++ natLe 2 0 ++ natLe 2 1 ++ natLe 2 1 ++ natLe 2 0 ++ natLe 2 64 ++
  [1, 0, 0, 0] ++ List.replicate 12 0 ++ natLe 4 16 ++ natLe 4 64 ++ natLe 8 0x4000 ++ natLe 8 0x4100 ++ List.replicate 16 0 ++ natLe 8 0x5000 ++
  List.replicate 16 0 ++ natLe 4 8 ++ natLe 4 64 ++ List.replicate 4 0 ++ [16, 0, 0, 0] ++ natLe 4 64

theorem witness_EnginesRunTheirTask_frames : endsIn ispState .isp ispFrame none = true ∧ endsWith .str str1 strTile none = true := by decide +kernel

/-- Core 0 with its task at an instruction of four bytes, a window of 16 rows, x5 at the start of the scratchpad and x6 at 1. -/
def coreAtInsn (w : Nat) (f : Ctx → Ctx) : State :=
  let s := running1 .nc (mapped 0x100 (natLe 4 w) base)
  { s with cores := [(0, { ctx := some (f { task := ref1, pc := 0x100, spRows := 16, x := [(5, BitVec.ofNat 64 (2 ^ 63)), (6, 1)] }) })] }

/-- What an instruction of a kind ends in there: 0 the next instruction, 1 a trap, 2 a status, 3 a stall; 9 where it is of another kind. -/
def insnEnd (kind : Kind) (w : Nat) (f : Ctx → Ctx) (run : Nat → Nat → Nat → Nx DWord) : Nat :=
  let b := arrive 0 (coreAtInsn w f)
  let e := asActor .nc 0 (opOf b .nc 0) b
  if !(decide (Works b) && present b .nc 0 && ncActive e 0) then 9
  else match fetchInsn 0 e with
    | (.ok (v, n), t) => if kindOf v n = kind then (match run 0 v n (icacheInject t 0) with
        | (.ok _, _) => 0 | (.error (.trap _ _), _) => 1 | (.error (.status _), _) => 2 | (.error .stall, _) => 3) else 9
    | _ => 9

/-- The same of a custom instruction. -/
def customEnd (k w : Nat) (f : Ctx → Ctx) : Nat := insnEnd (.custom k) w f (fun u v n => customInsn u k v n)

/-- On a ring of one core, with one matrix ticket issued and not complete. -/
def ringed (x : Ctx) : Ctx := { x with mIssued := 1, sIssued := 1, ring := some (0, 0, 1) }

theorem witness_CoreInstructionsRetireOrEnd :
    (∀ k ∈ [0, 1, 2, 3], customEnd k (encR k 0 5 0 7 0x0B) id = 0 ∧ customEnd k (encR k 0 6 0 7 0x0B) id = 1) ∧
    customEnd 4 (encR 0 0 5 1 7 0x0B) id = 0 ∧ customEnd 4 (encR 0 5 5 1 7 0x0B) id = 1 ∧
    customEnd 5 (encR 0 0 0 2 0 0x0B) id = 0 ∧ customEnd 5 (encR 0 6 0 2 0 0x0B) id = 1 ∧ customEnd 5 (encR 0 6 0 2 0 0x0B) ringed = 3 ∧
    customEnd 6 (encR 0 0 0 3 7 0x0B) id = 1 ∧ customEnd 7 (encR 0 0 0 4 0 0x0B) id = 1 ∧ customEnd 7 (encR 0 0 0 4 0 0x0B) ringed = 0 ∧
    customEnd 8 (encR 0 0 0 5 0 0x0B) id = 1 ∧ customEnd 8 (encR 0 6 0 5 0 0x0B) ringed = 3 ∧ customEnd 8 (encR 0 0 0 5 0 0x0B) ringed = 0 ∧
    customEnd 9 (encR 0 0 0 0 0 0x2B) id = 0 ∧ customEnd 9 (encR 0 0 6 0 0 0x2B) ringed = 3 ∧ customEnd 9 (encR 0 0 5 0 0 0x2B) id = 1 ∧
    customEnd 10 (encR 0 0 0 1 0 0x2B) id = 0 ∧ customEnd 10 (encR 0 0 0 1 7 0x2B) id = 1 ∧
    insnEnd .scalar (encI 1 0 0 1 0x13) id scalarInsn = 0 ∧ insnEnd .scalar 0 id scalarInsn = 1 ∧
    insnEnd .vector (encI 0 0 7 1 0x57) id vectorInsn = 0 ∧ insnEnd .vector 0x57 id vectorInsn = 1 ∧
    (let b := arrive 0 (coreAtInsn 0 (fun x => { x with pc := 0xFFFF_FFFF_FFFF_FFFE }))
     let e := asActor .nc 0 (opOf b .nc 0) b
     ncActive e 0 = true ∧ (match fetchInsn 0 e with | (.error (.trap 1 _), _) => true | _ => false) = true) := by decide +kernel

theorem witness_ScalarResultsFollowTheirRule : (coreAt (coreAtInsn 0 id) 0).ctx ≠ none ∧ twf (fun _ => {}) (coreAtInsn 0 id).cores = true := by decide +kernel

theorem witness_CoreCommandsQueueWaitAndEnd :
    (let s := coreAtInsn 0 id
     (coreAt s 0).ctx ≠ none ∧ (coreAt s 0).mq.length < 16 ∧ codeAddr (xr s 0 5).toNat = .sp 0 ∧ inWindow s 0 0 32 = true ∧
     (match spRead 0 0 32 s with | (.ok _, r) => r.cores == s.cores | _ => false) = true ∧
     (match rawLoad 0 (xr s 0 5).toNat 32 s with | (.ok _, r) => r.cores == s.cores | _ => false) = true ∧ (cx s 0).kill = none) ∧
    16 ≤ (coreAt { base with cores := [(0, { ctx := some ctx1, mq := List.replicate 16 ⟨0, [], 0, ref1, 0, false⟩ })] } 0).mq.length ∧
    mDoneCount (ringed ctx1) < 1 ∧ 1 ≤ (ringed ctx1).mIssued ∧
    boundTo { graph1 0x40 .started with binds := [(blkCode .nc, 0, 3)] } .nc ((0 + 1) % 1) = some 3 := by decide +kernel

/-- The NC_RUN command of an entry at 0x200 with a window of 16 rows. -/
def run16 : List Byte := natLe 2 1 ++ [0, 0] ++ natLe 4 0 ++ natLe 4 16 ++ natLe 4 0x1FF8 ++ natLe 8 0x200 ++ List.replicate 40 0

/-- An idle core whose task names that command. -/
def ncStarts (cmd : List Byte) : State := engine .nc 64 cmd

theorem witness_CoreTasksStartAndWorkCompletes :
    (let b := arrive 0 (ncStarts run16)
     let t := startTask b .nc 0
     let e := itraceSync (asActor .nc 0 (opOf t .nc 0) t) 0
     Works b ∧ present b .nc 0 = true ∧ (coreAt e 0).ctx = none ∧
     (match vtask e .nc 0, readRun run16 with
      | some v, some k => v.ent.cmdLen == 64 && (match vaRead e v.part v.ent.cmdAddr 64 with | .ok c => c == run16 | .error _ => false) && runOk e 0 v k
      | _, _ => false) = true ∧ readRun (List.replicate 64 0) = none) ∧
    (let b := arrive 0 { base with cores := [(0, { ctx := some ctx1, mq := [⟨0, List.replicate 32 0, 1, ref1, 0, false⟩] })] }
     let m := asActor .nc 0 (opOf b .nc 0) b
     taskCtx m 0 ref1 = some ctx1 ∧
     (match mmaRun 0 ctx1 (List.replicate 32 0) (setCore m 0 { coreAt m 0 with mq := [] }) with | (.error x, _) => x == 0x0703 | _ => false) = true ∧
     ((coreAt (startMatrix m 0) 0).mq.find? (·.started)).isSome = true) ∧
    ((coreAt (startMatrix (arrive 0 base) 0) 0).mq.find? (·.started)) = none ∧
    (let x := { ctx1 with spRows := 2 }
     let mma := natLe 4 0 ++ natLe 4 1 ++ natLe 4 1 ++ [0, 0, 1, 0] ++ natLe 2 1 ++ natLe 2 1 ++ List.replicate 12 0
     let b := arrive 0 { base with cores := [(0, { ctx := some x, mq := [⟨0, mma, 1, ref1, 0, false⟩] })] }
     let h := startMatrix (asActor .nc 0 (opOf b .nc 0) b) 0
     (match mmaRun 0 x mma (setCore h 0 { coreAt h 0 with mq := [] }) with | (.ok (), _) => true | _ => false) = true) ∧
    (let b := arrive 0 { base with ringSigs := [⟨0, 7, 0, 0, 0, 0, ref1⟩] }
     b.ringSigs[0]? = some ⟨0, 7, 0, 0, 0, 0, ref1⟩ ∧ sigReady b ⟨0, 7, 0, 0, 0, 0, ref1⟩ = true ∧ frozen b = false) := by decide +kernel

/-- A command of a list of one pair at 0x1000, as armed on a mover of partition 0. -/
def list1 : MovCmd := { part := 0, list := 0x1000 }

/-- Descriptors of one byte of partition 0's space, at an address. -/
def desc1 (a : Nat) : List Byte := natLe 6 a ++ natLe 2 0 ++ [1, 1, 0, 0] ++ natLe 4 0 ++ natLe 4 1 ++ natLe 2 1 ++ List.replicate 42 0

/-- Channel 31 with an active command. -/
def chan31 (v : Mov) : State := { mapped 0x1000 (desc1 0x4000 ++ desc1 0x5000) base with movers := [(movKey (.ch 31), v)] }

/-- The pair those descriptors are. -/
def pair1 : Desc × Desc := (readDesc (desc1 0x4000), readDesc (desc1 0x5000))

/-- Core 7 whose next stream command goes to stream 15 of its engine, for a task of a partition, and that stream. -/
def arming (part : Nat) (cmd : List Byte) (v : Mov) : State :=
  { base with
    cores := [(7, { ctx := some { ctx1 with part := part }, sq := [⟨cmd, 15, 1, 0, ref1⟩] })]
    movers := tblOf (fun _ => {}) [(movKey (.nc 7 15), v)] }

/-- A MOVE of one pair with its list at 0x1000. -/
def move1 : List Byte := natLe 2 1 ++ List.replicate 6 0 ++ natLe 4 1 ++ natLe 4 0 ++ natLe 8 0x1000 ++ natLe 8 0

/-- Channel 31 with a task whose MOVE command names it; own says whether partition 0, which owns the graph, owns the channel. -/
def channelTask (own : Bool) : State :=
  let cmd := natLe 2 1 ++ [0, 31] ++ List.replicate 4 0 ++ natLe 4 1 ++ List.replicate 4 0 ++ natLe 8 0x1000 ++ natLe 8 0
  let s := engine .dma 32 cmd
  { s with
    units := tblOf (fun _ => {}) [(ukey .dma 31, { run := some ref1 })]
    regs := tblOf regRst (s.regs ++ [(pg .dma 0 + 0x200 + 0x20 * 31, if own then 0x100 else 0x101)]) }

theorem witness_StreamsArmFetchAndComplete :
    (let b := arrive 0 (arming 1 move1 {})
     Works b ∧ movPresent b (.nc 7 15) = true ∧
     (List.range 8).find? (fun n => match (coreAt b n).sq with | c :: _ => streamMover n c.stream == .nc 7 15 | [] => false) = some 7 ∧
     taskCtx b 7 ref1 = some { ctx1 with part := 1 } ∧ movOwner b (.nc 7 15) = some 1 ∧ armFull b (movKey (.nc 7 15)) = false ∧
     (match readMove move1 false with | some q => q.listSp == false | none => false) = true ∧ (movAt b (movKey (.nc 7 15))).active = none ∧
     readMove (List.replicate 32 0) false = none) ∧
    movOwner (arrive 0 (arming 0 move1 {})) (.nc 7 15) ≠ some 0 ∧
    armFull (arrive 0 (arming 1 move1 { active := some list1, shadow := some list1 })) (movKey (.nc 7 15)) = true ∧
    (let b := arrive 0 (chan31 { active := some list1 })
     runCmd b (.ch 31) = some list1 ∧ list1.copy = none ∧ 0 < list1.pairs ∧
     (match listRead (movCtx (.ch 31) list1) list1 0 1 (asActor .dma 0 0 b) with | (.ok l, _) => l.length == 128 | _ => false) = true) ∧
    (let b := arrive 0 { chan31 { active := some list1 } with hbm := [] }
     (match listRead (movCtx (.ch 31) list1) list1 0 1 (asActor .dma 0 0 b) with | (.error _, _) => true | _ => false) = true) := by decide +kernel

theorem witness_StreamsArmFetchAndComplete_run :
    movable (arrive 0 base) (.ch 31) = none ∧
    (∀ gone ∈ [false, true], let s := chan31 { active := some list1, descs := [pair1], slot := true }
     let b := arrive 0 { s with hbm := if gone then [] else s.hbm }
     let e := asActor .dma 0 0 b
     let t := runTo (.ch 31) list1 1 e
     movPresent b (.ch 31) = true ∧ movable e (.ch 31) = some list1 ∧ (movAt b (movKey (.ch 31))).bad = none ∧ pacedCh b (.ch 31) = false ∧
     (unitAt b .dma 31).run = none ∧ (movAt t (movKey (.ch 31))).err.isSome = gone ∧ (movAt t (movKey (.ch 31))).remW = []) ∧
    (let c : MovCmd := { part := 0, copy := some (0x4000, 0x5000, 1) }
     let b := arrive 0 (chan31 { active := some c, descs := [pair1], slot := true })
     let e := asActor .dma 0 0 b
     movable e (.ch 31) = some c ∧ c.task = none ∧ c.copy ≠ none ∧ pacedCh b (.ch 31) = false ∧ (unitAt b .dma 31).run = none) ∧
    (∀ own ∈ [false, true], let s := channelTask own
     let b := arrive 0 s
     let e := asActor .dma 0 0 b
     (unitAt b .dma 31).run = some ref1 ∧ (unitAt b .dma 31).done = none ∧ (unitAt b .dma 31).pre = none ∧
     (movAt b (movKey (.ch 31))).active = none ∧ (movAt b (movKey (.ch 31))).shadow = none ∧ (movAt b (movKey (.ch 31))).cut = none ∧
     (match chCommand e 31 ref1 with | .ok _ => own | .error q => q == 0x13 && !own) = true) := by decide +kernel

theorem witness_HaltedMoversResumeOrEnd_halts :
    runCmd (advance (asActor .dma 0 0 (arrive 0 base)) (.ch 31) 0) (.ch 31) = none ∧
    (∀ x ∈ [({ halted := true } : Mov), { err := some (0x30, false, 0) }, { err := some (0x20, false, 0) }, { bad := some (0, 0x21, 0) }, {}],
     let b := arrive 0 (chan31 { x with active := some list1 })
     let h := advance (asActor .dma 0 0 b) (.ch 31) 0
     let w := movAt h (movKey (.ch 31))
     Works b ∧ movPresent b (.ch 31) = true ∧ runCmd h (.ch 31) = some list1 ∧ w.halted = x.halted ∧ w.remW = [] ∧ w.err = x.err ∧ w.bad = x.bad ∧
     w.pair = w.descs.length ∧ w.final = false ∧ retried h (.ch 31) 0x30 = true ∧ retried h (.ch 31) 0x20 = false) := by decide +kernel

theorem witness_HaltedMoversResumeOrEnd :
    (let b := arrive 100000000 (chan31 { active := some list1, halted := true, cause := 0x20 })
     Works b ∧ (movAt b (movKey (.ch 31))).halted = true ∧ writesAt b .fw (pg .dma 0 + 0x21C + 0x20 * 31) = true ∧
     fld (regN b (pg .dma 0 + 0x100)) 0 20 ≠ 0 ∧ fld (regN b (pg .dma 0 + 0x100)) 0 20 * 1000 ≤ (b.time - (movAt b (movKey (.ch 31))).haltAt).toNat) ∧
    (let b := arrive 0 { base with movers := [(movKey (.nc 7 15), { active := some list1, halted := true, elem := 3 })] }
     (movAt b (movKey (.nc 7 15))).halted = true ∧ (movAt b (movKey (.nc 7 15))).elem ≠ 0xFFFFFFFF ∧ list1.mode = 0 ∧ writesAt b .fw (pg .ncse 7 + 0x108) = true) ∧
    (let b := arrive 0 { base with movers := [(movKey (.vs 3 31), { active := some list1, halted := true })] }
     (movAt b (movKey (.vs 3 31))).halted = true ∧ writesAt b .fw (pg .vse 3 + 0x108) = true) ∧
    (let b := arrive 0 (chan31 { active := some { list1 with copy := some (0, 0x80, 64) } })
     (movAt b (movKey (.ch 31))).active = some { list1 with copy := some (0, 0x80, 64) }) ∧
    (let s := chan31 { active := some list1, descs := [pair1], slot := true }
     let b := arrive 0 { s with applied := tblOf regRst (s.applied ++ [(pg .dma 0 + 0x204 + 0x20 * 31, 0x3F11)]) }
     pacedCh b (.ch 31) = true ∧ movable (asActor .dma 0 0 b) (.ch 31) = some list1 ∧
     (movAt b (movKey (.ch 31))).pair < (movAt b (movKey (.ch 31))).descs.length ∧ reqLine (asActor .dma 0 0 b) 31 = false) ∧
    (∀ gone ∈ [false, true], let s := chan31 { active := some list1, descs := [pair1], slot := true }
     let b := arrive 0 { s with
        hbm := if gone then [] else s.hbm
        regs := tblOf regRst (s.regs ++ [(pg .dma 0 + 0x110, 1)])
        applied := tblOf regRst (s.applied ++ [(pg .dma 0 + 0x204 + 0x20 * 31, 0x0010)]) }
     pacedCh b (.ch 31) = true ∧ movable (asActor .dma 0 0 b) (.ch 31) = some list1 ∧ reqLine (asActor .dma 0 0 b) 31 = true ∧
     (movAt (runMov (.ch 31) list1 1 2 (some (512 * max 1 0)) (asActor .dma 0 0 b)) (movKey (.ch 31))).err.isSome = gone) := by decide +kernel

theorem witness_MatchSetsTakeEffect :
    (let b := arrive 0 { base with fms := { base.fms with own := [(9, 259)] } }
     writesAt b (.pf 3) (fmsPg + 0x14C) = true ∧ genLocked b 3 = false ∧ ownsSet b 3 9 = true ∧ ownsSet b 3 8 = false) ∧
    (let b := arrive 0 base
     writesAt b .fw (fmsPg + 0x118) = true ∧ (curVer b 0).count = 0 ∧ retiring b 0 = [] ∧ (curVer b 0).holders = [] ∧
     (curVer (arrive 0 { base with fms := { base.fms with sets := [(0, [⟨0, 1, 0, []⟩])] } }) 0).count ≠ 0) ∧
    (let cmd := natLe 2 3 ++ List.replicate 20 0 ++ [9]
     let b := arrive 0 { engine .ftr 64 cmd with fms := { base.fms with own := [(9, 256)] } }
     let t := startTask b .ftr 0
     let e := asActor .ftr 0 (opOf t .ftr 0) t
     Works b ∧ present b .ftr 0 = true ∧ ftrOp e 0 = 3 ∧ e.fms.loads = [] ∧
     (match vtask e .ftr 0 with
      | some v => (match ftrCommand v e with | (.ok c, x) => ownsSet x v.part (leAt c 22 1) && leAt c 22 1 == 9 | _ => false)
      | none => false) = true) ∧
    (∀ l ∈ [0, 64], let cmd := natLe 2 3 ++ List.replicate 20 0 ++ [9]
     let b := arrive 0 (engine .ftr l cmd)
     let t := startTask b .ftr 0
     let e := asActor .ftr 0 (opOf t .ftr 0) t
     present b .ftr 0 = true ∧ ftrOp e 0 = 3 ∧ e.fms.loads = [] ∧
     (match vtask e .ftr 0 with
      | some v => (match ftrCommand v e with | (.ok c, x) => l == 64 && !ownsSet x v.part (leAt c 22 1) | (.error _, _) => l == 0)
      | none => false) = true) ∧
    (let h := natLe 4 0x31534D46 ++ natLe 4 1 ++ natLe 4 0
     let f := h ++ natLe 4 (crc32 h) ++ List.replicate 36 7
     let l : MsLoad := ⟨9, 0, 0, 0x100, 0, 5, false, true, none, false, false, 0, false, 0⟩
     let b := arrive 0 { mapped 0x100 f (at' [(fmsPg + 0x180, 1)]) with fms := { base.fms with own := [(9, 256)], loads := [l] } }
     Works b ∧ b.fms.loads.any (·.started) = false ∧ b.commits.contains (pg .fms 0) = false ∧ b.fms.loads.find? (fun l => !l.deferred) = some l ∧
     (match planeRead 0 0 0x100 16 b with
      | (.ok k, x) => setFileOk k && leAt k 4 4 == 1 && !storeBusy x 5 1 && decide (fmsUse x 0 + 1 ≤ regN x (fmsPg + 0x180) % 2 ^ 18) &&
        (match planeRead 0 0 0x110 36 x with | (.ok _, _) => true | _ => false)
      | _ => false) = true ∧
     setFileOk (h ++ natLe 4 0) = false) ∧
    (let l : MsLoad := ⟨9, 0, 0, 0, 0, 0, true, true, none, false, true, 0, false, 0⟩
     let b := arrive 0 { base with fms := { base.fms with loads := [l] } }
     b.fms.loads.find? (·.started) = some l) := by decide +kernel

theorem witness_MemoryEventsTakeEffect :
    (let b := arrive 0 { base with invs := [3] }
     writesAt b .fw (nocPg + 0x148) = true ∧ Works b ∧ b.invs.contains 3 = true ∧ (dlogAt b 3).fault = false ∧ (cmdwAt b 3).fault = false ∧
     (cmdwAt b 3).wbFault = false ∧ b.safe.vfault = false ∧ writesAt b .fw (hbmPg 3 + 0x184) = true) ∧
    (let b := arrive 0 (applied [(hbmPg 1 + 0x100, 1)] base)
     bitOf (app b (hbmPg 1 + 0x100)) 0 = true ∧ present b .hbm 1 = true ∧ (hbmPlace b (8 * 1024)).1 = 1 ∧ 8 * 1024 < hbmCap b ∧
     b.hbmUe.contains 1024 = false) := by decide +kernel

/-! ## Witnesses: safety and power -/

/-- A hamper of flow 0 of graph 0 formed at 0. -/
def hamper1 : Hamper := ⟨0, 0, 0, 0, 0, 1, 0, false, false, false, [], []⟩

/-- A core with changed slots. -/
def core7 (u : UnitSt) : State := { base with units := tblOf (fun _ => {}) [(ukey .nc 7, u)] }

/-- A pair of a node in two cores with signatures. -/
def pairOf (a b : Nat) : DualPair := ⟨0, 0, 0, 0, 0, some (0, a), some (0, b), (0, 1), false, false⟩

theorem witness_TastersAndComparisonsTakeEffect :
    (let b := arrive 10000000 (core7 {})
     Works b ∧ tasterIdx .nc 7 = some 25 ∧ present b .nc 7 = true ∧ (unitAt b .nc 7).quarantined = false ∧
     (unitAt b .nc 7).tasterIvl ≠ (tasterDueAt b 25).2 ∧ (tasterDueAt b 25).1 ≤ now b ∧ (unitAt b .nc 7).tasterDue = none ∧ (unitAt b .nc 7).tasterOn = none) ∧
    (let b := arrive 0 (core7 { tasterDue := some 0 })
     (unitAt b .nc 7).tasterDue ≠ none ∧ (unitAt b .nc 7).tasterOn = none ∧ (unitAt b .nc 7).run = none) ∧
    (let b := arrive 40000 (core7 { tasterOn := some 0 })
     (unitAt b .nc 7).tasterOn = some 0 ∧ 40000 ≤ (b.time - 0).toNat ∧ injArmed b .safe 0 1 = false) ∧
    (let b := arrive 5000000 (core7 { tasterDue := some 0, run := some ref1 })
     (unitAt b .nc 7).tasterDue = some 0 ∧ regN b (safePg + 0x10C) * 1000 ≤ (b.time - 0).toNat) ∧
    (∀ g ∈ [5, 6], let b := arrive 0 { base with safe := { base.safe with pairs := [pairOf 5 g] } }
     b.safe.pairs.find? (fun d => !d.compared && d.prim.isSome && d.chk.isSome) = some (pairOf 5 g) ∧ injArmed b .safe 0 0 = false) ∧
    (let b := arrive 0 base
     injArmed b .safe 0 3 = false ∧ ∀ k ∈ List.range 256, (ageAt b k).valid = false) ∧
    (let b := arrive 101000 { base with graphs := [(0, graph1 0x31 .started)], hampers := [hamper1], ages := [(255, { valid := true, bound := 100 })] }
     (ageAt b 255).valid = true ∧ (∀ k ∈ List.range 255, (ageAt b k).valid = false) ∧ oldestHamper b 0 0 = some hamper1 ∧
     (ageAt b 255).bound < ageOf b hamper1 ∧ (ageAt b 255).overdueSeq ≠ some hamper1.seq) := by decide +kernel

theorem witness_FaultsAreRecordedAndAnswered :
    (let b := arrive 1000000 { base with safe := { base.safe with hbOn := true } }
     Awake b ∧ b.safe.react = [] ∧ b.safe.faults.length < 32 ∧ b.pwr.switchAt = none ∧ b.safe.hbOn = true ∧ 1000000 ≤ (b.time - b.safe.hbAt).toNat ∧
     clkExpect b 12 = some 1000 ∧ writesAt b .fw (safePg + 0x144) = true ∧ writesAt b .fw (safePg + 0x100) = true) ∧
    (let b := arrive 0 { base with safe := { base.safe with react := [⟨0, 0x50, 3, 0, 0, 0, 0, 0, 0⟩] } }
     b.safe.react ≠ []) ∧
    (let b := arrive 0 { base with safe := { base.safe with badClk := [12] } }
     12 ∈ b.safe.badClk ∧ 1000 < 50 * (1021 - 1000)) ∧
    (let b := arrive 0 (at' [(safePg + 0x104, 3), (safePg + 0x128, 8)])
     bitOf (regN b (safePg + 0x104)) 1 = true ∧ bitOf (regN b (safePg + 0x104)) 2 = false ∧ regN b (safePg + 0x128) ≠ 0 ∧ isRunning b = true ∧
     writesAt b .fw (safePg + 0x100) = true) ∧
    32 ≤ (({ base with safe := { base.safe with faults := List.replicate 32 ⟨0, 1, 3, 0, 0, 0, 0, 0, 0⟩ } }).safe.faults).length := by decide +kernel

/-- The block with changed power state. -/
def power (f : Pwr → Pwr) : State := { base with pwr := f base.pwr }

theorem witness_PowerTransitionsTakeEffect :
    (let b := arrive 0 (power (fun w => { w with step := 2 }))
     Awake b ∧ b.pwr.step = 2) ∧
    (∀ t ∈ [5, 12], let b := arrive 1000000 (power (fun w => { w with step := 3, target := t, tickAt := 1000000, sampleAt := 1000000, thermAt := 1000000 }))
     b.pwr.step = 3 ∧ (match settleNs b with | some n => decide (n ≤ since b b.pwr.stepAt) | none => false) = true ∧ (b.pwr.cur < b.pwr.target ↔ t = 12)) ∧
    (let b := arrive 20000 (power (fun w => { w with step := 5, target := 12 }))
     b.pwr.step = 5 ∧ 20000 ≤ since b b.pwr.stepAt) ∧
    (∀ x ∈ [false, true], let b := arrive 0 (power (fun w => { w with step := 6, target := 12, emerg := x }))
     b.pwr.step = 6 ∧ switchFree b = true ∧ b.pwr.emerg = x) ∧
    (let b := arrive 50 (power (fun w => { w with tripped := [0] }))
     b.pwr.tripped ≠ [] ∧ 50 ≤ since b b.pwr.droopAt ∧ b.pwr.step = 0) ∧
    (let b := arrive 1000 (power (fun w => { w with droop := 8 }))
     b.pwr.tripped = [] ∧ b.pwr.droop ≠ 0 ∧ 1000 ≤ since b b.pwr.droopAt) ∧
    (∀ x ∈ [60], x ≤ 60) ∧ (∃ x ∈ [61], 60 < x) := by decide +kernel

theorem witness_PowerIsMeasuredAndLimited :
    (let b := arrive 1000000 base
     Awake b ∧ 1000000 ≤ since b b.pwr.tickAt ∧ b.commits.contains (pg .pwr 0) = false ∧ 1000 ≤ since b b.pwr.sampleAt ∧ 100000 ≤ since b b.pwr.thermAt ∧
     b.pwr.injTemp = none ∧ b.pwr.invalid = [] ∧ b.pwr.shutdown = false ∧ b.safe.faults.length < 32 ∧ writesAt b .fw (pw 0x318) = true) ∧
    (∀ t ∈ List.replicate 48 (400 : Int), -160 ≤ t ∧ t ≤ 600) ∧ (List.replicate 48 (400 : Int)).length = 48 ∧ since (arrive 0 base) (arrive 0 base).pwr.tickAt < 1000000 ∧
    (let b := arrive 0 { applied [(pw 0x1A4, 0x10000), (pw 0x1B0, 0x10000)] base with pwr := { base.pwr with badPolls := 2 } }
     slotValid b 3 = true ∧ slotValid b 0 = true ∧ injArmed b .pwr 0 2 = false ∧ b.pwr.badPolls = 2 ∧ pollDue b 3 0x96 = true ∧
     pollDue b 0 0x8B = true ∧ pollDue b 0 0x79 = true ∧ slotValid b 1 = false) ∧
    (let b := arrive 100000 (power (fun w => { w with emergLevel := 4 }))
     b.pwr.emerg = false ∧ b.pwr.emergLevel ≠ 0 ∧ 100000 ≤ since b b.pwr.emergAt) := by decide +kernel

/-! ## Witnesses: the transport -/

/-- Node 7 with entry 3 for node 9, of partition 0 on port 0, and link 0 of fabric port 0 up. -/
def net : State :=
  let s := applied [(rv 0x100, 7), (pg .fabp 0 + 0x100, 3)] base
  { s with rolv := { s.rolv with links := [0], peers := [(3, natLe 2 9 ++ [0x80, 0] ++ natLe 2 1 ++ List.replicate 58 0)] } }

/-- A datagram of a type from a node to node 7, of a PSN. -/
def dgramFrom (src ty psn : Nat) : Dgram :=
  let b := [1, BitVec.ofNat 8 ty, 1, 0] ++ natLe 2 src ++ natLe 2 7 ++ natLe 4 psn ++ List.replicate 28 0
  ⟨b ++ natLe 4 (crc32 b), false, false⟩

/-- The same from node 9. -/
def dgram (ty psn : Nat) : Dgram := dgramFrom 9 ty psn

theorem witness_PacketsArriveAtTheirConnection :
    (match rxDgram (arrive 0 net) 0 (dgramFrom 10 1 0) with | (some x, t) => (rxPeer t x).isNone | _ => false) = true ∧
    Works (arrive 0 net) ∧
    (∀ ty ∈ [1, 2, 3, 4, 5, 6, 7, 8, 9, 10, 11, 12, 13, 15], (match rxDgram (arrive 0 net) 0 (dgram ty 0) with
      | (some x, t) => x.ty == ty && x.dst == ownNode t && rxPeer t x == some 3
      | _ => false) = true) ∧
    crcOk [1, 2, 3] = false ∧ injArmed (arrive 0 net) .fabp 0 0 = false ∧ (arrive 0 net).rolv.links.contains 0 = true ∧ rolvOn (arrive 0 net) = true ∧
    (arrive 0 net).rolv.links.contains 1 = false ∧
    (match rxDgram (arrive 0 net) 0 ⟨[], false, false⟩ with | (none, _) => true | _ => false) = true := by decide +kernel

/-- What such a datagram carries. -/
def rx (ty psn spec : Nat) : Rx := { ty := ty, flags := 1, sp := 0, dp := 0, src := 9, dst := 7, psn := psn, ackPsn := 0, sack := 0, spec := spec, pay := [] }

theorem witness_PacketsApplyInOrder : 128 ≤ psnGap 128 (connAt net 3).rcv ∧ psnGap 0 (connAt net 3).rcv = 0 ∧ (applyPkt net 3 (rx 11 0 0)).isSome = true ∧
    bitOf (rx 11 0 0).flags 0 = true ∧ 0 < psnGap 127 (connAt net 3).rcv ∧ psnGap 127 (connAt net 3).rcv < 128 ∧
    (connAt net 3).held.any (fun p => p.psn == 127) = false ∧ (connAt net 3).held.find? (fun y => y.psn == (connAt net 3).rcv) = none ∧
    applyPkt (applied [(bg 0 0, 0x80010000 + 0x8000)] net) 3 (rx 10 0 0) ≠ none := by decide +kernel


/-- Core 0 of partition 0 with window 0 open to the nodes for sixteen rows, written by partition 0. -/
def netCore : State :=
  { net with
    regs := tblOf regRst ((partAddr .nc 0, 0) :: net.regs)
    applied := tblOf regRst (net.applied ++ [(spc 0 + 0x100, 0x80000000), (spc 0 + 0x104, 0xF), (spc 0 + 0x108, 0xC00), (spc 0 + 0x10C, 0xFFFF0000)]) }

/-- The same packet with a payload of a line. -/
def rxPay (ty spec : Nat) : Rx := { rx ty 0 spec with pay := List.replicate 64 1 }

theorem witness_PacketTypesTakeEffect :
    (match remAccess netCore (rxPay 1 0) 64 false with | (.ok (c, o), t) => (match spWrite c o (rxPay 1 0).pay t with | (.ok (), _) => true | _ => false) | _ => false) = true ∧
    (match remAccess net (rxPay 1 0) 64 false with | (.error _, _) => true | _ => false) = true ∧
    (match remAccess netCore (rx 2 0 (2 ^ 32)) 64 true with | (.ok (c, o), t) => (match spWide c o 64 t with | (.ok _, _) => true | _ => false) | _ => false) = true ∧
    (match remAccess net (rx 2 0 (2 ^ 32)) 64 true with | (.error _, _) => true | _ => false) = true ∧
    rcmdRefused net (rx 6 0 7) = true ∧
    twf (fun _ => {}) net.rolv.conns = true ∧ twf (fun _ => 0) (connAt net 3).credits = true ∧ bitOf (rx 9 0 5).spec 24 = false ∧
    bgValid net 5 = false ∧ twf regRst net.regs = true ∧
    (let t := applied [(bg 5 0, 0x80018000)] base
     bgValid t 5 = true ∧ bgSelf t 5 = true) ∧
    (let t := { net with rolv := { net.rolv with submits := tblOf (fun _ => none) [(2, some 3)] } }
     tget (fun _ => (none : Option Nat)) t.rolv.submits 2 = some 3 ∧ fld (rx 7 0 (2 * 2 ^ 32)).spec 32 8 = 2) := by decide +kernel

/-- The image of a graph whose one trigger is a REMOTE one with tag 3. -/
def graphTag : Graph :=
  let g := graph1 0x31 .started
  { g with
    img := { g.img with trigs := g.img.trigs.map (fun t => { t with kind := 4 }) }
    flows := [{ highResv := some 0xFFFFFFFF }] }

theorem witness_PacketTypesTakeEffect_trigger :
    (let s := { net with graphs := [(0, graphTag)] }
     tagFlow s 0 3 = some (0, 0) ∧ tablesRoom s 0 0 = true ∧ (flowAt (graphAt s 0) 0).stopped = false ∧
     (flowAt (graphAt s 0) 0).highResv = some 0xFFFFFFFF ∧ seqAbove (BitVec.ofNat 32 (fld (rx 8 0 3).spec 16 32)) 0xFFFFFFFF = true) := by decide +kernel

/-- The state `net` with a changed connection of entry 3. -/
def conn3 (c : Conn) (s : State) : State := setConn s 3 c

theorem witness_TransportTimersTakeEffect :
    (let b := arrive 2000000000 net
     Works b ∧ rolvOn b = true ∧ peerUp b 3 = true ∧ exhausted b 3 = false ∧ linkOf b 3 = some 0 ∧
     fld (app b (rv 0x11C)) 0 16 ≠ 0 ∧ fld (app b (rv 0x11C)) 0 16 * 1000 ≤ (b.time - (connAt b 3).txAt).toNat ∧
     fld (app b (rv 0x11C)) 16 16 ≠ 0 ∧ fld (app b (rv 0x11C)) 16 16 * 10000 ≤ (b.time - (connAt b 3).rxAt).toNat ∧
     fld (app b (rv 0x120)) 8 8 * 1000 ≤ (b.time - (connAt b 3).periodAt).toNat ∧
     b.rolv.links.contains 0 = true ∧ 100000000 ≤ now b - tget (fun _ => 0) b.rolv.helloAt 0 ∧ b.rolv.links.contains 1 = false ∧ linkExists b 1 = true) ∧
    30000000000 ≤ now (arrive 30000000000 net) ∧
    (let b := arrive 2000 (conn3 { connAt net 3 with unackedAt := some 0 } net)
     (connAt b 3).unackedAt = some 0 ∧ 2000 ≤ (b.time - 0).toNat) ∧
    (let b := arrive 0 { net with rolv := { net.rolv with links := [] } }
     Works b ∧ peerUp b 3 = true ∧ linksDown b 3 = true) ∧
    (let b := arrive 0 { net with rolv := { net.rolv with peers := [] } }
     b.rolv.links.contains 0 = true ∧ (livePeers b).filter (fun i => linkOf b i == some 0) = []) ∧
    (let b := arrive 2000000000 { net with applied := tblOf regRst (net.applied ++ [(rv 0x1100, 0x10001)]) }
     bitOf (app b (rv 0x1100)) 0 = true ∧ 2000000000 ≤ (b.time - b.rolv.ptpAt).toNat ∧ ptpOn b 0 = true ∧ (frameIn b 0).1 = true ∧
     beAt ([0, 2] ++ List.replicate 42 0) 4 1 = fld (app b (rv 0x1100)) 4 4 ∧ beAt ([0, 2] ++ List.replicate 42 0) 1 1 % 16 = 2 ∧
     nth 0 [0, 0, 0, 0, 0, 0, 0, 0] 7 = beAt ([0, 2] ++ List.replicate 42 0) 20 8) := by decide +kernel

/-- The BARRIER and SIGNAL command of 32 bytes. -/
def remCmd (op group peer tag : Nat) : List Byte := natLe 2 op ++ natLe 2 group ++ natLe 2 peer ++ natLe 2 tag ++ List.replicate 24 0

/-- `net` with group 5 owned by partition 0, of two members, its root at entry 3. -/
def netGroup : State := { net with applied := tblOf regRst (net.applied ++ [(bg 5 0, 0x80010003)]) }

/-- A task with such a command of 32 bytes runs on operation unit 255. -/
def remTask (cmd : List Byte) (s : State) : State :=
  let t := running1 .rolv (mapped 0x1000 cmd s)
  let g := graph1 0x81 .started
  { t with
    graphs := [(0, { g with img := { g.img with tasks := g.img.tasks.map (fun x => { x with cmdLen := 32 }) } })]
    units := tblOf (fun _ => {}) [(ukey .rolv 255, { run := some ref1 })] }

/-- As the statement's e. -/
def remE (s : State) : State := let t := startTask (arrive 0 s) .rolv 0; asActor .rolv 255 (opOf t .rolv 255) t

theorem witness_RemoteOperationsTakeEffect_tasks :
    (let s := remTask (remCmd 1 5 0 0) netGroup
     let e := remE s
     Works (arrive 0 s) ∧ unitThere (arrive 0 s) .rolv 255 = true ∧ rolvOn e = true ∧ (unitAt e .rolv 255).run = some ref1 ∧
     (unitAt e .rolv 255).done = none ∧ (remOp e 255).acted = false ∧ (remCmdOf e ref1).isSome = true ∧ bgValid e 5 = true ∧ bgOwner e 5 = 0 ∧
     2 ≤ bgMembers e 5 ∧ bgSelf e 5 = false ∧ peerUp e (bgRoot e 5) = true) ∧
    (let e := remE (remTask (remCmd 3 0 0 0) net)
     remCmdOf e ref1 = none ∧ (remOp e 255).acted = false) ∧
    (let e := remE (remTask (remCmd 1 5 0 0) net)
     (remCmdOf e ref1).isSome = true ∧ bgValid e 5 = false) ∧
    (let s := remTask (remCmd 2 0 3 7) (setCredits net 3 7 1)
     let e := remE s
     (remCmdOf e ref1).isSome = true ∧ (connAt e 3).flight = [] ∧ (connAt e 3).queue = [] ∧ peerValid e 3 = true ∧ peerOwner e 3 = 0 ∧
     (connAt e 3).state ≠ 2 ∧ (connAt e 3).taken.contains 7 = false ∧ 0 < creditsFor e 3 7) ∧
    (let e := remE (remTask (remCmd 2 0 4 7) net)
     (remCmdOf e ref1).isSome = true ∧ peerValid e 4 = false) ∧
    (let e := remE (remTask (remCmd 2 0 3 7) (setConn net 3 { state := 2 }))
     (remCmdOf e ref1).isSome = true ∧ peerValid e 3 = true ∧ (connAt e 3).state = 2) := by decide +kernel

theorem witness_RemoteOperationsTakeEffect :
    (let b := arrive 0 net
     writesAt b .fw (rv 0x184) = true ∧ peerValid b (regN b (rv 0x180) % 2 ^ 14) = false ∧ Works b ∧ rolvOn b = true ∧ b.rolv.links.contains 0 = true ∧
     (ethBody (List.replicate 12 0 ++ [0x08, 0x00])).1 ≠ 0x88CC ∧ (ethBody (List.replicate 12 0 ++ [0x88, 0xCC])).1 = 0x88CC ∧ regN b (rv 0x148) = 0 ∧
     injArmed b .fabp 0 0 = false ∧ (frameIn b 0).1 = true) ∧
    (let b := arrive 0 { net with regs := tblOf regRst ((pg .fabp 0 + 0x1C, 1) :: net.regs) }
     injArmed b .fabp 0 0 = true) ∧
    (let b := arrive 0 { net with regs := tblOf regRst ([(rv 0x148, 6), (rv 0x14C, 64)] ++ net.regs) }
     regN b (rv 0x148) ≠ 0 ∧ ringFull b (rv 0x14C) (rv 0x150) (rv 0x148) = true) ∧
    (∀ p ∈ [0, 3], let b := arrive 0 net
     writesAt b (.pf p) (rv (0x3004 + 0x100 * p)) = true ∧ fld (regN b (rv (0x3000 + 0x100 * p) + 8)) 0 2 ≠ 1 ∧
     peerValid b (regN b (rv (0x3000 + 0x100 * p)) % 2 ^ 14) = false) ∧
    (let b := arrive 0 { net with regs := tblOf regRst ((rv 0x3000, 3) :: net.regs) }
     fld (regN b (rv 0x3008)) 0 2 ≠ 1 ∧ peerValid b (regN b (rv 0x3000) % 2 ^ 14) = true ∧ peerOwner b (regN b (rv 0x3000) % 2 ^ 14) = 0 ∧
     (connAt b (regN b (rv 0x3000) % 2 ^ 14)).state ≠ 2) ∧
    (let b := arrive 0 { net with regs := tblOf regRst ((rv 0x3008, 1) :: net.regs) }
     fld (regN b (rv 0x3008)) 0 2 = 1) ∧
    (let b := arrive 0 { net with applied := tblOf regRst (net.applied ++ [(rv 0x104, 1)]) }
     let f : List Byte := List.replicate 12 0 ++ [8, 6, 0, 1, 8, 0, 6, 4, 0, 1] ++ List.replicate 10 1 ++ List.replicate 6 0 ++ (ownIp b).take 4
     ipv4 b = true ∧ (ethBody f).1 = 0x0806 ∧ beAt (ethBody f).2 0 8 = 0x0001080006040001 ∧ ((ethBody f).2.drop 24).take 4 = (ownIp b).take 4) ∧
    (∀ d ∈ [0, 1], let b := arrive 0 net
     let h : List Byte := [1, 14, 1, 0] ++ natLe 2 9 ++ natLe 2 7 ++ List.replicate 32 0
     let p : List Byte := natLe 2 9 ++ natLe 2 d ++ List.replicate 60 0
     let g : Dgram := ⟨h ++ p ++ natLe 4 (crc32 (h ++ p)), false, false⟩
     (match rxDgram b 0 g with
      | (some x, u) => x.ty == 0x0E && (decide (leAt x.pay 2 2 = ownDomain u) == (d == 0)) && leAt x.pay 0 2 != ownNode u
      | _ => false) = true) := by decide +kernel

/-! ## Witnesses: starts, OTP, trace and debug -/

/-- A block in a start at a step. -/
def start (cold : Bool) (step : Nat) : State := { State.reset with boot := { State.reset.boot with cold := cold, starting := true, step := step } }

theorem witness_StartsAreRequested :
    (let b := arrive 0 base
     Awake b ∧ writesAt b .fw (bt 0x104) = true ∧ bootState b = 2 ∧ b.pwr.shutdown = false ∧ b.boot.prog = none ∧ b.boot.starting = false) ∧
    (let b := arrive 0 (at' [(bt 0x100, 3)])
     bootState (arrive 0 { base with regs := tblOf regRst [(bt 0x100, 3)] }) = 3 ∧ Awake b) ∧
    (∀ c ∈ [false, true], let b := arrive 0 (start c 1)
     b.boot.prog = none ∧ b.boot.starting = true ∧ b.boot.cold = c) ∧
    (let b := arrive 0 { base with boot := { base.boot with prog := some (0x60, 1, 0) } }
     Awake b ∧ b.boot.prog = some (0x60, 1, 0)) := by decide +kernel

theorem witness_StartStepsTakeEffect :
    (let b := arrive 0 base
     Awake b ∧ b.boot.starting = false) ∧
    (let b := arrive 0 (start true 1)
     b.boot.starting = true ∧ b.boot.step = 1 ∧ b.boot.cold = true ∧ b.pwr.tj < 380 ∧ fixedOk b = true ∧ variantOk (fuseWord b) = true) ∧
    (let b := arrive 60000000000 { start true 1 with pwr := { State.reset.pwr with tj := 380 } }
     b.boot.starting = true ∧ 380 ≤ b.pwr.tj ∧ 60000000000 ≤ since b b.boot.startAt) ∧
    (let b := arrive 0 { start true 1 with boot := { (start true 1).boot with otp := [] } }
     fixedOk b = false ∨ useGen b = none) ∧
    (let b := arrive 0 (start true 2)
     b.boot.starting = true ∧ b.boot.step = 2 ∧ b.boot.cold = true) ∧
    (let b := arrive 0 (start false 2)
     b.boot.starting = true ∧ b.boot.step = 2 ∧ b.boot.cold = false ∧ repairSig b.boot.repair = reg64 b (bt 0x118) (bt 0x11C)) ∧
    (∀ c ∈ [false, true], ∀ n ∈ [3, 4, 5, 6], (arrive 0 (start c n)).boot.starting = true ∧ (arrive 0 (start c n)).boot.step = n) ∧
    (match imageBytes (arrive 0 (start true 5)) with | some (l, _) => !imageOkFmt l | none => false) = true ∧
    (∃ i ∈ [9], i < 10) ∧
    since (arrive 2000000000 (start true 6)) (arrive 2000000000 (start true 6)).boot.stepAt = 2000000000 := by decide +kernel

theorem witness_OtpAndAttestationTakeEffect :
    (let b := arrive 0 base
     writesAt b .fw (ot 0x10C) = true ∧ bitOf (1 : Word).toNat 0 = true ∧ b.boot.prog = none ∧ writesAt b .fw (se 0x120) = true ∧ b.boot.att = none) ∧
    (let b := arrive 0 (at' [(ot 0x100, 0x60)])
     progRefused b (regN b (ot 0x100) &&& 0xFFC) = false) ∧
    (let b := arrive 0 (at' [(ot 0x100, 0x100)])
     progRefused b (regN b (ot 0x100) &&& 0xFFC) = true) ∧
    (let b := arrive 0 (at' [(ot 0x100, 0x9C)])
     regN b (ot 0x100) &&& 0xFFC &&& 0xFE0 = 0x80) ∧
    (∀ w ∈ [none, some 2], let b := arrive 20000 { base with boot := { base.boot with prog := some (0x60, 1, 0), waiting := w } }
     Awake b ∧ b.boot.prog = some (0x60, 1, 0) ∧ 20000 ≤ since b 0 ∧ b.boot.waiting = w) ∧
    since (arrive 19999 base) 0 < 20000 ∧
    (let b := arrive 0 { base with boot := { base.boot with att := some (List.replicate 32 0) } }
     Awake b ∧ b.boot.att.isSome = true ∧ writesAt b .fw (se 0x120) = true) := by decide +kernel

theorem witness_CountersAndTriggerTakeEffect :
    (let b := arrive 0 base
     Awake b ∧ writesAt b .fw (db 0x100) = true ∧ writesAt b .fw (db 0x310) = true ∧ writesAt b .fw (db 0x120) = true ∧ frozen b = false ∧ b.dbg.freezeAt = none) ∧
    (∀ t ∈ [31, 32], let b := arrive t { base with dbg := { base.dbg with freezeAt := some (32, true) } }
     Awake b ∧ b.dbg.freezeAt = some (32, true) ∧ ((32 : DWord).toNat ≤ b.time.toNat ↔ t = 32)) := by decide +kernel

theorem witness_StopAndReadOutTakeEffect :
    (let b := arrive 0 base
     Awake b ∧ writesAt b .fw (db 0x110) = true ∧ isStopped b = false ∧ bitOf (regN b (safePg + 0x104)) 0 = true ∧ writesAt b .fw (db 0x328) = true ∧
     bitOf (1 : Word).toNat 0 = true ∧ writesAt b .fw (db 0xC00) = true ∧ readable b .fw (db 0xC08) = true ∧ jtagOpen b = false) ∧
    (let b := arrive 0 (at' [(safePg + 0x104, 0)])
     isStopped b = false ∧ bitOf (regN b (safePg + 0x104)) 0 = false) ∧
    (let b := arrive 0 (at' [(dbgPg + 0x114, 1)])
     isStopped b = true ∧ Awake b ∧ readable b .fw (db 0xC08) = true) ∧
    readable (arrive 0 base) (.pf 1) (db 0xC08) = false ∧
    jtagOpen (arrive 0 { base with boot := { base.boot with fuses := 0x102FF07FF } }) = true := by decide +kernel

theorem witness_StopSilencesDataPlane :
    dataPlaneNs (.barrier 5 255) = some 5 ∧ isRunning (arrive 5 State.reset) = false ∧ (arrive 5 State.reset).boot.inReset = false ∧
    isRunning (arrive 5 (at' [(dbgPg + 0x114, 1)])) = true ∧ isStopped (arrive 5 (at' [(dbgPg + 0x114, 1)])) = true := by decide +kernel

/-- OTP whose generation 0 holds one byte of a key hash and no repair; its CRC is that of zlib. -/
def otpGen0 : Mem := memWrite (memWrite (memWrite [] 0x100 (natLe 4 0x314E4547)) 0x110 [1]) 0x4BC (natLe 4 0x8E033B7E)

set_option maxRecDepth 20000 in
theorem witness_StartStepsTakeEffect_generation :
    useGen (arrive 0 { start true 1 with boot := { (start true 1).boot with otp := otpGen0 } }) = some 0 := by decide +kernel

/-! ## Small commands, with what the spec says of them -/

/-- NC7's core control stands at 0x04E_0000 and shows version 1, instance 7, type 0x0040 (R66, R69, R70). -/
theorem test_blk_id_nc7 : regRead base .fw 0x04E_0000 = 0x0107_0040 := by decide +kernel

/-- The vector page of the same core has a type of its own (R66, R69). -/
theorem test_blk_id_ncv7 : regRead base .fw 0x04E_8000 % 2 ^ 16 = 0x0042 := by decide +kernel

/-- Offsets that hold no page read 0 (R70). -/
theorem test_no_page : regRead base .fw 0x00D_0000 = 0 := by decide +kernel

/-- RV_CFG, RV_RTO and the RSUB_HANDLE of partition 0 after reset (R512). -/
theorem test_transport_reset :
    regRead base .fw 0x084_0104 = 0x20 ∧ regRead base .fw 0x084_0118 = 0x7_0008 ∧ regRead base .fw 0x084_300C = 0x8000_0000 := by decide +kernel

/-- The command arguments of a partition's submission read back through it and PF0 alone (R512). -/
theorem test_rsub_data :
    leads (.registerWrite 0 (.pf 2) 0x084_3240 0x1234) base (fun t => regRead t (.pf 2) 0x084_3240 == 0x1234 && regRead t (.pf 0) 0x084_3240 == 0x1234 &&
      regRead t (.pf 1) 0x084_3240 == 0) = true := by decide +kernel

/-- A write of an RWS field reaches its shadow only (R71). -/
theorem test_shadow_write :
    leads (.registerWrite 0 .fw 0x084_0100 7) base (fun t => regN t (rv 0x100) == 7 && app t (rv 0x100) == 0) = true := by decide +kernel

/-- Time passes before a command (log entry 1). -/
theorem test_time : leads (.otpProgramDone 5 true) base (fun t => t.time == 5) = true := by decide +kernel

/-- A programmed word is ORed into the cells (R628). -/
theorem test_otp_or :
    leads (.otpProgramDone 20000 true) { base with boot := { base.boot with otp := memWrite [] 0x60 [2], prog := some (0x60, 0x101, 0) } }
      (fun t => t.boot.otp == [(0x60, 3), (0x61, 1)] && t.boot.prog.isNone) = true := by decide +kernel

/-- A trip raises the droop level to 8 and is counted (R558 and the example of chapter 19). -/
theorem test_droop_trips :
    leads (.droopTrip 0 (List.replicate 17 0 ++ [60] ++ List.replicate 30 0)) base (fun t => t.pwr.droop == 8 && t.pwr.tripped == [17]) = true := by decide +kernel

/-- 50 ns after the trip the level is 12 (R558 and the example of chapter 19). -/
theorem test_droop_rises :
    leads (.droopLevelStep 50) (power (fun w => { w with tripped := [17], droop := 8 })) (fun t => t.pwr.droop == 12) = true := by decide +kernel

/-- The level falls by 1 every µs once the rail is quiet (R558). -/
theorem test_droop_falls : leads (.droopLevelStep 1000) (power (fun w => { w with droop := 6 })) (fun t => t.pwr.droop == 5) = true := by decide +kernel

/-- BYPASS passes bits through one bit (R599). -/
theorem test_bypass : leads (.bypass 0 [true, true, false]) base (fun t => t.dbg.tdo == [false, true, true]) = true := by decide +kernel

/-- The check value of CRC-32. -/
theorem test_crc32 : crc32 [0x31, 0x32, 0x33, 0x34, 0x35, 0x36, 0x37, 0x38, 0x39] = 0xCBF4_3926 := by decide +kernel

/-- A command before the device runs only passes time (R603). -/
theorem test_not_running : leads (.barrier 3 0) State.reset (fun t => t == { State.reset with time := 3 }) = true := by decide +kernel

/-- An empty queue idles (log entry 27), and a step takes the command in front. -/
theorem test_step : (match step base with | .next t => t == base | _ => false) = true ∧
    (match step { base with pending := [.otpProgramDone 1 true, .otpProgramDone 2 true] } with
      | .next t => t.pending == [.otpProgramDone 2 true] && t.time == 1 | _ => false) = true := by decide +kernel

end Sys2Proof.Tests
end

section
/-! Pages of absent instances: what the accessors of a register page answer where its view is absent (R4, R5). -/

namespace Sys2Proof.Machine
open Sys2Proof

/-- REGISTER_WRITE is a write of BAR0 as a command. -/
theorem exec_registerWrite (dt : Nat) (who : Who) (a : Nat) (v : Word) (s : State) :
    exec (.registerWrite dt who a v) s = act dt (fun t => regWrite t who a v) s := rfl

/-- The page of an instance that is not present answers every accessor as absent, firmware and PF0 among them (R4). -/
theorem viewOf_of_not_present {s : State} {l : Loc} (h : present s l.blk l.inst = false) (who : Who) :
    viewOf s who l = .absent := by
  simp [viewOf, h]

/-- Where a page is absent to the accessor, its header and its registers alike read 0 (R4). -/
theorem regRead_of_view_absent {s : State} {who : Who} {a : Nat} {l : Loc} (hr : s.boot.inReset = false)
    (hl : locate a = some l) (hv : viewOf s who l = .absent) : regRead s who a = 0 := by
  simp [regRead, hr, hl, hv]

/-- Where a page is absent to the accessor, a write changes nothing, in reset or out of it (R5). -/
theorem regWrite_of_view_absent {s : State} {who : Who} {a : Nat} {l : Loc} (hl : locate a = some l)
    (hv : viewOf s who l = .absent) (v : Word) : regWrite s who a v = s := by
  simp [regWrite, hl, hv]

/-- REGISTER_WRITE where the page is absent to the accessor: time passes and nothing else comes of it (R5). -/
theorem exec_registerWrite_of_view_absent {dt : Nat} {s : State} {who : Who} {a : Nat} {l : Loc}
    (hr : (arrive dt s).boot.inReset = false) (hl : locate a = some l) (hv : viewOf (arrive dt s) who l = .absent) (v : Word) :
    exec (.registerWrite dt who a v) s = .next (closing s (arrive dt s)) := by
  rw [exec_registerWrite, act_awake hr, regWrite_of_view_absent hl hv]

/-- Settles O8: an instance that is not present has an absent page for every accessor, which reads 0 and drops its writes. -/
theorem absentPagesReadZero : Obligations.AbsentPagesReadZero := by
  intro dt s who a v l b hr hl hp
  have hv : viewOf b who l = .absent := viewOf_of_not_present hp who
  exact ⟨regRead_of_view_absent hr hl hv, exec_registerWrite_of_view_absent hr hl hv v⟩

end Sys2Proof.Machine
end

section
/-! Page addresses: what the directory of R70 says of a location, and how its registers stand to the pending-bit words of MSI-X. -/

namespace Sys2Proof.Machine
open Sys2Proof

/-- A location of the directory names an instance that the block type has, and an offset inside its window (R70). -/
theorem locate_bounds {a : Nat} {l : Loc} (h : locate a = some l) : l.inst < blkCount l.blk ∧ l.off < (blkPlace l.blk).2.2.1 := by
  obtain ⟨b, -, hb⟩ := List.exists_of_findSome?_eq_some h
  simp only [locIn, Option.ite_none_right_eq_some, Option.some.injEq] at hb
  obtain ⟨⟨-, hn, ho⟩, rfl⟩ := hb
  exact ⟨hn, ho⟩

/-- A register that is none of the header stands apart from BLK_IRQ_STAT and BLK_ERR_STAT of its instance's first page (R66). -/
theorem off_ne_of_headerOff_none {l : Loc} (h : headerOff l = none) : l.off ≠ 0x10 ∧ l.off ≠ 0x18 := by
  simp only [headerOff, ite_eq_right_iff, reduceCtorEq, imp_false, not_and] at h
  omega

/-- A BAR0 offset that is no pending-bit word of any function's 64 vectors (R62, R70). -/
def OffPba (a : Nat) : Prop := ∀ fn vec : Nat, vec < 64 → a ≠ msixPba fn vec

/-- No page of the directory holds a pending-bit word (R70). -/
theorem offPba_page {b : Blk} {n o : Nat} (hn : n < blkCount b) (ho : o < (blkPlace b).2.2.1) : OffPba (pg b n + o) := by
  intro fn vec hv
  cases b <;> simp only [pg, blkPlace, blkCount, msixPba] at hn ho ⊢ <;> omega

/-- The header of every page lies inside its window (R66). -/
theorem headerOffset_lt_window (b : Blk) {o : Nat} (ho : o < 0x1000) : o < (blkPlace b).2.2.1 := by
  cases b <;> simp only [blkPlace] <;> omega

end Sys2Proof.Machine
end

section
/-! Errors over registers: which bit of BLK_ERR_STAT an error leaves set, and which registers it does not touch (R62, R67, R68, R87). -/

namespace Sys2Proof.Machine
open Sys2Proof

/-- A bit of a number is the library's test of that bit. -/
theorem bitOf_eq_testBit (w i : Nat) : bitOf w i = w.testBit i := by
  simp [bitOf, Nat.testBit_eq_decide_div_mod_eq, Nat.shiftRight_eq_div_pow, Bool.beq_eq_decide_eq]

/-- The state in which a command takes effect has its registers in canonical form. -/
theorem arrive_regs_wf (dt : Nat) (s : State) : twf regRst (arrive dt s).regs = true := tblOf_wf regRst _

section
variable {s : State} (hs : twf regRst s.regs = true)
include hs

/-- Setting bits of a register keeps the canonical form. -/
theorem orReg_wf (a m : Nat) : twf regRst (orReg s a m).regs = true := setRegN_wf hs a _

/-- A bit put into a register reads 1. -/
theorem bitOf_orReg_same (a : Nat) {i : Nat} (hi : i < 32) : bitOf (regN (orReg s a (2 ^ i)) a) i = true := by
  rw [regN_orReg hs, bitOf_eq_testBit, Nat.testBit_mod_two_pow]
  simp [hi]

/-- A message, or the pending bit it leaves, touches no register off the pending-bit words. -/
theorem reg_sendMsi {a : Nat} (ha : OffPba a) (fn : Nat) {vec : Nat} (hv : vec < 64) : reg (sendMsi s fn vec) a = reg s a := by
  unfold sendMsi
  split
  · exact reg_setReg_other hs (ha fn vec hv) _
  · rfl

/-- A delivery touches no register off the pending-bit words. -/
theorem reg_deliver {a : Nat} (ha : OffPba a) (p : Nat) (b : Blk) : reg (deliver s p b) a = reg s a := by
  simp only [deliver]
  split
  · rfl
  · exact reg_sendMsi hs ha p (Nat.mod_lt _ (by decide))

/-- An interrupt touches BLK_IRQ_STAT of its page, and no other register off the pending-bit words. -/
theorem reg_raiseIrq {a : Nat} (ha : OffPba a) {b : Blk} {n : Nat} (hq : a ≠ pg b n + 0x10) (bit : Nat) (ctx : Option Nat) :
    reg (raiseIrq s b n bit ctx) a = reg s a := by
  unfold raiseIrq
  extract_lets q s1 s2
  have h2 : reg s2 a = reg s a := reg_setReg_other hs hq _
  have hs2 : twf regRst s2.regs = true := setReg_wf hs q _
  clear_value s2
  split
  · rfl
  · split
    · rw [reg_deliver hs2 ha, h2]
    · exact h2

/-- An error touches BLK_IRQ_STAT and BLK_ERR_STAT of its page, and no other register off the pending-bit words. -/
theorem reg_raiseErr {a : Nat} (ha : OffPba a) {b : Blk} {n : Nat} (hq : a ≠ pg b n + 0x10) (he : a ≠ pg b n + 0x18) (bit : Nat)
    (ctx : Option Nat) : reg (raiseErr s b n bit ctx) a = reg s a := by
  unfold raiseErr
  dsimp only
  split
  · rfl
  · rw [reg_raiseIrq (orReg_wf hs _ _) ha hq]
    exact reg_setReg_other hs he _

/-- An error's bit of BLK_ERR_STAT reads 1 once it is raised, whether it stood before or not. -/
theorem bitOf_raiseErr {b : Blk} {n : Nat} (hn : n < blkCount b) {bit : Nat} (hb : bit < 32) (ctx : Option Nat) :
    bitOf (regN (raiseErr s b n bit ctx) (pg b n + 0x18)) bit = true := by
  unfold raiseErr
  dsimp only
  split
  · assumption
  · have ha : OffPba (pg b n + 0x18) := offPba_page hn (headerOffset_lt_window b (by decide))
    have hq : pg b n + 0x18 ≠ pg b n + 0x10 := by omega
    rw [regN, reg_raiseIrq (orReg_wf hs _ _) ha hq]
    exact bitOf_orReg_same hs _ hb

end

/-- An error changes no applied value. -/
theorem raiseErr_applied (s : State) (b : Blk) (n bit : Nat) (ctx : Option Nat) : (raiseErr s b n bit ctx).applied = s.applied := by
  obtain ⟨r, c, m, h⟩ := raiseErr_irqOnly s b n bit ctx
  rw [h]

end Sys2Proof.Machine
end

section
/-! Writes that are open: REGISTER_WRITE down to the row or the header register it reaches (R13, R16, R66). -/

namespace Sys2Proof.Machine
open Sys2Proof

/-- Where a page's header is open, neither a stop nor the management-only state closes the page (R595, R617). -/
theorem not_closed_of_headerOpen {s : State} {who : Who} {l : Loc} (ho : headerOpen s who l) :
    ((isStopped s && !openInStop l) || (bootState s == 3 && !mgmtWritable l)) = false := by
  obtain ⟨-, -, hstop, hmgmt⟩ := ho
  have h1 : (isStopped s && !openInStop l) = false := by rcases hstop with h | h <;> simp [h]
  have h2 : (bootState s == 3 && !mgmtWritable l) = false := by rcases hmgmt with h | h <;> simp [h]
  rw [h1, h2, Bool.or_self]

section
variable {s : State} {who : Who} {a : Nat} {l : Loc} (hl : locate a = some l) (ho : headerOpen s who l)
include hl ho

/-- A write of a page's own table where the page is open is a write of its row. -/
theorem regWrite_of_row_open {r : RegRow} {k : Nat} (hh : headerOff l = none) (hr : rowAt l = some (r, k)) (v : Word) :
    regWrite s who a v = rowPut s who l r k v := by
  have hopen := not_closed_of_headerOpen ho
  obtain ⟨hreset, hview, -, -⟩ := ho
  simp [regWrite, hreset, hl, hview, hopen, hh, hr]

/-- A write of a header register where the page is open is a write of the header. -/
theorem regWrite_of_header_open {o : Nat} (hh : headerOff l = some o) (v : Word) :
    regWrite s who a v = headWrite s who l o v := by
  have hopen := not_closed_of_headerOpen ho
  obtain ⟨hreset, hview, -, -⟩ := ho
  simp [regWrite, hreset, hl, hview, hopen, hh]

end

/-- A write of 0 to BLK_COMMIT of a page that is not another partition's changes nothing (R73). -/
theorem headWrite_commit_zero {s : State} {who : Who} {l : Loc} (hf : foreign s who l = false) : headWrite s who l 0x20 0 = s := by
  simp [headWrite, hf, admitted, bitOf]

end Sys2Proof.Machine
end

section
/-! Shadow and commit: the write that a pending commit shuts out, and the values that an application leaves (R71, R73). -/

namespace Sys2Proof.Machine
open Sys2Proof

/-! ## The lost write -/

/-- While the page's commit is pending, a write of a shadowed register is an error and no more. -/
theorem shadowWrite_of_pending {s : State} {b : Blk} {n : Nat} (hc : s.commits.contains (pg (headBlk b) n) = true) (a : Nat) (v : Word) :
    shadowWrite s b n a v = raiseErr s b n 1 none := by
  rw [shadowWrite, if_pos hc]

/-- The window of barrier group fields on page 2 of the transport writes the shadow of the group shown (R512). -/
theorem rolvReg_group (s : State) (who : Who) (l : Loc) (k : Nat) (v : Word) (h : 0x2104 ≤ l.off ∧ l.off < 0x2110) :
    rolvReg s who l k v = shadowWrite s .rolv 0 (bg (groupShown s (whoFn who)) ((l.off - 0x2104) / 4)) v := by
  have h1 : ¬(l.off = 0x148 ∨ l.off = 0x150) := by omega
  have h2 : l.off ≠ 0x184 := by omega
  have h3 : l.off ≠ 0x2100 := by omega
  rw [rolvReg, if_neg h1, if_neg h2, if_neg h3, if_pos h]

/-- An admitted write of an RWS row while its page's commit is pending is lost, on the transport's pages 0 to 1 and its group window as on
every other page. -/
theorem rowPut_rws_of_pending {s : State} {who : Who} {l : Loc} {r : RegRow} {k : Nat} (hn : l.inst < blkCount l.blk)
    (hw : mayWrite s who l r.w k = .ok) (hr : r.acc = .rws) (hc : s.commits.contains (pg (headBlk l.blk) l.inst) = true)
    (hg : l.blk = .rolv → l.off < 0x2000 ∨ (0x2104 ≤ l.off ∧ l.off < 0x2110)) (v : Word) :
    rowPut s who l r k v = raiseErr s l.blk l.inst 1 none := by
  simp only [rowPut, hr, hw, admitted]
  split
  case isFalse => exact shadowWrite_of_pending hc _ _
  case isTrue h =>
    obtain ⟨hb, ho⟩ := h
    have hwin : 0x2104 ≤ l.off ∧ l.off < 0x2110 := by
      have := hg hb
      omega
    have hi : l.inst = 0 := by
      rw [hb] at hn
      exact Nat.lt_one_iff.mp hn
    rw [hb, hi] at hc
    rw [rolvReg_group s who l k _ hwin, shadowWrite_of_pending hc, hb, hi]

/-! ## The values applied -/

/-- An applied value reads as last set. -/
theorem app_setApp_same {s : State} (h : twf regRst s.applied = true) (a : Nat) (v : Word) : app (setApp s a v) a = v.toNat := by
  simp [app, tget_tset_same regRst a v h]

/-- Every other applied value reads as before. -/
theorem app_setApp_other {s : State} (h : twf regRst s.applied = true) {a j : Nat} (hj : j ≠ a) (v : Word) : app (setApp s a v) j = app s j := by
  simp [app, tget_tset_other regRst a j v hj h]

/-- Setting applied values one after another leaves every register as written. -/
theorem forAll_setApp_regs (f : Nat → Word) (l : List Nat) (t : State) : (forAll l (fun a t => setApp t a (f a)) t).regs = t.regs := by
  induction l generalizing t with
  | nil => rfl
  | cons x xs ih => exact ih (setApp t x (f x))

/-- An applied value that is set from f, once or more, or had f's value, has f's value in the end. -/
theorem app_forAll_setApp (f : Nat → Word) {a : Nat} (l : List Nat) {t : State} (ht : twf regRst t.applied = true)
    (h : a ∈ l ∨ app t a = (f a).toNat) : app (forAll l (fun a t => setApp t a (f a)) t) a = (f a).toNat := by
  induction l generalizing t with
  | nil => simpa [forAll] using h
  | cons x xs ih =>
    refine ih (t := setApp t x (f x)) (twf_tset regRst x (f x) ht) ?_
    by_cases hx : a = x
    · subst hx
      exact .inr (app_setApp_same ht a (f a))
    · rw [app_setApp_other ht hx]
      simpa [hx] using h

/-- The RWS registers of a page's own table are shadowed registers of the page. -/
theorem mem_shadowList {b : Blk} {o : Nat} (ho : o ∈ rwsOffsets (blkRows b)) (n : Nat) : pg b n + o ∈ shadowList b n :=
  List.mem_append_left _ (List.mem_map_of_mem ho)

/-- An application leaves every register as written (R71). -/
theorem applyShadow_regs (s : State) (x : Blk) (n : Nat) : (applyShadow s x n).regs = s.regs := forAll_setApp_regs (reg s) _ s

/-- An application gives every RWS register of the instance's pages the value its shadow holds (R71). -/
theorem app_applyShadow {s : State} (hs : twf regRst s.applied = true) {x y : Blk} (hy : y ∈ pageGroup x) {o : Nat}
    (ho : o ∈ rwsOffsets (blkRows y)) (n : Nat) : app (applyShadow s x n) (pg y n + o) = regN s (pg y n + o) :=
  app_forAll_setApp (reg s) _ hs (.inl (List.mem_flatMap.mpr ⟨y, hy, mem_shadowList ho n⟩))

/-! ## The three clauses -/

/-- REGISTER_WRITE of an RWS register while its page's commit is pending is the error SHADOW_WRITE_LOST and no more (R73). -/
theorem exec_registerWrite_rws_of_pending {dt : Nat} {s : State} {who : Who} {a : Nat} {l : Loc} {r : RegRow} {k : Nat}
    (hl : locate a = some l) (hh : headerOff l = none) (hrow : rowAt l = some (r, k)) (ho : openWrite (arrive dt s) who l r k)
    (hr : r.acc = .rws) (hc : (arrive dt s).commits.contains (pg (headBlk l.blk) l.inst) = true)
    (hg : l.blk = .rolv → l.off < 0x2000 ∨ (0x2104 ≤ l.off ∧ l.off < 0x2110)) (v : Word) :
    exec (.registerWrite dt who a v) s = .next (closing s (raiseErr (arrive dt s) l.blk l.inst 1 none)) := by
  obtain ⟨hreset, hview, hstop, hmgmt, hw⟩ := ho
  rw [exec_registerWrite, act_awake hreset, regWrite_of_row_open hl ⟨hreset, hview, hstop, hmgmt⟩ hh hrow,
    rowPut_rws_of_pending (locate_bounds hl).1 hw hr hc hg]

/-- REGISTER_WRITE of 0 to an open BLK_COMMIT only passes time (R73). -/
theorem exec_registerWrite_commit_zero {dt : Nat} {s : State} {who : Who} {a : Nat} {l : Loc} (hl : locate a = some l)
    (hh : headerOff l = some 0x20) (ho : headerOpen (arrive dt s) who l) (hf : foreign (arrive dt s) who l = false) :
    exec (.registerWrite dt who a 0) s = .next (closing s (arrive dt s)) := by
  rw [exec_registerWrite, act_awake ho.1, regWrite_of_header_open hl ho hh, headWrite_commit_zero hf]

/-- Settles O16: a pending commit turns every shadow write into SHADOW_WRITE_LOST, which touches neither the register nor its applied value;
an application takes the shadow as it stands; a 0 in BLK_COMMIT asks for nothing. -/
theorem pendingCommitLocksShadow : Obligations.PendingCommitLocksShadow := by
  refine ⟨?_, fun s x n => ⟨applyShadow_regs s x n, fun hs y hy o ho => app_applyShadow hs hy ho n⟩,
    fun dt s who a l hl hh ho hf => exec_registerWrite_commit_zero hl hh ho hf⟩
  intro dt s who a v l r k b hl hh hrow ho hr hc hg
  have hs : twf regRst b.regs = true := arrive_regs_wf dt s
  obtain ⟨hn, hoff⟩ := locate_bounds hl
  obtain ⟨hq, he⟩ := off_ne_of_headerOff_none hh
  exact ⟨exec_registerWrite_rws_of_pending hl hh hrow ho hr hc hg v, bitOf_raiseErr hs hn (by decide) none, raiseErr_applied b _ _ _ _,
    reg_raiseErr hs (offPba_page hn hoff) (by omega) (by omega) 1 none⟩

end Sys2Proof.Machine
end
section
/-! The form of every command: what exec of a command answers, and the statements that follow from the form alone (R571, R595, R603, R633). -/

namespace Sys2Proof.Machine
open Sys2Proof

/-- The commands that act while RESET_N is low: a cold start and the host's windows (R64, R65, R602). -/
def actsInReset : Instr → Bool
  | .coldStart _ => true
  | .bar2Access _ _ _ _ _ => true
  | .bar4Access _ _ _ _ _ => true
  | _ => false

/-- A command of the data plane is an effect that a stop, or a device that does not run, shuts out (R595, R603). -/
theorem exec_form_of_dataPlane {c : Instr} {dt : Nat} (h : dataPlaneNs c = some dt) : ∃ f, ∀ s, exec c s = actLive dt f s := by
  cases c <;> simp only [dataPlaneNs, Option.some.injEq, reduceCtorEq] at h
  all_goals subst h; exact ⟨_, fun _ => rfl⟩

/-- A command that is none of the data plane: an effect that RESET_N low shuts out, one that happens in reset too, or a droop (R603, R633). -/
theorem exec_form_of_control {c : Instr} (h : dataPlaneNs c = none) (s : State) :
    (∃ dt u, exec c s = .next (if (arrive dt s).boot.inReset then finish s (arrive dt s) else closing s u)) ∨
    (actsInReset c = true ∧ ∃ u, exec c s = .next (closing s u)) ∨ ∃ dt mv, c = .droopTrip dt mv := by
  cases c <;> simp only [dataPlaneNs, reduceCtorEq] at h
  case coldStart => exact .inr (.inl ⟨rfl, _, rfl⟩)
  case bar2Access => exact .inr (.inl ⟨rfl, _, rfl⟩)
  case bar4Access => exact .inr (.inl ⟨rfl, _, rfl⟩)
  case droopTrip => exact .inr (.inr ⟨_, _, rfl⟩)
  all_goals exact .inl ⟨_, _, rfl⟩

/-- Every command: an effect that RESET_N low shuts out, one that happens in reset too, or a droop (R603, R633). -/
theorem exec_form (c : Instr) (s : State) :
    (∃ dt u, exec c s = .next (if (arrive dt s).boot.inReset then finish s (arrive dt s) else closing s u)) ∨
    (actsInReset c = true ∧ ∃ u, exec c s = .next (closing s u)) ∨ ∃ dt mv, c = .droopTrip dt mv := by
  cases h : dataPlaneNs c with
  | none => exact exec_form_of_control h s
  | some dt =>
    obtain ⟨f, hf⟩ := exec_form_of_dataPlane h
    exact .inl ⟨dt, _, hf s⟩

/-- DROOP_TRIP is an effect unless a core is more than 60 mV low (R633). -/
theorem exec_droopTrip (dt : Nat) (mv : List Nat) (s : State) : exec (.droopTrip dt mv) s =
    if mv.any (fun x => decide (60 < x)) then .fault .coreUndervoltage else act dt (fun t => droopTripAct t mv) s := rfl

/-- A command's next state is the end of some state. -/
theorem finish_of_exec_next {c : Instr} {s t : State} (h : exec c s = .next t) : ∃ u, t = finish s u := by
  rcases exec_form c s with ⟨dt, u, hf⟩ | ⟨-, u, hf⟩ | ⟨dt, mv, rfl⟩
  · obtain rfl := Host.Outcome.next.inj (hf.symm.trans h)
    split <;> exact ⟨_, rfl⟩
  · obtain rfl := Host.Outcome.next.inj (hf.symm.trans h)
    exact ⟨_, rfl⟩
  · rw [exec_droopTrip] at h
    split at h
    · cases h
    · obtain rfl := Host.Outcome.next.inj h
      split <;> exact ⟨_, rfl⟩

/-- Settles O1: a step is the command in front applied to the state without it. -/
theorem stepRunsFrontCommand : Obligations.StepRunsFrontCommand := ⟨fun _ _ _ => rfl, fun _ => rfl⟩

/-- Settles O2: the end of every command puts the queue back and leaves no actor. -/
theorem commandsKeepQueue : Obligations.CommandsKeepQueue := by
  intro c s t h
  obtain ⟨u, rfl⟩ := finish_of_exec_next h
  exact ⟨finish_pending s u, finish_actor s u⟩

/-- Settles O3: a step idles, or ends in a canonical form. -/
theorem stepKeepsCanonicalForm : Obligations.StepKeepsCanonicalForm := by
  intro s t hm ht h
  unfold step at h
  split at h
  · obtain rfl := Host.Outcome.next.inj h
    exact ⟨hm, ht⟩
  · obtain ⟨u, rfl⟩ := finish_of_exec_next h
    exact finish_wf _ u

/-- The OTP as it leaves the factory lists its cells in rising order and none that reads 0 (log entry 18). -/
theorem factoryOtp_wf : memWf factoryOtp = true := by decide

/-- Settles O4: of the memories after power-on only the OTP lists anything, and every table is empty. -/
theorem resetIsCanonical : Obligations.ResetIsCanonical := by
  refine ⟨?_, rfl, rfl, rfl, rfl, rfl, rfl⟩
  simp only [memoriesWf, State.reset, Memory.wf, factoryOtp_wf]
  rfl

/-- A droop is a fault exactly where some core is more than 60 mV low, and refused nowhere (R633). -/
theorem exec_droopTrip_outcome (dt : Nat) (mv : List Nat) (s : State) : (∀ r, exec (.droopTrip dt mv) s ≠ .refused r) ∧
    ((∃ f, exec (.droopTrip dt mv) s = .fault f) ↔ ∃ x ∈ mv, 60 < x) := by
  rw [exec_droopTrip]
  split
  case isTrue h =>
    have h' : ∃ x ∈ mv, 60 < x := by simpa using h
    exact ⟨nofun, fun _ => h', fun _ => ⟨_, rfl⟩⟩
  case isFalse h =>
    have h' : ¬∃ x ∈ mv, 60 < x := by simpa using h
    exact ⟨nofun, nofun, fun hlow => absurd hlow h'⟩

/-- Settles O5: only DROOP_TRIP has an outcome that is no next state, and that outcome is the fault of R633. -/
theorem onlyUndervoltageStops : Obligations.OnlyUndervoltageStops := by
  intro c s
  by_cases hd : ∃ dt mv, c = .droopTrip dt mv
  · obtain ⟨dt, mv, rfl⟩ := hd
    simpa [eq_comm] using exec_droopTrip_outcome dt mv s
  · have hnext : ∃ t, exec c s = .next t := by
      rcases exec_form c s with ⟨dt, u, hf⟩ | ⟨-, u, hf⟩ | h
      · exact ⟨_, hf⟩
      · exact ⟨_, hf⟩
      · exact absurd h hd
    obtain ⟨t, ht⟩ := hnext
    have hno : ¬∃ dt mv, c = .droopTrip dt mv ∧ ∃ x ∈ mv, 60 < x := fun ⟨dt, mv, h, _⟩ => hd ⟨dt, mv, h⟩
    simp [ht, hno]

/-- Settles O59: a command of the data plane is closed outside RUNNING and in a stop. -/
theorem stopSilencesDataPlane : Obligations.StopSilencesDataPlane := by
  intro c dt s b hc hclosed hawake
  obtain ⟨f, hf⟩ := exec_form_of_dataPlane hc
  rw [hf s]
  exact actLive_closed hawake hclosed

end Sys2Proof.Machine
end

section
/-! What the completion and frame-drop logs can reach: interrupts, records and their memory, and nothing of the rest of the state (R43 to R47, R81 to R87, R651). -/

namespace Sys2Proof.Machine
open Sys2Proof

/-- The state without what interrupts and the partitions' logs may change: equal rests say that nothing else changed. -/
def logRest (s : State) : State := { s with
  regs := []
  irqCtx := []
  msix := []
  cmdw := []
  dlog := []
  ages := []
  hbm := []
  hbmUe := []
  host := [] }

@[simp] theorem logRest_setReg (s : State) (a : Nat) (v : Word) : logRest (setReg s a v) = logRest s := rfl
@[simp] theorem logRest_setRegN (s : State) (a n : Nat) : logRest (setRegN s a n) = logRest s := rfl
@[simp] theorem logRest_orReg (s : State) (a m : Nat) : logRest (orReg s a m) = logRest s := rfl
@[simp] theorem logRest_clrReg (s : State) (a m : Nat) : logRest (clrReg s a m) = logRest s := rfl
@[simp] theorem logRest_setCmdw (s : State) (p : Nat) (c : Cmdw) : logRest (setCmdw s p c) = logRest s := rfl
@[simp] theorem logRest_setDlog (s : State) (p : Nat) (d : Dlog) : logRest (setDlog s p d) = logRest s := rfl
@[simp] theorem logRest_hbmPut (s : State) (a : Nat) (l : List Byte) : logRest (hbmPut s a l) = logRest s := rfl
@[simp] theorem logRest_freeAgesOf (s : State) (h : Nat) : logRest (freeAgesOf s h) = logRest s := rfl

/-- What an interrupt may change is within what the logs may. -/
theorem logRest_of_irqOnly {s t : State} (h : IrqOnly s t) : logRest t = logRest s := by
  obtain ⟨r, c, m, rfl⟩ := h
  rfl

@[simp] theorem logRest_sendMsi (s : State) (fn vec : Nat) : logRest (sendMsi s fn vec) = logRest s := logRest_of_irqOnly (sendMsi_irqOnly s fn vec)

@[simp] theorem logRest_raiseIrq (s : State) (b : Blk) (n bit : Nat) (ctx : Option Nat) : logRest (raiseIrq s b n bit ctx) = logRest s :=
  logRest_of_irqOnly (raiseIrq_irqOnly s b n bit ctx)

@[simp] theorem logRest_raiseErr (s : State) (b : Blk) (n bit : Nat) (ctx : Option Nat) : logRest (raiseErr s b n bit ctx) = logRest s :=
  logRest_of_irqOnly (raiseErr_irqOnly s b n bit ctx)

@[simp] theorem logRest_bump (s : State) (a n : Nat) : logRest (bump s a n) = logRest s := by
  obtain ⟨r, h⟩ := bump_eq s a n
  rw [h]
  rfl

/-! ## Writes of memory -/

/-- A write at a physical place reaches memory alone. -/
theorem logRest_physWrite (s : State) (a : Phys) (l : List Byte) : logRest (physWrite s a l).1 = logRest s := by
  unfold physWrite
  split
  · split <;> rfl
  · rfl

/-- A write in pieces reaches memory alone. -/
theorem logRest_writePieces (p : Nat) (q : List (Nat × Nat)) (l : List Byte) (s : State) : logRest (writePieces p q l s).1 = logRest s := by
  induction q generalizing l s with
  | nil => rfl
  | cons x r ih =>
    obtain ⟨va, k⟩ := x
    unfold writePieces
    split
    · rfl
    · rename_i a _
      have ha := logRest_physWrite s a (l.take k)
      split
      · rename_i h
        rwa [h] at ha
      · rename_i h
        rw [h] at ha
        rw [ih, ha]

/-- A write of a record reaches memory alone. -/
theorem logRest_vaWriteAll {s t : State} {p va : Nat} {l : List Byte} (h : vaWriteAll s p va l = .ok t) : logRest t = logRest s := by
  have hw := logRest_writePieces p (piecesOf va l.length) l s
  unfold vaWriteAll vaWrite at h
  split at h
  · rename_i heq
    cases h
    rwa [heq] at hw
  · cases h

/-! ## The completion log -/

@[simp] theorem logRest_freeHandle (s : State) (h : Nat) : logRest (freeHandle s h) = logRest s := by
  simp only [freeHandle]
  split <;> rfl

@[simp] theorem logRest_signalIf (s : State) (p : Nat) (ask : Bool) : logRest (signalIf s p ask) = logRest s := by
  unfold signalIf
  split
  · exact logRest_sendMsi _ _ _
  · rfl

@[simp] theorem logRest_writeBack (s : State) (p : Nat) : logRest (writeBack s p) = logRest s := by
  unfold writeBack
  split
  · split
    · rename_i h
      simpa using logRest_vaWriteAll h
    · simp
  · rfl

@[simp] theorem logRest_cplWritten (s : State) (p : Nat) (r : Cpl) : logRest (cplWritten s p r) = logRest s := by
  simp only [cplWritten, logRest_signalIf, logRest_writeBack]
  split <;> simp

theorem logRest_drainList (p : Nat) (l : List Cpl) (s : State) : logRest (drainList p l s).2 = logRest s := by
  induction l generalizing s with
  | nil => rfl
  | cons r rs ih =>
    unfold drainList
    split
    · rfl
    · split
      · rename_i h
        rw [ih, logRest_cplWritten, logRest_vaWriteAll h]
      · simp

@[simp] theorem logRest_cplDrain (s : State) (p : Nat) : logRest (cplDrain s p) = logRest s := logRest_drainList p _ s

@[simp] theorem logRest_pushCpl (s : State) (p : Nat) (r : Cpl) : logRest (pushCpl s p r) = logRest s := by simp [pushCpl]

@[simp] theorem logRest_pushFinal (s : State) (h st src : Nat) : logRest (pushFinal s h st src) = logRest s := by
  unfold pushFinal
  split <;> simp

/-! ## What the passing of time reaches -/

/-- The state without the power state and what the logs may change. -/
def pwrRest (s : State) : State := logRest (setPwr s {})

/-- What the logs leave, the power state aside, they leave. -/
theorem pwrRest_of_logRest {s t : State} (h : logRest t = logRest s) : pwrRest t = pwrRest s := congrArg (setPwr · {}) h

@[simp] theorem pwrRest_setPwr (s : State) (w : Pwr) : pwrRest (setPwr s w) = pwrRest s := rfl

@[simp] theorem pwrRest_bump (s : State) (a n : Nat) : pwrRest (bump s a n) = pwrRest s := pwrRest_of_logRest (logRest_bump s a n)

@[simp] theorem pwrRest_pushFinal (s : State) (h st src : Nat) : pwrRest (pushFinal s h st src) = pwrRest s :=
  pwrRest_of_logRest (logRest_pushFinal s h st src)

@[simp] theorem pwrRest_injTripEnd (s : State) : pwrRest (injTripEnd s) = pwrRest s := by
  unfold injTripEnd
  split
  · rfl
  · split <;> rfl

@[simp] theorem pwrRest_deferStep (s : State) : pwrRest (deferStep s) = pwrRest s := by
  unfold deferStep
  split <;> simp

@[simp] theorem pwrRest_advanceStep (s : State) : pwrRest (advanceStep s) = pwrRest s := by
  unfold advanceStep
  dsimp only
  split
  · split
    · simp
    · split <;> rfl
  · split
    · split <;> simp
    · rfl

@[simp] theorem pwrRest_beginNext (n : Nat) (s : State) : pwrRest (beginNext n s) = pwrRest s := by
  induction n generalizing s with
  | zero => rfl
  | succ n ih =>
    unfold beginNext
    dsimp only
    split
    · rfl
    · split
      · rfl
      · split <;> simp [ih]

@[simp] theorem pwrRest_oppReached (s : State) : pwrRest (oppReached s) = pwrRest s := by
  unfold oppReached
  split
  · rfl
  · dsimp only
    split
    · rfl
    · simp

/-- What power control does of itself changes the power state and what the logs may. -/
@[simp] theorem pwrRest_pwrAdvance (s : State) : pwrRest (pwrAdvance s) = pwrRest s := by simp [pwrAdvance]

/-! ## Time and reset -/

/-- The passing of time neither raises nor lowers RESET_N. -/
theorem arrive_inReset (dt : Nat) (s : State) : (arrive dt s).boot.inReset = s.boot.inReset := by
  have h : (pwrRest (pwrAdvance (elapse dt s))).boot = (pwrRest (elapse dt s)).boot := congrArg State.boot (pwrRest_pwrAdvance _)
  have he : (elapse dt s).boot = s.boot := by
    unfold elapse
    split <;> rfl
  have hb : (pwrAdvance (elapse dt s)).boot = s.boot := h.trans he
  show (pwrAdvance (elapse dt s)).boot.inReset = s.boot.inReset
  rw [hb]

/-- Settles O6: of the commands that have an effect of their own, those that act in reset are the three the statement leaves out. -/
theorem resetHoldsTheBlock : Obligations.ResetHoldsTheBlock := by
  intro c s t hreset ht hcold hbar2 hbar4
  have harrive (dt : Nat) : (arrive dt s).boot.inReset = true := (arrive_inReset dt s).trans hreset
  rcases exec_form c s with ⟨dt, u, hf⟩ | ⟨hany, -⟩ | ⟨dt, mv, rfl⟩
  · rw [harrive dt, if_pos rfl, ht, Host.Outcome.next.injEq] at hf
    exact ⟨dt, hf⟩
  · cases c <;> simp only [actsInReset, Bool.false_eq_true] at hany
    case coldStart dt => exact absurd rfl (hcold dt)
    case bar2Access dt n a len wr => exact absurd rfl (hbar2 dt n a len wr)
    case bar4Access dt n a len wr => exact absurd rfl (hbar4 dt n a len wr)
  · rw [exec_droopTrip] at ht
    split at ht
    · cases ht
    · rw [act_inReset (harrive dt), Host.Outcome.next.injEq] at ht
      exact ⟨dt, ht.symm⟩

/-- What an offset loses in dt ns lies within 100 ppm of dt either way (R509). -/
theorem slewIn_bounds (dt : Nat) (left : Int) : -((dt / 10000 : Nat) : Int) ≤ slewIn dt left ∧ slewIn dt left ≤ ((dt / 10000 : Nat) : Int) := by
  unfold slewIn clampI
  split
  · omega
  · split <;> omega

/-- An offset of 0 loses nothing. -/
theorem slewIn_zero (dt : Nat) : slewIn dt 0 = 0 := by
  unfold slewIn clampI
  split
  · omega
  · split <;> omega

/-- Settles O7: TIMECNT advances by dt and what the offset loses, which slewIn_bounds limits. -/
theorem timePasses : Obligations.TimePasses := by
  intro dt s
  have hon (h : s.timeOn = true) : (elapse dt s).time = s.time + BitVec.ofInt 64 (dt + slewIn dt s.slew) ∧
      (elapse dt s).slew = s.slew - slewIn dt s.slew := by
    rw [elapse, if_pos h]
    exact ⟨rfl, rfl⟩
  have hrest : (elapse dt s).regs = s.regs ∧ (elapse dt s).hbm = s.hbm ∧ (elapse dt s).graphs = s.graphs := by
    unfold elapse
    split <;> exact ⟨rfl, rfl, rfl⟩
  refine ⟨fun h => by simp [elapse, h], fun h h0 => ?_, fun h => ?_, hrest⟩
  · obtain ⟨ht, hs⟩ := hon h
    rw [h0, slewIn_zero] at ht hs
    exact ⟨by simpa using ht, by simpa using hs⟩
  · obtain ⟨ht, hs⟩ := hon h
    exact ⟨slewIn dt s.slew, ht, hs, slewIn_bounds dt s.slew⟩

end Sys2Proof.Machine
end

section
/-! Writes of BAR0 by page and offset: the directory of R70 names one location for an offset, so an open write of a register is its row's effect
(R13, R16, R66, R70). -/

namespace Sys2Proof.Machine
open Sys2Proof

/-! ## The directory -/

/-- The first offset above the last window of a block type (R70). -/
def areaEnd (b : Blk) : Nat := (blkPlace b).1 + (blkPlace b).2.1 * ((blkPlace b).2.2.2 - 1) + (blkPlace b).2.2.1

/-- The windows of one block type all lie below those of another, or both alternate at one spacing (R70). -/
def areaBefore (b c : Blk) : Bool :=
  decide (areaEnd b ≤ (blkPlace c).1) || ((blkPlace b).2.1 == (blkPlace c).2.1 && decide ((blkPlace b).1 % (blkPlace b).2.1 + (blkPlace b).2.2.1 ≤ (blkPlace c).1 % (blkPlace c).2.1) &&
    decide ((blkPlace c).1 % (blkPlace c).2.1 + (blkPlace c).2.2.1 ≤ (blkPlace c).2.1))

/-- Of two block types of the directory one comes before the other (R70). -/
theorem areaBefore_of_ne {b c : Blk} (h : b ≠ c) : areaBefore b c = true ∨ areaBefore c b = true := by
  revert h
  cases b <;> cases c <;> decide

/-- A window of the directory is no longer than the spacing of its instances (R70). -/
theorem window_le_spacing (b : Blk) : 0 < (blkPlace b).2.2.1 ∧ (blkPlace b).2.2.1 ≤ (blkPlace b).2.1 := by cases b <;> decide

/-- Every block type stands in the directory. -/
theorem mem_allBlks (b : Blk) : b ∈ allBlks := by cases b <;> decide

/-- An offset of some unit's window of a block type. -/
def inArea (a : Nat) (b : Blk) : Prop := ∃ n o, n < blkCount b ∧ o < (blkPlace b).2.2.1 ∧ a = pg b n + o

/-- Windows of two areas at one spacing whose places within it do not meet share no offset. -/
theorem alternating_ne {x y d w v n m o p : Nat} (ho : o < w) (hp : p < v) (hl : x % d + w ≤ y % d) (hr : y % d + v ≤ d) :
    x + d * n + o ≠ y + d * m + p := by
  intro he
  have residue {z i q : Nat} (h : z % d + q < d) : (z + d * i + q) % d = z % d + q := by
    rw [Nat.add_right_comm, Nat.add_mul_mod_self_left, ← Nat.mod_add_mod, Nat.mod_eq_of_lt h]
  have h1 : (x + d * n + o) % d = x % d + o := residue (by omega)
  have h2 : (y + d * m + p) % d = y % d + p := residue (by omega)
  rw [he] at h1
  omega

/-- Block types one of which comes before the other share no offset. -/
theorem not_inArea_of_before {a : Nat} {b c : Blk} (h : areaBefore b c = true) (hb : inArea a b) : ¬inArea a c := by
  obtain ⟨n, o, hn, ho, rfl⟩ := hb
  rintro ⟨m, p, hm, hp, he⟩
  simp only [areaBefore, Bool.or_eq_true, Bool.and_eq_true, beq_iff_eq, decide_eq_true_eq] at h
  rcases h with h | ⟨⟨hstr, hl⟩, hr⟩
  · have hn' : n ≤ (blkPlace b).2.2.2 - 1 := Nat.le_sub_one_of_lt hn
    have hle : (blkPlace b).2.1 * n ≤ (blkPlace b).2.1 * ((blkPlace b).2.2.2 - 1) := Nat.mul_le_mul_left _ hn'
    unfold areaEnd at h
    unfold pg at he
    omega
  · unfold pg at he
    rw [← hstr] at hl hr he
    exact alternating_ne ho hp hl hr he

/-- Where the directory finds a block type, the offset lies in its area, at the unit number and offset found. -/
theorem locIn_eq_some {a : Nat} {b : Blk} {l : Loc} (h : locIn a b = some l) :
    l.blk = b ∧ l.inst < blkCount b ∧ l.off < (blkPlace b).2.2.1 ∧ a = pg b l.inst + l.off := by
  simp only [locIn, Option.ite_none_right_eq_some, Option.some.injEq] at h
  obtain ⟨⟨hle, hn, ho⟩, rfl⟩ := h
  have hsum := Nat.div_add_mod (a - (blkPlace b).1) (blkPlace b).2.1
  refine ⟨rfl, hn, ho, ?_⟩
  rw [pg, Nat.add_assoc, hsum, Nat.add_sub_cancel' hle]

/-- An offset of a unit's window is found there. -/
theorem locIn_pg {b : Blk} {n o : Nat} (hn : n < blkCount b) (ho : o < (blkPlace b).2.2.1) : locIn (pg b n + o) b = some ⟨b, n, o⟩ := by
  obtain ⟨hpos, hle⟩ := window_le_spacing b
  have hsub : pg b n + o - (blkPlace b).1 = o + (blkPlace b).2.1 * n := by simp only [pg]; omega
  have hdiv : (o + (blkPlace b).2.1 * n) / (blkPlace b).2.1 = n := by
    rw [Nat.add_mul_div_left _ _ (by omega), Nat.div_eq_of_lt (by omega), Nat.zero_add]
  have hmod : (o + (blkPlace b).2.1 * n) % (blkPlace b).2.1 = o := by rw [Nat.add_mul_mod_self_left, Nat.mod_eq_of_lt (by omega)]
  have hbase : (blkPlace b).1 ≤ pg b n + o := by simp only [pg]; omega
  simp only [locIn, hsub, hdiv, hmod]
  exact if_pos ⟨hbase, hn, ho⟩

/-- A location of the directory lies at its page's offset (R70). -/
theorem eq_pg_of_locate {a : Nat} {l : Loc} (h : locate a = some l) : a = pg l.blk l.inst + l.off := by
  obtain ⟨b, -, hb⟩ := List.exists_of_findSome?_eq_some h
  obtain ⟨rfl, -, -, ha⟩ := locIn_eq_some hb
  exact ha

/-- The directory finds the location of an offset within a unit's window (R70). -/
theorem locate_pg {b : Blk} {n o : Nat} (hn : n < blkCount b) (ho : o < (blkPlace b).2.2.1) : locate (pg b n + o) = some ⟨b, n, o⟩ := by
  have hfound := locIn_pg hn ho
  cases h : locate (pg b n + o) with
  | none =>
    have := List.findSome?_eq_none_iff.mp h b (mem_allBlks b)
    rw [hfound] at this
    cases this
  | some l =>
    obtain ⟨c, -, hc⟩ := List.exists_of_findSome?_eq_some h
    obtain ⟨-, hm, hp, he⟩ := locIn_eq_some hc
    have hbc : b = c := by
      by_contra hne
      rcases areaBefore_of_ne hne with h1 | h1
      · exact not_inArea_of_before h1 ⟨n, o, hn, ho, rfl⟩ ⟨l.inst, l.off, hm, hp, he⟩
      · exact not_inArea_of_before h1 ⟨l.inst, l.off, hm, hp, he⟩ ⟨n, o, hn, ho, rfl⟩
    subst hbc
    exact hc.symm.trans hfound

/-! ## Open writes -/

/-- The effect of an open write of a row's register on the page of block type b. -/
theorem regWrite_of_writes {s : State} {who : Who} {b : Blk} {n o : Nat} {r : RegRow} {k : Nat} (hn : n < blkCount b) (ho : o < (blkPlace b).2.2.1)
    (hrow : rowAt ⟨b, n, o⟩ = some (r, k)) (h : writes s who (pg b n + o)) (v : Word) :
    regWrite s who (pg b n + o) v = rowPut s who ⟨b, n, o⟩ r k v ∧ openWrite s who ⟨b, n, o⟩ r k := by
  obtain ⟨l, r', k', hl, hh, hr, hopen⟩ := h
  obtain rfl : l = ⟨b, n, o⟩ := Option.some.inj (hl.symm.trans (locate_pg hn ho))
  obtain ⟨rfl, rfl⟩ : r' = r ∧ k' = k := by simpa using hr.symm.trans hrow
  exact ⟨regWrite_of_row_open hl ⟨hopen.1, hopen.2.1, hopen.2.2.1, hopen.2.2.2.1⟩ hh hr v, hopen⟩

/-- Access code, defined bits and number in its array of the register at an offset of a block type's page (R13, R66). -/
def rowSpec (b : Blk) (o : Nat) : Option (Access × Nat × Nat) := (rowIn (blkRows b) o).map (fun x => (x.1.acc, x.1.mask, x.2))

/-- An open write of an RW or WO register has the register's effect on the value's defined bits. -/
theorem regWrite_eq_regEffect {s : State} {who : Who} {b : Blk} {n o m k : Nat} {acc : Access} (h : writes s who (pg b n + o))
    (hn : n < blkCount b) (ho : o < (blkPlace b).2.2.1) (hrow : rowSpec b o = some (acc, m, k)) (hacc : acc = .rw ∨ acc = .wo) (v : Word) :
    regWrite s who (pg b n + o) v = regEffect s who ⟨b, n, o⟩ k (v &&& BitVec.ofNat 32 m) := by
  simp only [rowSpec, Option.map_eq_some_iff, Prod.mk.injEq, Prod.exists] at hrow
  obtain ⟨r, k', hr, rfl, rfl, rfl⟩ := hrow
  obtain ⟨hw, -, -, -, -, hmay⟩ := regWrite_of_writes hn ho hr h v
  rw [hw]
  rcases hacc with hacc | hacc <;> simp only [rowPut, hacc, hmay, admitted]

/-- An open write finds the device out of reset. -/
theorem awake_of_writes {s : State} {who : Who} {a : Nat} (h : writes s who a) : Awake s := by
  obtain ⟨-, -, -, -, -, -, hreset, -⟩ := h
  exact hreset

end Sys2Proof.Machine
end

section
/-! Register writes with their effect, by page: read indices, ring configuration and window controls (R20, R21, R47, R48, R83 to R87, R525, R526,
R587, R652). -/

namespace Sys2Proof.Machine
open Sys2Proof

/-- A command that is a write of BAR0, where the write is open. -/
theorem exec_of_writes {c : Instr} {dt : Nat} {s : State} {who : Who} {a : Nat} {v : Word} (hc : exec c s = act dt (fun t => regWrite t who a v) s)
    (h : writes (arrive dt s) who a) : exec c s = .next (closing s (regWrite (arrive dt s) who a v)) :=
  hc.trans (act_awake (awake_of_writes h))

/-- A register of 32 defined bits takes a value whole. -/
theorem and_fullMask (v : Word) : v &&& BitVec.ofNat 32 0xFFFFFFFF = v := BitVec.and_allOnes

/-- A LOG2 field keeps the low five bits of a value. -/
theorem toNat_and_log2Mask (v : Word) : (v &&& BitVec.ofNat 32 0x1F).toNat = v.toNat % 32 := by
  rw [BitVec.toNat_and]
  exact Nat.and_two_pow_sub_one_eq_mod v.toNat 5

/-- A register after one is set to a number: that number's low 32 bits there, and as before elsewhere. -/
theorem regN_setRegN {s : State} (h : twf regRst s.regs = true) (a n j : Nat) : regN (setRegN s a n) j = if j = a then n % 2 ^ 32 else regN s j := by
  split
  case isTrue hj => rw [hj, regN_setRegN_same h]
  case isFalse hj => exact regN_setRegN_other h hj n

/-- A LOG2 field as it takes effect is below 32. -/
theorem log2In_lt (lo hi v : Nat) : log2In lo hi v < 32 := by
  unfold log2In
  split <;> omega

/-- Change the safety island's state. -/
def setSafe (s : State) (d : Safe) : State := { s with safe := d }

theorem regN_setSafe (s : State) (d : Safe) (a : Nat) : regN (setSafe s d) a = regN s a := rfl

section
variable {s : State} {who : Who} (v : Word)

/-! ## The command windows -/

/-- A write of CPL_RD_IDX (R83, R652). -/
theorem regWrite_cplRdIdx {p : Nat} (hp : p < 4) (h : writes s who (cw p + 0x160)) : regWrite s who (cw p + 0x160) v =
    if rdIdxOk s (cw p + 0x15C) (cw p + 0x158) v then cplRetry (setReg s (cw p + 0x160) v) p else s := by
  rw [cw, regWrite_eq_regEffect h hp (by decide) (show rowSpec .cmdw 0x160 = some (.rw, 0xFFFFFFFF, 0) from rfl) (.inl rfl), and_fullMask]
  rfl

/-- A write of CPL_LOG2 (R84). -/
theorem regWrite_cplLog2 {p : Nat} (hp : p < 4) (h : writes s who (cw p + 0x158)) : regWrite s who (cw p + 0x158) v =
    if outstanding s p != 0 || partStarted s p || cplHeld s p then raiseErr s .cmdw p 11 none
    else writeBack (setRegN (setRegN (setRegN s (cw p + 0x158) (log2In 8 20 (v.toNat % 32))) (cw p + 0x15C) 0) (cw p + 0x160) 0) p := by
  rw [cw, regWrite_eq_regEffect h hp (by decide) (show rowSpec .cmdw 0x158 = some (.rw, 0x1F, 0) from rfl) (.inl rfl), ← toNat_and_log2Mask]
  rfl

/-- A write of CPL_COAL (R86). -/
theorem regWrite_cplCoal {p : Nat} (hp : p < 4) (h : writes s who (cw p + 0x16C)) :
    regWrite s who (cw p + 0x16C) v = signalIf (setReg s (cw p + 0x16C) v) p false := by
  rw [cw, regWrite_eq_regEffect h hp (by decide) (show rowSpec .cmdw 0x16C = some (.rw, 0xFFFFFFFF, 0) from rfl) (.inl rfl), and_fullMask]
  rfl

/-- The IRQ_ROUTE entry of a block type code stands in the array from 0x400 (R87). -/
theorem rowSpec_irqRoute {t : Nat} (ht : t < 256) : rowSpec .cmdw (0x400 + 4 * t) = some (.rw, 0x13F, t) := by
  have habove (o : Nat) (ho : o < 0x400) : ¬0x400 + 4 * t < o ∧ 0x400 + 4 * t ≠ o := by omega
  have hargs : ¬((0x400 + 4 * t - 0x100) % 4 = 0 ∧ (0x400 + 4 * t - 0x100) / 4 < 16) := by omega
  simp [rowSpec, blkRows, rowsCmdw, rowIn, rowHit, habove, hargs, ht]

/-- A write of an IRQ_ROUTE entry (R87). -/
theorem regWrite_irqRoute {p t : Nat} (hp : p < 4) (ht : t < 256) (h : writes s who (cw p + 0x400 + 4 * t)) :
    regWrite s who (cw p + 0x400 + 4 * t) v = routeWrite s p t (v.toNat &&& 0x13F) := by
  rw [Nat.add_assoc] at h ⊢
  rw [cw, regWrite_eq_regEffect h hp (by simp only [blkPlace]; omega) (rowSpec_irqRoute ht) (.inl rfl)]
  have h1 : 0x400 + 4 * t ≠ 0x140 := by omega
  have h2 : ¬(0x150 ≤ 0x400 + 4 * t ∧ 0x400 + 4 * t ≤ 0x160) := by omega
  have h3 : 0x400 + 4 * t ≠ 0x16C := by omega
  have h4 : 0x400 ≤ 0x400 + 4 * t := by omega
  simp only [regEffect, cmdwReg, if_neg h1, if_neg h2, if_neg h3, if_pos h4, BitVec.toNat_and]
  rfl

/-! ## The SYS page -/

/-- A register of a partition's frame-drop log stands in its array of the SYS page (R43). -/
theorem dl_add (p o : Nat) : dl p + o = pg .sys 0 + (0x1A0 + 0x20 * p + o) := by
  simp only [dl, pg, blkPlace]
  omega

/-- A write of a read index or of a size of a frame-drop log (R43, R48). -/
theorem regWrite_dlog {p o m : Nat} (hp : p < 4) (ho : o < 0x20) (h : writes s who (dl p + o)) (hrow : rowSpec .sys (0x1A0 + 0x20 * p + o) = some (.rw, m, p)) :
    regWrite s who (dl p + o) v = dlogReg s p o (v &&& BitVec.ofNat 32 m) := by
  rw [dl_add] at h ⊢
  rw [regWrite_eq_regEffect h (by decide) (by simp only [blkPlace]; omega) hrow (.inl rfl)]
  have h1 : 0x1A0 ≤ 0x1A0 + 0x20 * p + o := by omega
  have h2 : (0x1A0 + 0x20 * p + o - 0x1A0) % 0x20 = o := by omega
  simp only [regEffect, if_pos h1, h2]

/-- A write of DLOG_RD_IDX (R47, R652). -/
theorem regWrite_dlogRdIdx {p : Nat} (hp : p < 4) (h : writes s who (dl p + 0x10)) : regWrite s who (dl p + 0x10) v =
    if rdIdxOk s (dl p + 0xC) (dl p + 8) v then
      (if (dlogAt s p).fault then dlogRetry (setReg s (dl p + 0x10) v) p else dlogOwed (setReg s (dl p + 0x10) v) p) else s := by
  have hrow : rowSpec .sys (0x1A0 + 0x20 * p + 0x10) = some (.rw, 0xFFFFFFFF, p) := by interval_cases p <;> rfl
  rw [regWrite_dlog v hp (by decide) h hrow, and_fullMask]
  rfl

/-- A write of DLOG_LOG2 (R48). -/
theorem regWrite_dlogLog2 {p : Nat} (hp : p < 4) (h : writes s who (dl p + 8)) : regWrite s who (dl p + 8) v =
    if partStarted s p || (dlogAt s p).lost != 0 || (dlogAt s p).fault then rexViol s 4
    else setDlog (setRegN (setRegN (setRegN s (dl p + 8) (log2In 7 20 (v.toNat % 32))) (dl p + 0xC) 0) (dl p + 0x10) 0) p {} := by
  have hrow : rowSpec .sys (0x1A0 + 0x20 * p + 8) = some (.rw, 0x1F, p) := by interval_cases p <;> rfl
  rw [regWrite_dlog v hp (by decide) h hrow, ← toNat_and_log2Mask]
  rfl

/-! ## The SAFE, DBG, ROLV and FGS pages -/

/-- A write of VR_RD_IDX (R525, R652). -/
theorem regWrite_vrRdIdx (h : writes s who (safePg + 0x130)) : regWrite s who (safePg + 0x130) v =
    if rdIdxOk s (safePg + 0x12C) (safePg + 0x128) v then vRetry (setReg s (safePg + 0x130) v) else s := by
  rw [safePg, regWrite_eq_regEffect h (by decide) (by decide) (show rowSpec .safe 0x130 = some (.rw, 0xFFFFFFFF, 0) from rfl) (.inl rfl), and_fullMask]
  rfl

/-- A write of VR_LOG2 (R526). -/
theorem regWrite_vrLog2 (h : writes s who (safePg + 0x128)) : regWrite s who (safePg + 0x128) v =
    if partStarted s 0 || !s.safe.vheld.isEmpty then raiseErr s .safe 0 10 none
    else setSafe (setRegN (setRegN (setRegN s (safePg + 0x128) (log2In 8 20 (v.toNat % 32))) (safePg + 0x12C) 0) (safePg + 0x130) 0)
      { s.safe with vcount := 0, vfault := false } := by
  rw [safePg, regWrite_eq_regEffect h (by decide) (by decide) (show rowSpec .safe 0x128 = some (.rw, 0x1F, 0) from rfl) (.inl rfl), ← toNat_and_log2Mask]
  rfl

/-- A write of SINKk_RD_IDX (R587, R652). -/
theorem regWrite_sinkRdIdx {k : Nat} (hk : k < 4) (h : writes s who (sk k + 0x18)) : regWrite s who (sk k + 0x18) v =
    if rdIdxOk s (sk k + 0x14) (sk k + 8) v then sinkOwed (setReg s (sk k + 0x18) v) k else s := by
  have ha : sk k + 0x18 = pg .dbg 0 + (0x158 + 0x20 * k) := by simp only [sk, dbgPg]; omega
  have hrow : rowSpec .dbg (0x158 + 0x20 * k) = some (.rw, 0xFFFFFFFF, k) := by interval_cases k <;> rfl
  rw [ha] at h
  conv_lhs => rw [ha]
  rw [regWrite_eq_regEffect h (by decide) (by simp only [blkPlace]; omega) hrow (.inl rfl), and_fullMask]
  interval_cases k <;> rfl

/-- A write of DISC_RD_IDX (R495, R652). -/
theorem regWrite_discRdIdx (h : writes s who (rv 0x150)) : regWrite s who (rv 0x150) v =
    if rdIdxOk s (rv 0x14C) (rv 0x148) v then setReg s (rv 0x150) v else s := by
  rw [rv, regWrite_eq_regEffect h (by decide) (by decide) (show rowSpec .rolv 0x150 = some (.rw, 0xFFFFFFFF, 0) from rfl) (.inl rfl), and_fullMask]
  rfl

/-- A write of a partition's grant (R20, R21). -/
theorem regWrite_fgsGrant {p : Nat} (hp : p < 4) (h : writes s who (fgsPg + 0x120 + 4 * p)) : regWrite s who (fgsPg + 0x120 + 4 * p) v =
    if grantBlocked s p then s else setReg s (fgsPg + 0x120 + 4 * p) (v &&& 0x8000_0FFF) := by
  have hrow : rowSpec .fgs (0x120 + 4 * p) = some (.rw, 0x80000FFF, p) := by interval_cases p <;> rfl
  rw [Nat.add_assoc] at h ⊢
  rw [fgsPg, regWrite_eq_regEffect h (by decide) (by simp only [blkPlace]; omega) hrow (.inl rfl)]
  have h1 : 0x120 ≤ 0x120 + 4 * p ∧ 0x120 + 4 * p < 0x130 := by omega
  simp only [regEffect, if_pos h1]
  rfl

end

/-- IRQ_ENABLE_WRITE is a write of BAR0. -/
theorem exec_irqEnableWrite (dt : Nat) (who : Who) (a : Nat) (v : Word) (s : State) :
    exec (.irqEnableWrite dt who a v) s = act dt (fun t => regWrite t who a v) s := rfl

/-- Enables over bits that read 0 are stored, and no message goes out (R87). -/
theorem irqEnable_of_none_raised (s : State) (b : Blk) (n : Nat) {v : Nat}
    (h : ∀ i, i < 32 → bitOf v i = true → bitOf (regN s (pg b n + 0x10)) i = false) :
    irqEnable s b n v = setRegN s (pg b n + 0x14) (v &&& irqBits b) := by
  have hnone : (List.range 32).filter (fun i => bitOf (v &&& irqBits b) i && !bitOf (regN s (pg b n + 0x14)) i && bitOf (regN s (pg b n + 0x10)) i) = [] := by
    rw [List.filter_eq_nil_iff]
    intro i hi
    by_cases hv : bitOf v i = true
    · simp [h i (List.mem_range.mp hi) hv]
    · simp only [bitOf_eq_testBit, Bool.not_eq_true] at hv
      simp [bitOf_eq_testBit, hv]
  simp only [irqEnable, hnone]
  rfl

/-- Settles O17: each of the five registers is a row whose effect is the ring's. -/
theorem readIndexWrites : Obligations.ReadIndexWrites := by
  intro dt s who v b
  refine ⟨fun p hp h => ?_, fun p hp h => ?_, fun h => ?_, fun k hk h => ?_, fun h => ?_⟩
  · rw [exec_of_writes rfl h, regWrite_cplRdIdx v hp h]
  · rw [exec_of_writes rfl h, regWrite_dlogRdIdx v hp h]
  · rw [exec_of_writes rfl h, regWrite_vrRdIdx v h]
  · rw [exec_of_writes rfl h, regWrite_sinkRdIdx v hk h]
  · rw [exec_of_writes rfl h, regWrite_discRdIdx v h]

/-- Settles O18: the size of a ring is a row that is refused while the ring is in use, and sets the indices to 0 otherwise. -/
theorem ringConfigurationWrites : Obligations.RingConfigurationWrites := by
  intro dt s who v b
  have hs : twf regRst b.regs = true := arrive_regs_wf dt s
  refine ⟨fun p hp h => ?_, fun p hp h => ?_, fun h => ?_⟩
  · rw [exec_of_writes (a := cw p + 0x158) rfl h, regWrite_cplLog2 v hp h]
    refine ⟨fun hbusy => ?_, fun h1 h2 h3 => ?_⟩
    · rw [if_pos (by simpa [or_assoc] using hbusy)]
    · rw [if_neg (by simp [b, h1, h2, h3])]
  · rw [exec_of_writes (a := dl p + 8) rfl h, regWrite_dlogLog2 v hp h]
    refine ⟨fun hbusy => ?_, fun h1 h2 h3 => ?_⟩
    · rw [if_pos (by simpa [or_assoc] using hbusy)]
    · rw [if_neg (by simp [b, h1, h2, h3])]
  · rw [exec_of_writes (a := safePg + 0x128) rfl h, regWrite_vrLog2 v h]
    refine ⟨fun hbusy => ?_, fun h1 h2 => ?_⟩
    · rw [if_pos (by simpa using hbusy)]
    · rw [if_neg (by simp [b, h1, h2])]
      have h1' := setRegN_wf hs (safePg + 0x128) (log2In 8 20 (v.toNat % 32))
      have h2' := setRegN_wf h1' (safePg + 0x12C) 0
      refine ⟨_, rfl, ?_, ?_, ?_, rfl, rfl, rfl⟩
      · have hlt := log2In_lt 8 20 (v.toNat % 32)
        rw [regN_setSafe, regN_setRegN h2', regN_setRegN h1', regN_setRegN hs]
        simp
        omega
      · simp [regN_setSafe, regN_setRegN h2', regN_setRegN h1']
      · simp [regN_setSafe, regN_setRegN h2']

/-- Settles O19: enables, routes, coalescing and grants are stored by their rows, with what follows at once. -/
theorem windowControlWrites : Obligations.WindowControlWrites := by
  intro dt s who v b
  refine ⟨fun a l hl hh ho hf => ⟨?_, irqEnable_of_none_raised b l.blk l.inst⟩, fun p t hp ht h => ?_, fun p hp h => ?_, fun p hp h => ?_⟩
  · rw [exec_irqEnableWrite, act_awake ho.1, regWrite_of_header_open hl ho hh]
    simp only [headWrite, hf, admitted]
    rfl
  · rw [exec_of_writes (a := cw p + 0x400 + 4 * t) rfl h, regWrite_irqRoute v hp ht h]
  · rw [exec_of_writes rfl h, regWrite_cplCoal v hp h]
  · rw [exec_of_writes rfl h, regWrite_fgsGrant v hp h]
    refine ⟨fun hb => ?_, fun hb => ?_⟩
    · rw [if_pos hb]
    · rw [if_neg (by simp [b, hb])]

end Sys2Proof.Machine
end

section
/-! Register writes by access code, refused writes, commits and soft resets (R13, R16, R27, R28, R71 to R74, R90, R387, R400). -/

namespace Sys2Proof.Machine
open Sys2Proof

/-! ## Access codes -/

/-- A register of a block without control registers takes what an RW write leaves (R13). -/
theorem regEffect_plain {s : State} {who : Who} {l : Loc} (h : plainBlk l.blk = true) (k : Nat) (v : Word) :
    regEffect s who l k v = setReg s (pg l.blk l.inst + l.off) v := by
  obtain ⟨b, n, o⟩ := l
  cases b
  case camp | cams | rpl | isp | pyr | warp | str | flw | ftr | vtm | nc | ncm | ncv | ncd | spc | ladle | fabp => rfl
  all_goals cases h

section
variable {s : State} {who : Who} {l : Loc} {r : RegRow} {k : Nat} (v : Word)

/-- A write of a read-only register that its level does not refuse changes nothing. -/
theorem rowPut_readOnly (hacc : r.acc = .ro ∨ r.acc = .rc) (h : mayWrite s who l r.r k ≠ .refuse) : rowPut s who l r k v = s := by
  have hro : roPut s who l r k = s := by
    unfold roPut
    split
    · exact absurd ‹_› h
    · rfl
  rcases hacc with hacc | hacc <;> simp only [rowPut, hacc, hro]

/-- A write of a read-only register that its level refuses is recorded. -/
theorem rowPut_readOnly_refused (hacc : r.acc = .ro ∨ r.acc = .rc) (h : mayWrite s who l r.r k = .refuse) :
    rowPut s who l r k v = noPerm s (whoPart who) := by
  rcases hacc with hacc | hacc <;> simp only [rowPut, hacc, roPut, h]

/-- An admitted write of an RW register of a block without control registers. -/
theorem rowPut_rw_plain (hacc : r.acc = .rw) (hmay : mayWrite s who l r.w k = .ok) (hb : plainBlk l.blk = true) :
    rowPut s who l r k v = setReg s (pg l.blk l.inst + l.off) (v &&& BitVec.ofNat 32 r.mask) := by
  simp only [rowPut, hacc, hmay, admitted, regEffect_plain hb]

/-- An admitted write of a W1C register clears the bits written 1. -/
theorem rowPut_w1c (hacc : r.acc = .w1c) (hmay : mayWrite s who l r.w k = .ok) : rowPut s who l r k v =
    setReg s (pg l.blk l.inst + l.off) (reg s (pg l.blk l.inst + l.off) &&& ~~~ (v &&& BitVec.ofNat 32 r.mask)) := by
  simp only [rowPut, hacc, hmay, admitted, clrReg, BitVec.ofNat_toNat, BitVec.setWidth_eq]

/-- An admitted write of an RWS register goes to its shadow, or is lost to a pending commit. -/
theorem rowPut_rws (hacc : r.acc = .rws) (hmay : mayWrite s who l r.w k = .ok) (hb : l.blk ≠ .rolv) :
    rowPut s who l r k v = shadowWrite s l.blk l.inst (pg l.blk l.inst + l.off) (v &&& BitVec.ofNat 32 r.mask) := by
  simp only [rowPut, hacc, hmay, admitted, hb, false_and, if_false]

/-- A write of an RW, RWS or WO register whose level the accessor lacks is recorded. -/
theorem rowPut_refused (hacc : r.acc = .rw ∨ r.acc = .rws ∨ r.acc = .wo) (hmay : mayWrite s who l r.w k = .refuse) :
    rowPut s who l r k v = noPerm s (whoPart who) := by
  rcases hacc with hacc | hacc | hacc <;> simp only [rowPut, hacc, hmay, admitted]

/-- A shadow takes a value while no commit waits. -/
theorem shadowWrite_of_free {b : Blk} {n : Nat} (hc : s.commits.contains (pg (headBlk b) n) = false) (a : Nat) :
    shadowWrite s b n a v = setReg s a v := by
  rw [shadowWrite, if_neg (by simp only [hc, Bool.false_eq_true, not_false_eq_true])]

end

/-- Settles O9: one clause for each access code, each the row's own write. -/
theorem registerWriteTakesEffect : Obligations.RegisterWriteTakesEffect := by
  intro dt s who a v l r k b hl hh hrow ho
  have hexec : exec (.registerWrite dt who a v) s = .next (closing s (rowPut b who l r k v)) := by
    rw [exec_registerWrite, act_awake ho.1, regWrite_of_row_open hl ho hh hrow]
  rw [hexec]
  refine ⟨fun hacc => ⟨fun hm => ?_, fun hm => ?_⟩, fun hm hacc hb => ?_, fun hm hacc => ?_, fun hm hacc hb hc => ?_, fun hm hacc hb hc => ?_⟩
  · rw [rowPut_readOnly v hacc hm]
  · rw [rowPut_readOnly_refused v hacc hm]
  · rw [rowPut_rw_plain v hacc hm hb]
  · rw [rowPut_w1c v hacc hm]
  · rw [rowPut_rws v hacc hm hb, shadowWrite_of_free _ hc]
  · rw [rowPut_rws v hacc hm hb, shadowWrite_of_pending hc]

/-! ## Refused writes -/

/-- A denied page records NO_PERMISSION, but not for BLK_PART of a page that nobody may assign (R27, R28). -/
theorem regWrite_of_denied {s : State} {who : Who} {a : Nat} {l : Loc} (hr : s.boot.inReset = false) (hl : locate a = some l)
    (hv : viewOf s who l = .denied) (v : Word) :
    regWrite s who a v = if headerOff l = some 0x24 ∧ blkClass l.blk ≠ .assignable then s else noPerm s (whoPart who) := by
  simp [regWrite, hr, hl, hv]

/-- An offset of a shown page that no register stands at refuses an accessor of another partition (R90). -/
theorem regWrite_of_no_row {s : State} {who : Who} {a : Nat} {l : Loc} (hl : locate a = some l) (ho : headerOpen s who l) (hh : headerOff l = none)
    (hrow : rowAt l = none) (hf : foreign s who l = true) (v : Word) : regWrite s who a v = noPerm s (whoPart who) := by
  have hopen := not_closed_of_headerOpen ho
  obtain ⟨hreset, hview, -, -⟩ := ho
  simp [regWrite, hreset, hl, hview, hopen, hh, hrow, hf, admitted]

/-- An assignable page of another partition is absent to D1 to D3 (R27). -/
theorem viewOf_of_other_owner {s : State} {f : Nat} {l : Loc} (hc : blkClass l.blk = .assignable) (hf : f ≠ 0) (ho : owner s l.blk l.inst ≠ f) :
    viewOf s (.pf f) l = .absent := by
  have hhost : isHost (.pf f) = false := by simp [isHost, hf]
  have hfn : whoFn (.pf f) = f := rfl
  simp [viewOf, hhost, hfn, hc, ho]

/-- Settles O10: the page's view, its header, the missing row and the row's level each refuse on their own. -/
theorem refusedWritesReport : Obligations.RefusedWritesReport := by
  intro dt s f a v l r k b hr hl
  have hopen (hv : viewOf b (.pf f) l = .shown) (hs : isStopped b = false) (hb : bootState b = 2) : headerOpen b (.pf f) l :=
    ⟨hr, hv, .inl hs, .inl (by omega)⟩
  rw [exec_registerWrite, act_awake hr]
  refine ⟨fun hv => ?_, fun hv hc => ?_, fun hv hh hc => ?_, fun hv hs hb hh hrow hf => ?_, fun hv hs hb hh hrow hw hf hacc => ?_,
    fun hc hf ho _ _ => viewOf_of_other_owner hc hf ho⟩
  · rw [regWrite_of_view_absent hl hv]
    exact ⟨rfl, regRead_of_view_absent hr hl hv⟩
  · rw [regWrite_of_denied hr hl hv, if_neg (by tauto)]
    rfl
  · rw [regWrite_of_denied hr hl hv, if_pos ⟨hh, hc⟩]
  · rw [regWrite_of_no_row hl (hopen hv hs hb) hh hrow hf]
    rfl
  · have hm : mayWrite b (.pf f) l r.w k = .refuse := by simp [mayWrite, hw, hf]
    rw [regWrite_of_row_open hl (hopen hv hs hb) hh hrow, rowPut_refused v hacc hm]
    rfl

/-! ## Applying a shadow -/

/-- Setting applied values one after another leaves the others. -/
theorem app_forAll_setApp_other (f : Nat → Word) {a : Nat} (l : List Nat) {t : State} (ht : twf regRst t.applied = true) (h : a ∉ l) :
    app (forAll l (fun a t => setApp t a (f a)) t) a = app t a := by
  induction l generalizing t with
  | nil => rfl
  | cons x xs ih =>
    obtain ⟨hx, hxs⟩ := not_or.mp (mt List.mem_cons.mpr h)
    exact (ih (t := setApp t x (f x)) (twf_tset regRst x (f x) ht) hxs).trans (app_setApp_other ht hx (f x))

/-- The shadowed registers of a page other than the transport's are the RWS registers of its table. -/
theorem shadowList_eq {b : Blk} (hb : b ≠ .rolv) (n : Nat) : shadowList b n = (rwsOffsets (blkRows b)).map (fun o => pg b n + o) := by
  cases b
  case rolv => exact absurd rfl hb
  all_goals exact List.append_nil _

/-- The transport's page is in the group of no other block. -/
theorem ne_rolv_of_mem_pageGroup {x y : Blk} (hx : x ≠ .rolv) (hy : y ∈ pageGroup x) : y ≠ .rolv := by
  rintro rfl
  cases x
  case rolv => exact hx rfl
  all_goals exact absurd hy (by decide)

/-- Settles O12: an application sets exactly the RWS registers of the group's pages. -/
theorem shadowAppliesWhole : Obligations.ShadowAppliesWhole := by
  intro s x n a hs hx
  refine ⟨?_, fun hno => ?_, applyShadow_regs s x n⟩
  · rintro ⟨y, hy, o, ho, rfl⟩
    exact app_applyShadow hs hy ho n
  · refine app_forAll_setApp_other (reg s) _ hs ?_
    intro hmem
    obtain ⟨y, hy, ha⟩ := List.mem_flatMap.mp hmem
    rw [shadowList_eq (ne_rolv_of_mem_pageGroup hx hy)] at ha
    obtain ⟨o, ho, rfl⟩ := List.mem_map.mp ha
    exact hno y hy o ho rfl

/-! ## Soft reset -/

/-- The registers of a list return to their reset values, written and applied (R74). -/
def resetRegs (l : List Nat) (s : State) : State := forAll l (fun a t => setBoth t a (regRst a)) s

/-- A return to reset values changes registers and applied values alone. -/
theorem resetRegs_eq (l : List Nat) (s : State) : ∃ r a, resetRegs l s = { s with
    regs := r
    applied := a } := by
  induction l generalizing s with
  | nil => exact ⟨_, _, rfl⟩
  | cons x xs ih =>
    obtain ⟨r, a, h⟩ := ih (setBoth s x (regRst x))
    exact ⟨r, a, h⟩

section
variable {s : State} (hr : twf regRst s.regs = true) (ha : twf regRst s.applied = true)
include hr ha

/-- A register of the list, or one that has its reset value, has it in the end. -/
theorem reset_resetRegs {x : Nat} (l : List Nat) (h : x ∈ l ∨ reg s x = regRst x ∧ app s x = (regRst x).toNat) :
    reg (resetRegs l s) x = regRst x ∧ app (resetRegs l s) x = (regRst x).toNat := by
  induction l generalizing s with
  | nil => simpa [resetRegs, forAll] using h
  | cons y ys ih =>
    refine ih (s := setBoth s y (regRst y)) (twf_tset regRst y _ hr) (twf_tset regRst y _ ha) ?_
    by_cases hxy : x = y
    · subst hxy
      exact .inr ⟨tget_tset_same regRst x _ hr, congrArg BitVec.toNat (tget_tset_same regRst x _ ha)⟩
    · rcases h with h | ⟨h1, h2⟩
      · exact .inl ((List.mem_cons.mp h).resolve_left hxy)
      · exact .inr ⟨(tget_tset_other regRst y x _ hxy hr).trans h1, (congrArg BitVec.toNat (tget_tset_other regRst y x _ hxy ha)).trans h2⟩

omit ha in
/-- A register that is none of the list keeps its value. -/
theorem reg_resetRegs_other {x : Nat} (l : List Nat) (h : x ∉ l) : reg (resetRegs l s) x = reg s x := by
  induction l generalizing s with
  | nil => rfl
  | cons y ys ih =>
    obtain ⟨hy, hys⟩ := not_or.mp (mt List.mem_cons.mpr h)
    exact (ih (s := setBoth s y (regRst y)) (twf_tset regRst y _ hr) hys).trans (tget_tset_other regRst y x _ hy hr)

end

/-- Block types whose soft reset is the return of the registers of one page, and the end of a pending commit (R74). -/
def plainReset : List Blk := [.camp, .isp, .pyr, .warp, .str, .flw, .ftr, .vse, .ladle]

/-- The registers that such a soft reset returns: those of the page's table, BLK_IRQ_EN and BLK_CTL. -/
def plainResetList (x : Blk) (n : Nat) : List Nat := (rwOffsets (blkRows x) ++ [0x14, 0x08]).map (fun o => pg x n + o)

/-- The soft reset of such a unit. -/
theorem softReset_plain {x : Blk} (hx : x ∈ plainReset) (s : State) (n : Nat) : softReset s x n = resetRegs (plainResetList x n) (commitEnds s x n) := by
  have hlist : (pageGroup x).flatMap (fun y => resetList y n ++ resetIndices y n) ++ ((pageGroup x).map (fun y => pg y n + 0x14) ++ [pg x n + 0x08]) =
      plainResetList x n := by
    simp only [plainReset, List.mem_cons, List.not_mem_nil, or_false] at hx
    rcases hx with rfl | rfl | rfl | rfl | rfl | rfl | rfl | rfl | rfl <;> simp [pageGroup, resetList, resetIndices, plainResetList]
  have hplain : softReset s x n =
      resetRegs ((pageGroup x).flatMap (fun y => resetList y n ++ resetIndices y n) ++ ((pageGroup x).map (fun y => pg y n + 0x14) ++ [pg x n + 0x08]))
        (commitEnds s x n) := by
    simp only [plainReset, List.mem_cons, List.not_mem_nil, or_false] at hx
    rcases hx with rfl | rfl | rfl | rfl | rfl | rfl | rfl | rfl | rfl <;> rfl
  rw [hplain, hlist]

/-- BLK_PART is none of the registers that such a soft reset returns. -/
theorem partAddr_not_reset {x : Blk} (hx : x ∈ plainReset) (n : Nat) : partAddr x n ∉ plainResetList x n := by
  have hoff : 0x24 ∉ rwOffsets (blkRows x) ++ [0x14, 0x08] := by
    revert x
    decide
  have hpart : partAddr x n = pg x n + 0x24 := by
    simp only [plainReset, List.mem_cons, List.not_mem_nil, or_false] at hx
    rcases hx with rfl | rfl | rfl | rfl | rfl | rfl | rfl | rfl | rfl <;> rfl
  rw [hpart]
  intro h
  obtain ⟨o, ho, he⟩ := List.mem_map.mp h
  obtain rfl : o = 0x24 := by omega
  exact hoff ho

/-- The end of a pending commit changes the list of commits and the state of held tone commits alone. -/
theorem commitEnds_eq (s : State) (b : Blk) (n : Nat) : ∃ t, commitEnds s b n = { s with
    commits := s.commits.filter (fun x => x != pg b n)
    tone := t } := by
  unfold commitEnds
  split <;> exact ⟨_, rfl⟩

/-- Settles O14: the listed block types reset plainly, and BLK_PART stands outside what they reset. -/
theorem softResetRestores : Obligations.SoftResetRestores := by
  intro s x n o hr ha hx _
  obtain ⟨t, hc⟩ := commitEnds_eq s x n
  obtain ⟨r, a, he⟩ := resetRegs_eq (plainResetList x n) (commitEnds s x n)
  have hrc : twf regRst (commitEnds s x n).regs = true := by rw [hc]; exact hr
  have hac : twf regRst (commitEnds s x n).applied = true := by rw [hc]; exact ha
  rw [softReset_plain hx]
  refine ⟨fun ho => ?_, ?_, ?_, ?_⟩
  · exact reset_resetRegs hrc hac _ (.inl (List.mem_map.mpr ⟨o, List.mem_append_left _ ho, rfl⟩))
  · rw [owner, regN, reg_resetRegs_other hrc _ (partAddr_not_reset hx n), hc]
    rfl
  · rw [he, hc]
  · rw [he, hc]

/-! ## Clears of memory -/

/-- Clearing granules changes the tile memory alone (R400). -/
theorem forAll_granuleClear_eq (l : List Nat) (s : State) : ∃ t u, forAll l granuleClear s = { s with
    tile := t
    tileUe := u } := by
  induction l generalizing s with
  | nil => exact ⟨_, _, rfl⟩
  | cons g gs ih =>
    obtain ⟨t, u, h⟩ := ih (granuleClear g s)
    exact ⟨t, u, h⟩

/-- An application changes applied values alone (R71). -/
theorem applyShadow_eq (s : State) (b : Blk) (n : Nat) : ∃ a, applyShadow s b n = { s with applied := a } := by
  have h (f : Nat → Word) (l : List Nat) (t : State) : ∃ a, forAll l (fun a t => setApp t a (f a)) t = { t with applied := a } := by
    induction l generalizing t with
    | nil => exact ⟨_, rfl⟩
    | cons x xs ih =>
      obtain ⟨a, h⟩ := ih (setApp t x (f x))
      exact ⟨a, h⟩
  exact h _ _ _

/-- A commit that completes ends, raises COMMIT_DONE and leaves a crumb; memory and clears stay. -/
theorem commitDone_eq (s : State) (b : Blk) (n : Nat) : ∃ a t r c m d, commitDone s b n = { s with
    applied := a
    commits := s.commits.filter (fun x => x != pg b n)
    tone := t
    regs := r
    irqCtx := c
    msix := m
    dbg := d } := by
  obtain ⟨a, ha⟩ := applyShadow_eq s b n
  obtain ⟨t, ht⟩ := commitEnds_eq (applyShadow s b n) b n
  obtain ⟨r, c, m, hi⟩ := raiseIrq_irqOnly (commitEnds (applyShadow s b n) b n) b n 0 none
  exact ⟨a, t, r, c, m, _, by rw [commitDone, hi, ht, ha]; rfl⟩

/-- SCRATCHPAD_CLEAR_DONE and TILE_CLEAR_DONE act while the data plane works. -/
theorem exec_scratchpadClearDone (dt u : Nat) (s : State) : exec (.scratchpadClearDone dt u) s = actLive dt (fun t => spadClearDone t u) s := rfl
theorem exec_tileClearDone (dt : Nat) (s : State) : exec (.tileClearDone dt) s = actLive dt tileClearDone s := rfl

/-- Settles O15: a clear that is under way ends, and the tile memory's completes its commit. -/
theorem clearsEnd : Obligations.ClearsEnd := by
  intro dt s n b hw
  refine ⟨fun hc => ?_, fun hc => ?_⟩
  · rw [exec_scratchpadClearDone, actLive_works hw, spadClearDone, if_pos hc]
    exact ⟨_, rfl, rfl, rfl, rfl, rfl, rfl⟩
  · rw [exec_tileClearDone, actLive_works hw, tileClearDone, if_pos hc]
    obtain ⟨t, u, hg⟩ := forAll_granuleClear_eq (granulesIn b) { b with clearing := b.clearing.filter (fun x => x != pg .vtm 0) }
    obtain ⟨_, _, _, _, _, _, hd⟩ := commitDone_eq (forAll (granulesIn b) granuleClear { b with clearing := b.clearing.filter (fun x => x != pg .vtm 0) }) .vtm 0
    refine ⟨_, rfl, ?_⟩
    rw [hd, hg]
    exact ⟨rfl, rfl, rfl, rfl⟩

end Sys2Proof.Machine
end

section
/-! Sequences, reasons and handles: the arithmetic of R78, R79 and R102. -/

namespace Sys2Proof.Machine
open Sys2Proof

/-! ## Sequences (R102) -/

theorem seqBelow_iff (a b : Word) : seqBelow a b = true ↔ 1 ≤ (b - a).toNat ∧ (b - a).toNat < 2 ^ 31 := by
  simp [seqBelow]

theorem seqBelow_iff_exists (a b : Word) : seqBelow a b = true ↔ ∃ d : Nat, 1 ≤ d ∧ d < 2 ^ 31 ∧ b = a + BitVec.ofNat 32 d := by
  rw [seqBelow_iff]
  constructor
  · rintro ⟨h1, h2⟩
    exact ⟨(b - a).toNat, h1, h2, by bv_omega⟩
  · rintro ⟨d, h1, h2, rfl⟩
    have hd : (a + BitVec.ofNat 32 d - a).toNat = d := by bv_omega
    omega

theorem seqBelow_swap {a b : Word} (h : a ≠ b) (hh : b - a ≠ 0x80000000) : seqBelow a b = true ↔ seqBelow b a = false := by
  rw [← Bool.not_eq_true, seqBelow_iff, seqBelow_iff]
  have h1 : (b - a).toNat ≠ 2 ^ 31 := fun e => hh (BitVec.eq_of_toNat_eq e)
  bv_omega

theorem seqBelow_self (a : Word) : seqBelow a a = false := by simp [seqBelow]

/-- Settles O28: each clause is a fact of the difference modulo 2^32. -/
theorem sequencesCompareAround : Obligations.SequencesCompareAround :=
  ⟨seqBelow_iff_exists, fun _ _ => seqBelow_swap, seqBelow_self, fun _ _ => rfl⟩

/-! ## Reasons (R79) -/

/-- The reason after one more that may apply. -/
def lowerReason (m : Option Nat) (c : Nat) : Option Nat :=
  match m with
  | none => some c
  | some d => some (min c d)

theorem foldl_lowerReason_some (d : Nat) (l : List Nat) : ∃ r, l.foldl lowerReason (some d) = some r ∧ (r = d ∨ r ∈ l) ∧ r ≤ d ∧ ∀ x ∈ l, r ≤ x := by
  induction l generalizing d with
  | nil => exact ⟨d, rfl, .inl rfl, le_rfl, by simp⟩
  | cons c l ih =>
    obtain ⟨r, hr, hm, hle, hall⟩ := ih (min c d)
    refine ⟨r, hr, ?_, by omega, ?_⟩
    · rcases hm with rfl | hm
      · rcases Nat.le_total c d with h | h <;> simp [h]
      · exact .inr (List.mem_cons_of_mem _ hm)
    · rintro x (_ | ⟨_, hx⟩)
      · omega
      · exact hall x hx

/-- The codes of the reasons that apply. -/
def applying (l : List (Bool × Nat)) : List Nat := l.filterMap (fun x => if x.1 then some x.2 else none)

theorem mem_applying {l : List (Bool × Nat)} {r : Nat} : r ∈ applying l ↔ (true, r) ∈ l := by
  simp only [applying, List.mem_filterMap, Option.ite_none_right_eq_some, Option.some.injEq]
  constructor
  · rintro ⟨⟨b, c⟩, hx, hb, rfl⟩
    exact hb ▸ hx
  · exact fun h => ⟨_, h, rfl, rfl⟩

theorem lowest_eq (l : List (Bool × Nat)) : lowest l = (applying l).foldl lowerReason none := rfl

theorem lowest_none_iff (l : List (Bool × Nat)) : lowest l = none ↔ ∀ x ∈ l, x.1 = false := by
  rw [lowest_eq]
  cases h : applying l with
  | nil =>
    refine iff_of_true rfl fun x hx => Bool.eq_false_iff.mpr fun hb => ?_
    have := mem_applying.mpr (show (true, x.2) ∈ l from hb ▸ hx)
    simp [h] at this
  | cons c t =>
    obtain ⟨r, hr, -⟩ := foldl_lowerReason_some c t
    have hc : (true, c) ∈ l := mem_applying.mp (h ▸ List.mem_cons_self)
    refine iff_of_false (by simp [lowerReason, hr]) fun hall => ?_
    exact absurd (hall _ hc) (by simp)

theorem lowest_some_iff (l : List (Bool × Nat)) (r : Nat) : lowest l = some r ↔ (true, r) ∈ l ∧ ∀ x ∈ l, x.1 = true → r ≤ x.2 := by
  have least {m : Nat} (hm : lowest l = some m) : (true, m) ∈ l ∧ ∀ x ∈ l, x.1 = true → m ≤ x.2 := by
    rw [lowest_eq] at hm
    cases h : applying l with
    | nil => simp [h] at hm
    | cons c t =>
      obtain ⟨r, hr, hmem, hle, hall⟩ := foldl_lowerReason_some c t
      have hrm : r = m := by simpa [h, lowerReason, hr] using hm
      subst hrm
      refine ⟨mem_applying.mp (h ▸ List.mem_cons.mpr hmem), fun x hx hb => ?_⟩
      have hx' : x.2 ∈ applying l := mem_applying.mpr (hb ▸ hx)
      rcases List.mem_cons.mp (h ▸ hx') with e | e
      · omega
      · exact hall _ e
  refine ⟨least, fun ⟨hmem, hall⟩ => ?_⟩
  cases h : lowest l with
  | none => exact absurd ((lowest_none_iff l).mp h _ hmem) (by simp)
  | some m =>
    obtain ⟨hm, hm'⟩ := least h
    exact congrArg some (Nat.le_antisymm (hm' _ hmem rfl) (hall _ hm rfl))

theorem rejection_fields {p r : Nat} (hp : p < 4) (hr : r < 2 ^ 16) :
    bitOf (rejection p r) 31 = true ∧ fld (rejection p r) 29 2 = p ∧ fld (rejection p r) 16 13 = 0 ∧ fld (rejection p r) 0 16 = r := by
  simp only [bitOf, fld, rejection, Nat.shiftRight_eq_div_pow, beq_iff_eq]
  omega

/-- Settles O23: `lowest` is the minimum of the codes that apply, and a rejection keeps its three parts apart. -/
theorem rejectionsReportLowest : Obligations.RejectionsReportLowest :=
  ⟨fun l => ⟨lowest_none_iff l, lowest_some_iff l⟩, fun _ _ => rejection_fields⟩

/-! ## Handles (R78) -/

theorem mkHandle_fields {p g i : Nat} (hp : p < 4) (h1 : 1 ≤ g) (hg : g ≤ 8191) (hi : i < 256) :
    mkHandle p g i ≠ 0 ∧ bitOf (mkHandle p g i) 31 = false ∧ fld (mkHandle p g i) 29 2 = p ∧
    fld (mkHandle p g i) 16 13 = g ∧ fld (mkHandle p g i) 0 16 = i := by
  simp only [bitOf, fld, mkHandle, Nat.shiftRight_eq_div_pow, beq_eq_false_iff_ne]
  omega

theorem nextGen_bounds (g : Nat) : 1 ≤ nextGen g ∧ nextGen g ≤ 8191 ∧ (g < 8191 → nextGen g = g + 1) := by
  unfold nextGen
  split <;> omega

theorem freeSlot_some {s : State} {p i : Nat} (h : freeSlot s p = some i) :
    i < 256 ∧ (tget (fun _ => ({} : CmdSlot)) (cmdwAt s p).slots i).busy = false ∧
    ∀ j, j < i → (tget (fun _ => ({} : CmdSlot)) (cmdwAt s p).slots j).busy = true := by
  rw [freeSlot, List.find?_range_eq_some] at h
  obtain ⟨hb, hi, hall⟩ := h
  exact ⟨List.mem_range.mp hi, by simpa using hb, by simpa using hall⟩

theorem freeSlot_none {s : State} {p : Nat} (h : freeSlot s p = none) (j : Nat) (hj : j < 256) :
    (tget (fun _ => ({} : CmdSlot)) (cmdwAt s p).slots j).busy = true := by
  simpa using List.find?_eq_none.mp h j (List.mem_range.mpr hj)

/-- Settles O24: `freeSlot` finds the lowest free slot, `nextGen` never gives 0, and a handle keeps its parts apart. -/
theorem handlesNameTheirSlot : Obligations.HandlesNameTheirSlot :=
  ⟨fun _ _ _ => freeSlot_some, fun _ _ => freeSlot_none, nextGen_bounds, rfl, fun _ _ _ => mkHandle_fields, fun _ _ _ _ _ => ⟨rfl, rfl, rfl, rfl⟩⟩

end Sys2Proof.Machine
end

section
/-! Counters, trigger, read-out, stop and JTAG (R577 to R579, R589, R593 to R599). -/

namespace Sys2Proof.Machine
open Sys2Proof

/-! ## Repetition, and registers of different offsets -/

/-- What every round keeps holds after all rounds. -/
theorem forAll_induct {α : Type} {P : State → Prop} {l : List α} {f : α → State → State} {s : State} (h : P s)
    (step : ∀ x ∈ l, ∀ t, P t → P (f x t)) : P (forAll l f s) := by
  induction l generalizing s with
  | nil => exact h
  | cons x l ih => exact ih (step x List.mem_cons_self s h) fun y hy t ht => step y (List.mem_cons_of_mem _ hy) t ht

/-- Registers at different offsets of their windows are different (R70). -/
theorem pg_add_ne {b c : Blk} {n m o q : Nat} (hn : n < blkCount b) (hm : m < blkCount c) (ho : o < (blkPlace b).2.2.1) (hq : q < (blkPlace c).2.2.1)
    (h : o ≠ q) : pg b n + o ≠ pg c m + q := by
  intro e
  have hl := locate_pg hn ho
  rw [e, locate_pg hm hq] at hl
  simp only [Option.some.injEq, Loc.mk.injEq] at hl
  omega

/-- An interrupt keeps the registers canonical. -/
theorem raiseIrq_regs_wf {s : State} (h : twf regRst s.regs = true) (b : Blk) (n bit : Nat) (ctx : Option Nat) :
    twf regRst (raiseIrq s b n bit ctx).regs = true := by
  have deliver_wf {t : State} (ht : twf regRst t.regs = true) (p : Nat) : twf regRst (deliver t p b).regs = true := by
    simp only [deliver, sendMsi]
    split
    · exact ht
    · split
      · exact setReg_wf ht _ _
      · exact ht
  unfold raiseIrq
  extract_lets q s1 s2
  have h2 : twf regRst s2.regs = true := setReg_wf h q _
  clear_value s2
  split
  · exact h
  · split
    · exact deliver_wf h2 _
    · exact h2

/-! ## Reports: effects that raise interrupts and errors, and change nothing else -/

/-- A register that is no interrupt or error status and no pending-bit word. -/
def OffStat (a : Nat) : Prop := OffPba a ∧ ∀ b n, n < blkCount b → a ≠ pg b n + 0x10 ∧ a ≠ pg b n + 0x18

theorem offStat_page {b : Blk} {n o : Nat} (hn : n < blkCount b) (ho : o < (blkPlace b).2.2.1) (h : o ≠ 0x10) (h' : o ≠ 0x18) : OffStat (pg b n + o) :=
  ⟨offPba_page hn ho, fun c _ hm => ⟨pg_add_ne hn hm ho (headerOffset_lt_window c (by decide)) h,
    pg_add_ne hn hm ho (headerOffset_lt_window c (by decide)) h'⟩⟩

/-- State t is s but for what it reported. -/
structure Reports (s t : State) : Prop where
  irqOnly : IrqOnly s t
  regs_wf : twf regRst s.regs = true → twf regRst t.regs = true
  reg_eq : twf regRst s.regs = true → ∀ a, OffStat a → reg t a = reg s a

/-- The state without what a report changes: registers, contexts of interrupts and messages. -/
def irqRest (s : State) : State := { s with regs := [], irqCtx := [], msix := [] }

theorem Reports.rest {s t : State} (h : Reports s t) : irqRest t = irqRest s := by
  obtain ⟨r, c, m, rfl⟩ := h.irqOnly
  rfl

/-- A part of the state that no report touches reads the same on equal rests. -/
theorem rest_keeps {α : Type} {s t : State} (h : irqRest t = irqRest s) (f : State → α) (hf : ∀ u, f (irqRest u) = f u := by intro _; rfl) : f t = f s := by
  rw [← hf t, h, hf s]

theorem Reports.keeps {α : Type} {s t : State} (h : Reports s t) (f : State → α) (hf : ∀ u, f (irqRest u) = f u := by intro _; rfl) : f t = f s :=
  rest_keeps h.rest f hf

@[simp] theorem irqRest_setReg (s : State) (a : Nat) (v : Word) : irqRest (setReg s a v) = irqRest s := rfl
@[simp] theorem irqRest_setRegN (s : State) (a n : Nat) : irqRest (setRegN s a n) = irqRest s := rfl
@[simp] theorem irqRest_orReg (s : State) (a m : Nat) : irqRest (orReg s a m) = irqRest s := rfl
@[simp] theorem irqRest_clrReg (s : State) (a m : Nat) : irqRest (clrReg s a m) = irqRest s := rfl
@[simp] theorem irqRest_setReg64 (s : State) (lo hi n : Nat) : irqRest (setReg64 s lo hi n) = irqRest s := rfl

theorem Reports.refl (s : State) : Reports s s := ⟨irqOnly_refl s, id, fun _ _ _ => rfl⟩

theorem Reports.trans {s t u : State} (h : Reports s t) (k : Reports t u) : Reports s u :=
  ⟨irqOnly_trans h.irqOnly k.irqOnly, fun hs => k.regs_wf (h.regs_wf hs), fun hs a ha => (k.reg_eq (h.regs_wf hs) a ha).trans (h.reg_eq hs a ha)⟩

theorem raiseIrq_reports (s : State) {b : Blk} {n : Nat} (hn : n < blkCount b) (bit : Nat) (ctx : Option Nat) : Reports s (raiseIrq s b n bit ctx) :=
  ⟨raiseIrq_irqOnly s b n bit ctx, fun h => raiseIrq_regs_wf h b n bit ctx, fun h _ ha => reg_raiseIrq h ha.1 (ha.2 b n hn).1 bit ctx⟩

theorem raiseErr_regs_wf {s : State} (h : twf regRst s.regs = true) (b : Blk) (n bit : Nat) (ctx : Option Nat) :
    twf regRst (raiseErr s b n bit ctx).regs = true := by
  simp only [raiseErr]
  split
  · exact h
  · exact raiseIrq_regs_wf (orReg_wf h _ _) b n 1 ctx

theorem raiseErr_reports (s : State) {b : Blk} {n : Nat} (hn : n < blkCount b) (bit : Nat) (ctx : Option Nat) : Reports s (raiseErr s b n bit ctx) :=
  ⟨raiseErr_irqOnly s b n bit ctx, fun h => raiseErr_regs_wf h b n bit ctx,
    fun h _ ha => reg_raiseErr h ha.1 (ha.2 b n hn).1 (ha.2 b n hn).2 bit ctx⟩

theorem forAll_reports {α : Type} {l : List α} {f : α → State → State} (h : ∀ x ∈ l, ∀ t, Reports t (f x t)) (s : State) : Reports s (forAll l f s) :=
  forAll_induct (P := Reports s) (Reports.refl s) fun x hx t ht => ht.trans (h x hx t)

theorem Reports.regN_eq {s t : State} (h : Reports s t) (hs : twf regRst s.regs = true) {a : Nat} (ha : OffStat a) : regN t a = regN s a :=
  congrArg BitVec.toNat (h.reg_eq hs a ha)

theorem mem_presentList_lt {s : State} {b : Blk} {n : Nat} (h : n ∈ presentList s b) : n < blkCount b :=
  List.mem_range.mp (List.mem_filter.mp h).1

/-- The halt of a stop is reported, and changes nothing else. -/
theorem haltAll_reports (s : State) : Reports s (haltAll s) :=
  forAll_reports (fun _ _ t => forAll_reports (fun _ hn u => raiseIrq_reports u (mem_presentList_lt hn) 2 none) t) s

theorem offStat_db {o : Nat} (ho : o < 0x1000) (h : o ≠ 0x10) (h' : o ≠ 0x18) : OffStat (dbgPg + o) := offStat_page (by decide) (by simpa [blkPlace] using ho) h h'

/-! ## A global stop -/

/-- A pair of registers set reads its number, and no other register changes. -/
theorem regN_setReg64_other {s : State} (h : twf regRst s.regs = true) {lo hi a : Nat} (h1 : a ≠ lo) (h2 : a ≠ hi) (n : Nat) :
    regN (setReg64 s lo hi n) a = regN s a := by
  rw [setReg64, regN_setRegN_other (setRegN_wf h lo n) h2, regN_setRegN_other h h1]

theorem setReg64_wf {s : State} (h : twf regRst s.regs = true) (lo hi n : Nat) : twf regRst (setReg64 s lo hi n).regs = true :=
  setRegN_wf (setRegN_wf h lo n) hi _

theorem regN_clrReg_other {s : State} (h : twf regRst s.regs = true) {a j : Nat} (hj : j ≠ a) (m : Nat) : regN (clrReg s a m) j = regN s j :=
  congrArg BitVec.toNat (reg_setReg_other h hj _)

theorem regN_orReg_other {s : State} (h : twf regRst s.regs = true) {a j : Nat} (hj : j ≠ a) (m : Nat) : regN (orReg s a m) j = regN s j :=
  regN_setRegN_other h hj _

theorem clrReg_wf {s : State} (h : twf regRst s.regs = true) (a m : Nat) : twf regRst (clrReg s a m).regs = true := setReg_wf h a _

/-- STOP_STAT with the source of a stop, and its time (R594). -/
def stopStat (s : State) (src : Nat) : State := setReg64 (setRegN s (dbgPg + 0x114) (1 + 16 * src)) (dbgPg + 0x118) (dbgPg + 0x11C) s.time.toNat

/-- FREEZE_STAT of a stop, and its time (R594). -/
def stopFreeze (s : State) : State :=
  setReg64 (clrReg (orReg (setDbg s { s.dbg with freezeAt := none }) (dbgPg + 0x104) 1) (dbgPg + 0x104) 2) (dbgPg + 0x108) (dbgPg + 0x10C) s.time.toNat

theorem stopFreeze_wf {s : State} (h : twf regRst s.regs = true) : twf regRst (stopFreeze s).regs = true := by
  have h1 : twf regRst (setDbg s { s.dbg with freezeAt := none }).regs = true := h
  exact setReg64_wf (clrReg_wf (orReg_wf h1 _ _) _ _) _ _ _

theorem regN_stopFreeze_other {s : State} (h : twf regRst s.regs = true) {a : Nat} (h1 : a ≠ dbgPg + 0x104) (h2 : a ≠ dbgPg + 0x108)
    (h3 : a ≠ dbgPg + 0x10C) : regN (stopFreeze s) a = regN s a := by
  have h0 : twf regRst (setDbg s { s.dbg with freezeAt := none }).regs = true := h
  rw [stopFreeze, regN_setReg64_other (clrReg_wf (orReg_wf h0 _ _) _ _) h2 h3, regN_clrReg_other (orReg_wf h0 _ _) h1, regN_orReg_other h0 h1]
  rfl

theorem takeStop_of_allowed {s : State} (h : isStopped s = false) (ha : bitOf (regN s (safePg + 0x104)) 0 = true) (src : Nat) :
    ∃ t, Reports (stopFreeze (stopStat s src)) t ∧ takeStop s src = haltAll (setPwr t { t.pwr with hbmSelf := true }) := by
  refine ⟨raiseIrq (raiseIrq (stopFreeze (stopStat s src)) .dbg 0 11 none) .dbg 0 10 none,
    (raiseIrq_reports _ (by decide) 11 none).trans (raiseIrq_reports _ (by decide) 10 none), ?_⟩
  simp only [takeStop, h, ha]
  rfl

theorem takeStop_effect {b : State} (hs : twf regRst b.regs = true) (h : isStopped b = false) (ha : bitOf (regN b (safePg + 0x104)) 0 = true) {k : Nat}
    (hk : k < 4) : isStopped (takeStop b k) = true ∧ (takeStop b k).pwr.hbmSelf = true ∧
      fld (regN (takeStop b k) (dbgPg + 0x114)) 4 2 = k ∧ reg64 (takeStop b k) (dbgPg + 0x118) (dbgPg + 0x11C) = b.time.toNat ∧
      (takeStop b k).hbm = b.hbm ∧ (takeStop b k).spad = b.spad ∧ (takeStop b k).graphs = b.graphs := by
  obtain ⟨t, ht, e⟩ := takeStop_of_allowed h ha k
  have hh := haltAll_reports (setPwr t { t.pwr with hbmSelf := true })
  have h1 : twf regRst (setRegN b (dbgPg + 0x114) (1 + 16 * k)).regs = true := setRegN_wf hs _ _
  have h2 : twf regRst (stopStat b k).regs = true := setReg64_wf h1 _ _ _
  have h3 := stopFreeze_wf h2
  have hreg : ∀ o, 0x110 < o → o < 0x1000 → regN (takeStop b k) (dbgPg + o) = regN (stopStat b k) (dbgPg + o) := by
    intro o ho ho'
    have ha : OffStat (dbgPg + o) := offStat_db ho' (by omega) (by omega)
    rw [e, hh.regN_eq (ht.regs_wf h3) ha, ← regN_stopFreeze_other h2 (a := dbgPg + o) (by omega) (by omega) (by omega)]
    exact ht.regN_eq h3 ha
  have hstat : regN (takeStop b k) (dbgPg + 0x114) = 1 + 16 * k := by
    rw [hreg 0x114 (by decide) (by decide), stopStat, regN_setReg64_other h1 (by decide) (by decide), regN_setRegN_same hs]
    omega
  have htime : reg64 (takeStop b k) (dbgPg + 0x118) (dbgPg + 0x11C) = b.time.toNat := by
    rw [reg64, hreg 0x118 (by decide) (by decide), hreg 0x11C (by decide) (by decide)]
    exact reg64_setReg64 h1 (by decide) b.time.toNat b.time.isLt
  have hfreeze : irqRest (stopFreeze (stopStat b k)) = irqRest (setDbg b { b.dbg with freezeAt := none }) := by
    simp only [stopFreeze, irqRest_setReg64, irqRest_clrReg, irqRest_orReg]
    rfl
  have hself : (takeStop b k).pwr.hbmSelf = true := by rw [e, hh.keeps State.pwr, setPwr_pwr]
  have hhbm : (takeStop b k).hbm = b.hbm := by rw [e, hh.keeps State.hbm, setPwr_hbm, ht.keeps State.hbm, rest_keeps hfreeze State.hbm, setDbg_hbm]
  have hspad : (takeStop b k).spad = b.spad := by
    rw [e, hh.keeps State.spad, setPwr_spad, ht.keeps State.spad, rest_keeps hfreeze State.spad, setDbg_spad]
  have hgraphs : (takeStop b k).graphs = b.graphs := by
    rw [e, hh.keeps State.graphs, setPwr_graphs, ht.keeps State.graphs, rest_keeps hfreeze State.graphs, setDbg_graphs]
  refine ⟨?_, hself, ?_, htime, hhbm, hspad, hgraphs⟩
  · rw [isStopped, show pg .dbg 0 = dbgPg from rfl, hstat]
    simp only [bitOf, beq_iff_eq, Nat.shiftRight_eq_div_pow]
    omega
  · rw [hstat]
    simp only [fld, Nat.shiftRight_eq_div_pow]
    omega

/-! ## Registers of the DBG page -/

section
variable {s : State} {who : Who} (v : Word)

/-- A write of FREEZE_CTL (R578). -/
theorem regWrite_freezeCtl (h : writes s who (db 0x100)) : regWrite s who (db 0x100) v = freezeCtl s (v &&& 3).toNat := by
  rw [db, dbgPg, regWrite_eq_regEffect h (by decide) (by decide) (show rowSpec .dbg 0x100 = some (.wo, 3, 0) from rfl) (.inr rfl)]
  rfl

/-- A write of STOP_CTL (R593). -/
theorem regWrite_stopCtl (h : writes s who (db 0x110)) : regWrite s who (db 0x110) 1 = takeStop s 1 := by
  rw [db, dbgPg, regWrite_eq_regEffect h (by decide) (by decide) (show rowSpec .dbg 0x110 = some (.wo, 1, 0) from rfl) (.inr rfl)]
  rfl

/-- A write of TRIG_CFG (R589). -/
theorem regWrite_trigCfg (h : writes s who (db 0x120)) : regWrite s who (db 0x120) v = trigWrite s (v &&& 0x8000337F).toNat := by
  rw [db, dbgPg, regWrite_eq_regEffect h (by decide) (by decide) (show rowSpec .dbg 0x120 = some (.rw, 0x8000337F, 0) from rfl) (.inl rfl)]
  rfl

/-- A write of GC_CTL (R577). -/
theorem regWrite_gcCtl (h : writes s who (db 0x310)) : regWrite s who (db 0x310) 1 = gcClearAct s := by
  rw [db, dbgPg, regWrite_eq_regEffect h (by decide) (by decide) (show rowSpec .dbg 0x310 = some (.wo, 1, 0) from rfl) (.inr rfl)]
  rfl

/-- A write of MEMRD_CTL (R599). -/
theorem regWrite_memrdCtl (h : writes s who (db 0x328)) : regWrite s who (db 0x328) v = memrdAct s (v &&& 1).toNat := by
  rw [db, dbgPg, regWrite_eq_regEffect h (by decide) (by decide) (show rowSpec .dbg 0x328 = some (.wo, 1, 0) from rfl) (.inr rfl)]
  rfl

/-- A write of SCAN_CTL (R598). -/
theorem regWrite_scanCtl (h : writes s who (db 0xC00)) : regWrite s who (db 0xC00) v = scanCtl s (v &&& 0x1FF).toNat := by
  rw [db, dbgPg, regWrite_eq_regEffect h (by decide) (by decide) (show rowSpec .dbg 0xC00 = some (.rw, 0x1FF, 0) from rfl) (.inl rfl)]
  rfl

end

/-! ## Freeze and trigger (R577 to R579, R589) -/

theorem freezeCtl_freeze (s : State) : freezeCtl s 1 = reqFreeze s true := rfl
theorem freezeCtl_unfreeze (s : State) : freezeCtl s 2 = reqFreeze s false := rfl

theorem reqFreeze_of_same {s : State} {f : Bool} (h : frozen s = f) : reqFreeze s f = s := by simp [reqFreeze, h]

/-- A request that changes the state sets the instant, and for a freeze FREEZE_TIME. -/
theorem reqFreeze_of_other {s : State} (hs : twf regRst s.regs = true) {f : Bool} (h : frozen s ≠ f) :
    (reqFreeze s f).dbg.freezeAt = some (s.time + 32, f) ∧ (reqFreeze s f).hbm = s.hbm ∧
    (f = true → reg64 (reqFreeze s f) (dbgPg + 0x108) (dbgPg + 0x10C) = (s.time + 32).toNat) := by
  have h0 : twf regRst (setDbg s { s.dbg with freezeAt := some (s.time + 32, f) }).regs = true := hs
  have e : reqFreeze s f = (let u := orReg (setDbg s { s.dbg with freezeAt := some (s.time + 32, f) }) (dbgPg + 0x104) 2
      if f then setReg64 u (dbgPg + 0x108) (dbgPg + 0x10C) (s.time + 32).toNat else u) := by
    simp only [reqFreeze, beq_iff_eq, if_neg h]
    rfl
  rw [e]
  refine ⟨by cases f <;> rfl, by cases f <;> rfl, ?_⟩
  rintro rfl
  exact reg64_setReg64 (orReg_wf h0 _ _) (by decide) _ (s.time + 32).isLt

/-- Freezing a unit's counters touches the DBG block's counters alone. -/
theorem freezeUnit_dbg (x : Blk × Nat) (s : State) : ∃ c, freezeUnit x s = setDbg s { s.dbg with cnt := c } := ⟨_, rfl⟩

/-- So does letting them go on. -/
theorem unfreezeUnit_dbg (t : DWord) (x : Blk × Nat) (s : State) : ∃ c, unfreezeUnit t x s = setDbg s { s.dbg with cnt := c } := by
  unfold unfreezeUnit
  split
  · exact ⟨s.dbg.cnt, rfl⟩
  · dsimp only
    split
    · exact ⟨_, rfl⟩
    · exact ⟨_, rfl⟩

theorem forAll_counters {f : Blk × Nat → State → State} (h : ∀ x s, ∃ c, f x s = setDbg s { s.dbg with cnt := c }) (l : List (Blk × Nat)) (s : State) :
    ∃ c, forAll l f s = setDbg s { s.dbg with cnt := c } :=
  forAll_induct (P := fun t => ∃ c, t = setDbg s { s.dbg with cnt := c }) ⟨s.dbg.cnt, rfl⟩ fun x _ t ⟨c, hc⟩ => by
    obtain ⟨d, hd⟩ := h x t
    exact ⟨d, by rw [hd, hc]; rfl⟩

theorem frozen_of_none {s : State} (h : s.dbg.freezeAt = none) : frozen s = bitOf (regN s (db 0x104)) 0 := by
  simp only [frozen, h]
  rfl

/-- The instant requested comes. -/
theorem freezeInstantAct_due {s : State} (hs : twf regRst s.regs = true) {t : DWord} {f : Bool} (h : s.dbg.freezeAt = some (t, f)) (ht : t.toNat ≤ s.time.toNat) :
    (freezeInstantAct s).dbg.freezeAt = none ∧ frozen (freezeInstantAct s) = f ∧ (freezeInstantAct s).graphs = s.graphs ∧
    (freezeInstantAct s).hbm = s.hbm := by
  cases f with
  | true =>
    obtain ⟨c, hc⟩ := forAll_counters freezeUnit_dbg countedUnits s
    have e : freezeInstantAct s = raiseIrq (setRegN (setDbg s { s.dbg with cnt := c, freezeAt := none }) (db 0x104) 1) .dbg 0 11 none := by
      simp only [freezeInstantAct, h, if_neg (Nat.not_lt.mpr ht), hc]
      rfl
    have h0 : twf regRst (setDbg s { s.dbg with cnt := c, freezeAt := none }).regs = true := hs
    have hr := raiseIrq_reports (setRegN (setDbg s { s.dbg with cnt := c, freezeAt := none }) (db 0x104) 1) (b := .dbg) (n := 0) (by decide) 11 none
    have hn : (freezeInstantAct s).dbg.freezeAt = none := by rw [e, hr.keeps State.dbg]; rfl
    refine ⟨hn, ?_, ?_, ?_⟩
    · rw [frozen_of_none hn, e, hr.regN_eq (setRegN_wf h0 _ _) (show OffStat (db 0x104) from offStat_db (by decide) (by decide) (by decide)), regN_setRegN_same h0]
      rfl
    · rw [e, hr.keeps State.graphs]
      rfl
    · rw [e, hr.keeps State.hbm]
      rfl
  | false =>
    obtain ⟨c, hc⟩ := forAll_counters (unfreezeUnit_dbg t) countedUnits (setRegN (setDbg s { s.dbg with freezeAt := none }) (db 0x104) 0)
    have e : freezeInstantAct s = setRegN (setDbg s { s.dbg with cnt := c, freezeAt := none }) (db 0x104) 0 := by
      simp only [freezeInstantAct, h, if_neg (Nat.not_lt.mpr ht), hc]
      rfl
    have h0 : twf regRst (setDbg s { s.dbg with cnt := c, freezeAt := none }).regs = true := hs
    have hn : (freezeInstantAct s).dbg.freezeAt = none := by rw [e]; rfl
    refine ⟨hn, ?_, by rw [e]; rfl, by rw [e]; rfl⟩
    rw [frozen_of_none hn, e, regN_setRegN_same h0]
    rfl

/-! ## Global counters -/

/-- A global counter reads 0, and so does its latched half. -/
def clearCounter (c : Nat) (t : State) : State :=
  { setRegN t (db (0x800 + 8 * c)) 0 with hi := tset (fun _ => (0 : Word)) t.hi (db (0x800 + 8 * c)) 0 }

theorem gcClearAct_eq (s : State) : gcClearAct s = forAll (List.range 64) clearCounter s := rfl

/-- What holds while the counters are cleared one after another. -/
structure CountersCleared (s : State) (done : List Nat) (t : State) : Prop where
  regs_wf : twf regRst t.regs = true
  hi_wf : twf (fun _ => (0 : Word)) t.hi = true
  graphs : t.graphs = s.graphs
  hbm : t.hbm = s.hbm
  zero : ∀ c ∈ done, regN t (db (0x800 + 8 * c)) = 0 ∧ tget (fun _ => (0 : Word)) t.hi (db (0x800 + 8 * c)) = 0
  others : ∀ a, (∀ c ∈ done, a ≠ db (0x800 + 8 * c)) → reg t a = reg s a

theorem CountersCleared.step {s t : State} {done : List Nat} (h : CountersCleared s done t) (c : Nat) : CountersCleared s (done ++ [c]) (clearCounter c t) where
  regs_wf := setRegN_wf h.regs_wf _ _
  hi_wf := twf_tset _ _ _ h.hi_wf
  graphs := h.graphs
  hbm := h.hbm
  zero d hd := by
    by_cases e : d = c
    · rw [e]
      exact ⟨regN_setRegN_same h.regs_wf _ _, tget_tset_same _ _ _ h.hi_wf⟩
    · obtain ⟨h1, h2⟩ := h.zero d (by simpa [e] using hd)
      have hne : db (0x800 + 8 * d) ≠ db (0x800 + 8 * c) := by simp only [db]; omega
      exact ⟨(regN_setRegN_other h.regs_wf hne _).trans h1, (tget_tset_other _ _ _ _ hne h.hi_wf).trans h2⟩
  others a ha := by
    have hne : a ≠ db (0x800 + 8 * c) := ha c (by simp)
    exact (reg_setReg_other h.regs_wf hne _).trans (h.others a fun d hd => ha d (by simp [hd]))

theorem countersCleared_forAll {s : State} (l : List Nat) {t : State} {done : List Nat} (h : CountersCleared s done t) :
    CountersCleared s (done ++ l) (forAll l clearCounter t) := by
  induction l generalizing t done with
  | nil => rwa [List.append_nil]
  | cons c l ih => simpa [forAll] using ih (h.step c)

theorem gcClearAct_cleared {s : State} (hs : twf regRst s.regs = true) (hi : twf (fun _ => (0 : Word)) s.hi = true) :
    CountersCleared s (List.range 64) (gcClearAct s) :=
  countersCleared_forAll (done := []) (List.range 64) ⟨hs, hi, rfl, rfl, by simp, fun _ _ => rfl⟩

/-- Arming stores the configuration and clears TRIG_FIRED. -/
theorem trigWrite_armed {s : State} {v : Nat} (h : bitOf v 31 = true) :
    trigWrite s v = setRegN (setRegN s (db 0x120) (v &&& 0x8000337F)) (db 0x128) 0 := by
  simp only [trigWrite, h]
  rfl

/-- The value TRIG_ARM writes, as its row and its write mask it. -/
theorem trigArm_value (v : Word) : bitOf ((v ||| 0x80000000) &&& 0x8000337F : Word).toNat 31 = true ∧
    ((v ||| 0x80000000) &&& 0x8000337F : Word).toNat &&& 0x8000337F = (v.toNat ||| 0x80000000) &&& 0x8000337F := by
  constructor
  · have h1 : Nat.testBit 0x80000000 31 = true := by decide
    have h2 : Nat.testBit 0x8000337F 31 = true := by decide
    rw [bitOf_eq_testBit]
    simp [Nat.testBit_and, Nat.testBit_or, h1, h2]
  · simp

/-- Settles O57: each command is a write of the DBG page, and the instant stops or frees the counters of every unit. -/
theorem countersAndTriggerTakeEffect : Obligations.CountersAndTriggerTakeEffect := by
  intro dt s who v b
  have hs : twf regRst b.regs = true := arrive_regs_wf dt s
  have hhi : twf (fun _ => (0 : Word)) b.hi = true := tblOf_wf _ _
  refine ⟨fun h => ⟨?_, ?_, fun f => reqFreeze_of_same, fun f => reqFreeze_of_other hs⟩, fun h => ⟨fun hn => ?_, fun t f hf ht => ?_, fun t f hf ht => ?_⟩,
    fun h => ?_, fun h => ?_⟩
  · rw [exec_of_writes rfl h, regWrite_freezeCtl _ h]
    exact congrArg _ (congrArg _ (freezeCtl_freeze b))
  · rw [exec_of_writes rfl h, regWrite_freezeCtl _ h]
    exact congrArg _ (congrArg _ (freezeCtl_unfreeze b))
  · have e : freezeInstantAct b = b := by simp [freezeInstantAct, hn]
    exact (act_awake (f := freezeInstantAct) h).trans (by rw [e])
  · have e : freezeInstantAct b = b := by simp [freezeInstantAct, hf, ht]
    exact (act_awake (f := freezeInstantAct) h).trans (by rw [e])
  · exact ⟨freezeInstantAct b, act_awake (f := freezeInstantAct) h, freezeInstantAct_due hs hf ht⟩
  · have hc := gcClearAct_cleared hs hhi
    refine ⟨gcClearAct b, by rw [exec_of_writes rfl h, regWrite_gcCtl h], hc.graphs, hc.hbm, fun c hlt => hc.zero c (List.mem_range.mpr hlt),
      fun a ha => hc.others a fun c hlt => ha c (List.mem_range.mp hlt)⟩
  · obtain ⟨hbit, hval⟩ := trigArm_value v
    have h1 := setRegN_wf hs (db 0x120) ((v.toNat ||| 0x80000000) &&& 0x8000337F)
    refine ⟨setRegN (setRegN b (db 0x120) ((v.toNat ||| 0x80000000) &&& 0x8000337F)) (db 0x128) 0, ?_, ?_, regN_setRegN_same h1 _ _, rfl, ?_⟩
    · rw [exec_of_writes rfl h, regWrite_trigCfg _ h, trigWrite_armed hbit, hval]
    · rw [regN_setRegN_other h1 (by decide), regN_setRegN_same hs]
      exact Nat.mod_eq_of_lt (Nat.lt_of_le_of_lt Nat.and_le_right (by decide))
    · intro a ha ha'
      exact (reg_setReg_other h1 ha' _).trans (reg_setReg_other hs ha _)

/-! ## Read-out, scan and JTAG (R593 to R599) -/

theorem leNat_lt (l : List Byte) : leNat l < 256 ^ l.length := by
  induction l with
  | nil => simp [leNat]
  | cons b l ih =>
    have hb := b.isLt
    simp only [leNat, List.length_cons, Nat.pow_succ]
    omega

theorem leAt_lt (l : List Byte) (o n : Nat) : leAt l o n < 256 ^ n :=
  Nat.lt_of_lt_of_le (leNat_lt _) (Nat.pow_le_pow_right (by decide) (List.length_take_le n _))

/-- What holds while words appear in registers one after another: word i in register `at_ i`. -/
structure WordsShown (s : State) (at_ w : Nat → Nat) (done : List Nat) (t : State) : Prop where
  regs_wf : twf regRst t.regs = true
  rest : irqRest t = irqRest s
  shown : ∀ i ∈ done, regN t (at_ i) = w i

theorem wordsShown_forAll {s : State} {at_ w : Nat → Nat} (hat : Function.Injective at_) (hw : ∀ i, w i < 2 ^ 32) (l : List Nat) {t : State} {done : List Nat}
    (h : WordsShown s at_ w done t) : WordsShown s at_ w (done ++ l) (forAll l (fun i u => setRegN u (at_ i) (w i)) t) := by
  induction l generalizing t done with
  | nil => rwa [List.append_nil]
  | cons c l ih =>
    have hstep : WordsShown s at_ w (done ++ [c]) (setRegN t (at_ c) (w c)) := by
      refine ⟨setRegN_wf h.regs_wf _ _, (irqRest_setRegN t _ _).trans h.rest, fun i hi => ?_⟩
      by_cases e : i = c
      · rw [e, regN_setRegN_same h.regs_wf, Nat.mod_eq_of_lt (hw c)]
      · rw [regN_setRegN_other h.regs_wf fun hic => e (hat hic)]
        exact h.shown i (by simpa [e] using hi)
    simpa [forAll] using ih hstep

theorem memrdAct_shown {s : State} (hs : twf regRst s.regs = true) {v : Nat} (h : bitOf v 0 = true) :
    WordsShown s (fun i => db (0xC40 + 4 * i)) (fun i => leAt (memrdBytes s) (4 * i) 4) (List.range 136) (memrdAct s v) := by
  have e : memrdAct s v = forAll (List.range 136) (fun i t => setRegN t (db (0xC40 + 4 * i)) (leAt (memrdBytes s) (4 * i) 4)) s := by
    simp [memrdAct, h]
  have hat : Function.Injective fun i => db (0xC40 + 4 * i) := fun i j hij => by simp only [db] at hij; omega
  rw [e]
  exact wordsShown_forAll (done := []) hat (fun i => leAt_lt _ _ 4) _ ⟨hs, rfl, by simp⟩

theorem memrdAct_idle {s : State} {v : Nat} (h : bitOf v 0 = false) : memrdAct s v = s := by simp [memrdAct, h]

/-- The one defined bit of MEMRD_CTL passes its row's mask. -/
theorem bitOf_and_one (v : Word) : bitOf (v &&& 1).toNat 0 = bitOf v.toNat 0 := by
  simp [bitOf_eq_testBit, Nat.testBit_mod_two_pow _ 1]

/-- A scan that restarts selects its chain anew. -/
theorem scanCtl_restart {s : State} {v : Nat} (h : bitOf v 8 = true) :
    scanCtl s v = setDbg (setRegN s (db 0xC00) (v % 512)) { s.dbg with chain := v % 256, shift := 0 } := by
  simp only [scanCtl, h, Bool.true_or, if_true]
  rfl

/-- The value SCAN_RESTART writes, as its row masks it. -/
theorem scanRestart_value (v : Word) : ((v ||| 0x100) &&& 0x1FF : Word).toNat = (v.toNat ||| 0x100) % 512 := by
  have h := Nat.and_two_pow_sub_one_eq_mod (v.toNat ||| 0x100) 9
  simpa using h

theorem scanRestart_chain (v : Nat) : (v ||| 0x100) % 512 % 256 = v % 256 := by
  rw [Nat.mod_mod_of_dvd _ (by decide : 256 ∣ 512), ← Nat.and_two_pow_sub_one_eq_mod _ 8, ← Nat.and_two_pow_sub_one_eq_mod _ 8, Nat.and_or_distrib_right]
  exact Nat.or_zero _

theorem scanBits_of_running {s : State} (h : isStopped s = false) (n : Nat) : scanBits s n = (0, s) := by simp [scanBits, h]

/-- In a stop the scan moves on, draws at most a free value, and leaves memory and registers. -/
theorem scanBits_of_stopped {s : State} (h : isStopped s = true) (n : Nat) :
    (scanBits s n).1 < 2 ^ n ∧ (scanBits s n).2.dbg.shift = (s.dbg.shift + n) % max 1 (scanLen s) ∧ (scanBits s n).2.hbm = s.hbm ∧
    (scanBits s n).2.regs = s.regs := by
  simp only [scanBits, h]
  cases Config.keyChain s.dbg.chain with
  | true => exact ⟨Nat.two_pow_pos n, rfl, rfl, rfl⟩
  | false => exact ⟨Nat.mod_lt _ (Nat.two_pow_pos n), rfl, rfl, rfl⟩

/-- JTAG_EN 0 makes an instruction BYPASS. -/
theorem jtagOr_closed {s : State} (h : jtagOpen s = false) (bits : List Bool) (f : State → State) : jtagOr s bits f = bypassAct s bits := by
  simp [jtagOr, h]

theorem jtagOr_open {s : State} (h : jtagOpen s = true) (bits : List Bool) (f : State → State) : jtagOr s bits f = f s := by simp [jtagOr, h]

section
variable {dt : Nat} {s : State} (h : Awake (arrive dt s)) (bits pins : List Bool)
include h

theorem exec_bypass : exec (.bypass dt bits) s = .next (closing s (bypassAct (arrive dt s) bits)) := act_awake (f := fun t => bypassAct t bits) h
theorem exec_idcode : exec (.idcode dt bits) s = .next (closing s (idcodeAct (arrive dt s) bits)) := act_awake (f := fun t => idcodeAct t bits) h
theorem exec_samplePreload : exec (.samplePreload dt pins bits) s = .next (closing s (sampleAct (arrive dt s) pins bits)) :=
  act_awake (f := fun t => sampleAct t pins bits) h
theorem exec_extest : exec (.extest dt pins bits) s = .next (closing s (extestAct (arrive dt s) pins bits)) :=
  act_awake (f := fun t => extestAct t pins bits) h
theorem exec_scanSel : exec (.scanSel dt bits) s = .next (closing s (scanSelAct (arrive dt s) bits)) := act_awake (f := fun t => scanSelAct t bits) h
theorem exec_scanDr : exec (.scanDr dt bits) s = .next (closing s (scanDrAct (arrive dt s) bits)) := act_awake (f := fun t => scanDrAct t bits) h
theorem exec_gstop : exec (.gstop dt) s = .next (closing s (gstopAct (arrive dt s))) := act_awake (f := gstopAct) h

theorem exec_scanDataRead (who : Who) : exec (.scanDataRead dt who) s = .next (closing s (scanRead (arrive dt s) who)) :=
  act_awake (f := fun t => scanRead t who) h

end

/-- A read of SCAN_DATA outside a stop shows 0. -/
theorem scanRead_of_running {s : State} {who : Who} (hr : readable s who (db 0xC08) = true) (h : isStopped s = false) :
    scanRead s who = answered (setRegN s (db 0xC08) 0) 0 := by
  simp [scanRead, hr, scanBits_of_running h]

theorem scanRead_of_readable {s : State} {who : Who} (hr : readable s who (db 0xC08) = true) :
    scanRead s who = answered (setRegN (scanBits s 32).2 (db 0xC08) (scanBits s 32).1) (scanBits s 32).1 := by
  simp [scanRead, hr]

/-- The instructions JTAG knows while JTAG_EN reads 1 (R593, R597, R598). -/
theorem jtagInstructions_open {s : State} (h : jtagOpen s = true) (bits pins : List Bool) :
    gstopAct s = takeStop s 2 ∧
    (let p := shiftThrough pins bits
     sampleAct s pins bits = setDbg s { s.dbg with tdo := p.1, boundary := p.2, extest := false } ∧
     extestAct s pins bits = setDbg s { s.dbg with tdo := p.1, boundary := p.2, pins := p.2, extest := true }) ∧
    (let q := shiftThrough (bitsOf 8 s.dbg.chain) bits
     scanSelAct s bits = setDbg s { s.dbg with tdo := q.1, chain := ofBits q.2 % 256, shift := 0 }) ∧
    scanDrAct s bits = setTdo (scanBits s bits.length).2 (bitsOf bits.length (scanBits s bits.length).1) := by
  refine ⟨by simp [gstopAct, h], ⟨jtagOr_open h _ _, jtagOr_open h _ _⟩, jtagOr_open h _ _, jtagOr_open h _ _⟩

/-- Settles O58: a stop is taken or denied whole, read-out and scan show what a stop has frozen, and JTAG is BYPASS while it is closed. -/
theorem stopAndReadOutTakeEffect : Obligations.StopAndReadOutTakeEffect := by
  intro dt s who v bits pins b
  have hs : twf regRst b.regs = true := arrive_regs_wf dt s
  refine ⟨fun h => ?stop, fun k => ⟨fun h => ?stopped, fun h1 h2 => ?denied, fun h1 h2 hk => takeStop_effect hs h1 h2 hk⟩,
    fun h => ⟨fun h0 => ?idle, fun h1 => ?readOut⟩, fun h => ?restart,
    fun h => ⟨fun hr hn => ?shows0, fun hr hn => ?shows, fun hr => ?hidden, ⟨_, exec_bypass h bits, rfl⟩, ⟨_, exec_idcode h bits, rfl⟩,
      fun hj => ?closed, fun hj => ?instructions⟩⟩
  case stop => rw [exec_of_writes rfl h, regWrite_stopCtl h]
  case stopped => simp [takeStop, h]
  case denied => simp [takeStop, h1, h2]
  case idle => rw [exec_of_writes rfl h, regWrite_memrdCtl _ h, memrdAct_idle (by rw [bitOf_and_one, h0])]
  case readOut =>
    have hw := memrdAct_shown hs (v := (v &&& 1).toNat) (by rw [bitOf_and_one, h1])
    exact ⟨_, by rw [exec_of_writes rfl h, regWrite_memrdCtl _ h], rest_keeps hw.rest State.spad, rest_keeps hw.rest State.hbm, fun i hi => hw.shown i (List.mem_range.mpr hi),
      fun hn => by simp [memrdBytes, hn]⟩
  case restart =>
    have hbit : bitOf ((v.toNat ||| 0x100) % 512) 8 = true := by
      have h8 : Nat.testBit 0x100 8 = true := by decide
      simp [bitOf_eq_testBit, Nat.testBit_mod_two_pow _ 9, h8]
    rw [exec_of_writes rfl h, regWrite_scanCtl _ h]
    have hv : ((v ||| 0x100) &&& 0x1FF : Word).toNat = (v.toNat ||| 0x100) % 512 := scanRestart_value v
    rw [hv, scanCtl_restart hbit, scanRestart_chain, Nat.mod_mod]
  case shows0 => rw [exec_scanDataRead h, scanRead_of_running hr hn]
  case shows =>
    obtain ⟨hx, hshift, hhbm, hregs⟩ := scanBits_of_stopped hn 32
    exact ⟨_, _, by rw [exec_scanDataRead h, scanRead_of_readable hr], hx, hshift, hhbm, hregs⟩
  case hidden =>
    rw [exec_scanDataRead h]
    simp [scanRead, hr, b]
  case closed =>
    refine ⟨_, exec_bypass h bits, ?_, ?_, ?_, ?_, ?_⟩
    · rw [exec_samplePreload h, sampleAct, jtagOr_closed hj]
    · rw [exec_extest h, extestAct, jtagOr_closed hj]
    · rw [exec_scanSel h, scanSelAct, jtagOr_closed hj]
    · rw [exec_scanDr h, scanDrAct, jtagOr_closed hj]
    · rw [exec_gstop h, gstopAct, hj]
      rfl
  case instructions =>
    obtain ⟨hg, ⟨hsample, hext⟩, hsel, hdr⟩ := jtagInstructions_open hj bits pins
    refine ⟨by rw [exec_gstop h, hg], ⟨by rw [exec_samplePreload h, hsample], by rw [exec_extest h, hext]⟩, by rw [exec_scanSel h, hsel], fun hn => ?_,
      fun hn => ?_⟩
    · rw [exec_scanDr h, hdr, scanBits_of_running hn]
      rfl
    · obtain ⟨-, hshift, hhbm, hregs⟩ := scanBits_of_stopped hn bits.length
      exact ⟨_, _, by rw [exec_scanDr h, hdr], hshift, hhbm, hregs⟩

end Sys2Proof.Machine
end

section
/-! Starts, resets, OTP words and attestation (R602, R603, R616, R627 to R631, R638, R641). -/

namespace Sys2Proof.Machine
open Sys2Proof

/-! ## Faults reach the SAFE block, and report -/

/-- The state without reports and without what the SAFE block keeps. -/
def safeRest (s : State) : State := setSafe (irqRest s) {}

theorem safeRest_of_rest {s t : State} (h : irqRest t = irqRest s) : safeRest t = safeRest s := congrArg (fun u => setSafe u {}) h

@[simp] theorem safeRest_setSafe (s : State) (d : Safe) : safeRest (setSafe s d) = safeRest s := rfl
@[simp] theorem safeRest_orReg (s : State) (a m : Nat) : safeRest (orReg s a m) = safeRest s := rfl
@[simp] theorem safeRest_clrReg (s : State) (a m : Nat) : safeRest (clrReg s a m) = safeRest s := rfl
@[simp] theorem safeRest_setRegN (s : State) (a n : Nat) : safeRest (setRegN s a n) = safeRest s := rfl

theorem irqRest_of_irqOnly {s t : State} (h : IrqOnly s t) : irqRest t = irqRest s := by
  obtain ⟨r, c, m, rfl⟩ := h
  rfl

@[simp] theorem irqRest_raiseIrq (s : State) (b : Blk) (n bit : Nat) (ctx : Option Nat) : irqRest (raiseIrq s b n bit ctx) = irqRest s :=
  irqRest_of_irqOnly (raiseIrq_irqOnly s b n bit ctx)

@[simp] theorem irqRest_raiseErr (s : State) (b : Blk) (n bit : Nat) (ctx : Option Nat) : irqRest (raiseErr s b n bit ctx) = irqRest s :=
  irqRest_of_irqOnly (raiseErr_irqOnly s b n bit ctx)

@[simp] theorem irqRest_bump (s : State) (a n : Nat) : irqRest (bump s a n) = irqRest s := by
  obtain ⟨r, h⟩ := bump_eq s a n
  rw [h]
  rfl

@[simp] theorem safeRest_raiseIrq (s : State) (b : Blk) (n bit : Nat) (ctx : Option Nat) : safeRest (raiseIrq s b n bit ctx) = safeRest s :=
  safeRest_of_rest (irqRest_raiseIrq s b n bit ctx)

@[simp] theorem safeRest_raiseErr (s : State) (b : Blk) (n bit : Nat) (ctx : Option Nat) : safeRest (raiseErr s b n bit ctx) = safeRest s :=
  safeRest_of_rest (irqRest_raiseErr s b n bit ctx)

@[simp] theorem safeRest_bump (s : State) (a n : Nat) : safeRest (bump s a n) = safeRest s := safeRest_of_rest (irqRest_bump s a n)

theorem safeRest_keeps {α : Type} {s t : State} (h : safeRest t = safeRest s) (f : State → α) (hf : ∀ u, f (safeRest u) = f u := by intro _; rfl) :
    f t = f s := by
  rw [← hf t, h, hf s]

@[simp] theorem safeRest_latchFirst (s : State) (cause cls : Nat) : safeRest (latchFirst s cause cls) = safeRest s := by
  unfold latchFirst
  split
  · rfl
  · split <;> rfl

/-- A fault's record joins the FIFO, or is lost and raises FAULT_LOST (R547). -/
def faultKept (s : State) (r : FaultRec) : State :=
  if s.safe.faults.length < 32 then setSafe s { s.safe with faults := s.safe.faults ++ [r] } else raiseErr (bump s (safePg + 0x81C) 1) .safe 0 9 none

/-- A fault of class F, U or D awaits its reaction (R519). -/
def faultAwaits (s : State) (r : FaultRec) : State := if r.cls = 0 then s else setSafe s { s.safe with react := s.safe.react ++ [r] }

theorem pushFault_eq (s : State) (r : FaultRec) : pushFault s r =
    raiseIrq (faultAwaits (latchFirst (faultKept s r) r.cause r.cls) r) .safe 0 8 (if r.part < 4 then some r.part else none) := rfl

@[simp] theorem safeRest_faultKept (s : State) (r : FaultRec) : safeRest (faultKept s r) = safeRest s := by
  unfold faultKept
  split
  · rfl
  · rw [safeRest_raiseErr, safeRest_bump]

@[simp] theorem safeRest_faultAwaits (s : State) (r : FaultRec) : safeRest (faultAwaits s r) = safeRest s := by
  unfold faultAwaits
  split <;> rfl

@[simp] theorem safeRest_pushFault (s : State) (r : FaultRec) : safeRest (pushFault s r) = safeRest s := by
  rw [pushFault_eq, safeRest_raiseIrq, safeRest_faultAwaits, safeRest_latchFirst, safeRest_faultKept]

@[simp] theorem safeRest_fault (s : State) (cause : Nat) (b : Blk) (n : Nat) : safeRest (fault s cause b n) = safeRest s := safeRest_pushFault s _

@[simp] theorem safeRest_setSafeN (s : State) (on : Bool) : safeRest (setSafeN s on) = safeRest s := by
  unfold setSafeN
  split
  · rfl
  · dsimp only
    rw [safeRest_raiseIrq]
    cases on <;> rfl

@[simp] theorem safeRest_hardFault (s : State) (cause : Nat) : safeRest (hardFault s cause) = safeRest s := by
  rw [hardFault, safeRest_setSafeN, safeRest_fault]

@[simp] theorem irqRest_setLocked (s : State) (on : Bool) : irqRest (setLocked s on) = irqRest s := by
  unfold setLocked
  split
  · rfl
  · rw [irqRest_raiseIrq]
    cases on <;> rfl

/-! ## BOOT_STAT (R631) -/

theorem setFld_mod {w lo n v d : Nat} (hd : d ∣ 2 ^ lo) : setFld w lo n v % d = w % d := by
  have hle : fld w lo n * 2 ^ lo ≤ w := by
    rw [fld, Nat.shiftRight_eq_div_pow]
    exact (Nat.mul_le_mul_right _ (Nat.mod_le _ _)).trans (Nat.div_mul_le_self w _)
  obtain ⟨k, hk⟩ := hd
  have h1 : (v % 2 ^ n) * 2 ^ lo = d * (k * (v % 2 ^ n)) := by rw [hk]; ring
  have h2 : fld w lo n * 2 ^ lo = d * (k * fld w lo n) := by rw [hk]; ring
  rw [setFld, h1, Nat.add_mul_mod_self_left]
  rw [h2] at hle ⊢
  exact Nat.sub_mul_mod hle

theorem bootState_setBootFld {s : State} (hs : twf regRst s.regs = true) (v : Nat) : bootState (setBootFld s 0 2 v) = v % 4 := by
  rw [bootState, bootFld, setBootFld, regN_setRegN_same hs]
  simp only [fld, setFld, Nat.shiftRight_zero]
  omega

/-- The fields above STATE leave it. -/
theorem bootState_setBootFld_above {s : State} (hs : twf regRst s.regs = true) {lo : Nat} (h : 2 ≤ lo) (n v : Nat) :
    bootState (setBootFld s lo n v) = bootState s := by
  have hm := setFld_mod (w := regN s (bt 0x100)) (n := n) (v := v) (d := 4) (pow_dvd_pow 2 h)
  rw [bootState, bootFld, setBootFld, regN_setRegN_same hs]
  simp only [fld, Nat.shiftRight_zero, bootState, bootFld]
  omega

theorem setBootFld_wf {s : State} (hs : twf regRst s.regs = true) (lo n v : Nat) : twf regRst (setBootFld s lo n v).regs = true := setRegN_wf hs _ _

@[simp] theorem irqRest_setBootFld (s : State) (lo n v : Nat) : irqRest (setBootFld s lo n v) = irqRest s := rfl

/-! ## Requests for a start (R602, R616, R617, R628) -/

section
variable {s : State}

theorem requestStart_of_prog {p : Nat × Nat × DWord} (h : s.boot.prog = some p) (hw : s.boot.waiting ≠ some 2) (c : Bool) :
    ∃ k, requestStart s c = setBoot s { s.boot with waiting := some k } ∧ (c = true → k = 0) := by
  refine ⟨if c || s.boot.waiting == some 0 then 0 else 1, ?_, ?_⟩
  · simp [requestStart, h, hw]
  · rintro rfl
    rfl

theorem requestStart_of_starting (h : s.boot.prog = none) (hs : s.boot.starting = true) (c : Bool) :
    requestStart s c = if c && !s.boot.cold then beginStart s true else bump s (bt 0x80C) 1 := by
  simp [requestStart, h, hs]

theorem requestStart_of_free (h : s.boot.prog = none) (hs : s.boot.starting = false) (c : Bool) :
    requestStart s c = if c || (bootState s == 2 && !s.pwr.shutdown) then beginStart s c else s := by
  simp [requestStart, h, hs]

/-- What a start leaves of the state does not depend on what waited for it or on the reset it ends. -/
theorem coldStart_of_free (h : s.boot.prog = none) (hs : s.boot.starting = false) :
    coldStart s = beginStart { s with boot := { s.boot with inReset := false } } true :=
  requestStart_of_free (s := { s with boot := { s.boot with inReset := false, waiting := if s.boot.waiting == some 2 then none else s.boot.waiting } }) h hs true

theorem restart_regs_wf (hs : twf regRst s.regs = true) (c : Bool) : twf regRst (restart s c).regs = true := twfFrom_filter regRst _ s.regs 0 hs

theorem irqRest_beginStart (s : State) (c : Bool) : irqRest (beginStart s c) = irqRest (restart s c) := by
  unfold beginStart
  cases c <;> rfl

theorem bootState_beginStart (hs : twf regRst s.regs = true) (c : Bool) : bootState (beginStart s c) = if c then 0 else 1 := by
  have h := restart_regs_wf hs c
  unfold beginStart
  cases c with
  | true => exact (bootState_setBootFld_above (setBootFld_wf h 0 2 0) (by decide) 2 0).trans (bootState_setBootFld h 0)
  | false => exact bootState_setBootFld h 1

/-- A start begins at its step 1, and keeps what the always-on domain and the host keep. -/
theorem beginStart_effect (hs : twf regRst s.regs = true) (c : Bool) :
    (beginStart s c).boot.starting = true ∧ (beginStart s c).boot.step = 1 ∧ (beginStart s c).boot.cold = c ∧ (beginStart s c).boot.inReset = false ∧
    bootState (beginStart s c) = (if c then 0 else 1) ∧ (beginStart s c).time = (if c then 0 else s.time) ∧ (beginStart s c).graphs = [] ∧
    (beginStart s c).units = [] ∧ (beginStart s c).host = s.host ∧ (beginStart s c).boot.otp = s.boot.otp ∧
    (c = false → (beginStart s c).hbm = s.hbm ∧ (beginStart s c).dbg.crumbs = s.dbg.crumbs) := by
  have h := irqRest_beginStart s c
  have hb : (beginStart s c).boot = (restart s c).boot := rest_keeps h State.boot
  rw [hb, rest_keeps h State.time, rest_keeps h State.graphs, rest_keeps h State.units, rest_keeps h State.host, rest_keeps h State.hbm,
    rest_keeps h State.dbg]
  refine ⟨rfl, rfl, rfl, rfl, bootState_beginStart hs c, rfl, rfl, rfl, rfl, rfl, ?_⟩
  rintro rfl
  exact ⟨rfl, rfl⟩

/-- A write of BOOT_CTL (R602, R616, R617). -/
theorem regWrite_bootCtl {who : Who} (v : Word) (h : writes s who (bt 0x104)) : regWrite s who (bt 0x104) v = bootReg s ⟨.boot, 0, 0x104⟩ (v &&& 7) := by
  rw [bt, regWrite_eq_regEffect h (by decide) (by decide) (show rowSpec .boot 0x104 = some (.wo, 7, 0) from rfl) (.inr rfl)]
  rfl

/-- RESET_N that falls while an OTP word is programmed waits for it (R628). -/
theorem resetAct_of_prog {p : Nat × Nat × DWord} (h : s.boot.prog = some p) : (resetAct s).boot.prog = some p ∧ (resetAct s).boot.waiting = some 2 ∧
    (resetAct s).boot.inReset = s.boot.inReset ∧ (resetAct s).pwr.thermtrip = false ∧ (resetAct s).regs = s.regs ∧ (resetAct s).hbm = s.hbm := by
  have e : resetAct s = setBoot (setPwr s { s.pwr with thermtrip := false }) { s.boot with waiting := some 2 } := by
    simp only [resetAct, h]
    rfl
  rw [e]
  exact ⟨h, rfl, rfl, rfl, rfl, rfl⟩

theorem refclkAct_timeOn : (refclkAct s).timeOn = false := by
  have h : safeRest (refclkAct s) = safeRest { s with timeOn := false, slew := 0 } := by
    rw [refclkAct, safeRest_of_rest (irqRest_setLocked _ _), safeRest_hardFault]
  rw [safeRest_keeps h State.timeOn]

end

/-- Settles O54: each command is one request, and a request begins a start, waits for the OTP, or is counted. -/
theorem startsAreRequested : Obligations.StartsAreRequested := by
  intro dt s who b
  have hs : twf regRst b.regs = true := arrive_regs_wf dt s
  refine ⟨fun h => ⟨?_, ?_, fun h3 => ?_, fun h3 => ?_⟩, fun h => act_awake (f := fun t => requestStart t false) h, rfl, coldStart_of_free,
    fun hp hst => ⟨?_, fun h2 hsh => ?_, fun hno => ?_⟩, fun hp hst => ⟨?_, ?_⟩, fun p c hp hw => requestStart_of_prog hp hw c, beginStart_effect hs,
    fun h hp => ⟨?_, rfl, rfl, rfl, rfl⟩, fun p h hp => ?_, fun h => ⟨act_awake (f := refclkAct) h, refclkAct_timeOn⟩⟩
  · rw [exec_of_writes rfl h, regWrite_bootCtl _ h]
    rfl
  · rw [exec_of_writes rfl h, regWrite_bootCtl _ h]
    rfl
  · rw [exec_of_writes rfl h, regWrite_bootCtl _ h]
    simp [bootReg, bitOf, b, h3]
  · rw [exec_of_writes rfl h, regWrite_bootCtl _ h]
    simp [bootReg, bitOf, b, h3]
  · rw [requestStart_of_free hp hst]
    rfl
  · rw [requestStart_of_free hp hst]
    simp [h2, hsh]
  · rw [requestStart_of_free hp hst]
    rcases hno with hno | hno <;> simp [hno]
  · rw [requestStart_of_starting hp hst]
    rfl
  · rw [requestStart_of_starting hp hst]
    cases b.boot.cold <;> rfl
  · have e : resetAct b = enterReset b := by simp [resetAct, hp]
    exact (act_awake (f := resetAct) h).trans (by rw [e])
  · obtain ⟨hprog, hwait, hreset, htrip, hregs, hhbm⟩ := resetAct_of_prog hp
    exact ⟨resetAct b, act_awake (f := resetAct) h, hprog, hwait, hreset.trans h, htrip, hregs, hhbm⟩

/-! ## OTP words (R627, R628) -/

/-- A write of OTP_CTL (R627). -/
theorem regWrite_otpCtl {s : State} {who : Who} (v : Word) (h : writes s who (ot 0x10C)) : regWrite s who (ot 0x10C) v = programAct s (v &&& 1).toNat := by
  rw [ot, regWrite_eq_regEffect h (by decide) (by decide) (show rowSpec .otp 0x10C = some (.wo, 1, 0) from rfl) (.inr rfl)]
  rfl

/-- A write of ATT_CTL (R630). -/
theorem regWrite_attCtl {s : State} {who : Who} (h : writes s who (se 0x120)) : regWrite s who (se 0x120) 1 = attGoAct s := by
  rw [se, regWrite_eq_regEffect h (by decide) (by decide) (show rowSpec .sec 0x120 = some (.wo, 1, 0) from rfl) (.inr rfl)]
  rfl

section
variable {s : State}

theorem programAct_ignored {v : Nat} (h : bitOf v 0 = false ∨ s.boot.prog.isSome = true) : programAct s v = s := by
  rcases h with h | h <;> simp [programAct, h]

theorem programAct_refused {v : Nat} (h : bitOf v 0 = true) (hp : s.boot.prog = none) (hr : progRefused s (regN s (ot 0x100) &&& 0xFFC) = true) :
    programAct s v = raiseErr (orReg s (ot 0x110) 4) .otp 0 9 none := by
  simp [programAct, h, hp, hr]

theorem programAct_starts {v : Nat} (h : bitOf v 0 = true) (hp : s.boot.prog = none) (hr : progRefused s (regN s (ot 0x100) &&& 0xFFC) = false) :
    programAct s v = orReg (setBoot (clrReg s (ot 0x110) 6)
      { s.boot with prog := some (regN s (ot 0x100) &&& 0xFFC, regN s (ot 0x108), s.time) }) (ot 0x110) 1 := by
  simp [programAct, h, hp, hr]

/-- The bits a word reads once it is programmed: all of them where the cells took it, a free choice of the new ones where they did not (R627, R628). -/
def progWord (s : State) (ok : Bool) (a v : Nat) : Nat := leNat (otpRead s a 4) ||| (if ok then v else v &&& freeVal s)

/-- The cells with the word in them, and BUSY cleared (R628). -/
def progDone (s : State) (ok : Bool) (a v : Nat) : State :=
  clrReg (setBoot (if ok then s else drawn s) { s.boot with otp := memWrite s.boot.otp a (natLe 4 (progWord s ok a v)), prog := none }) (ot 0x110) 1

/-- The state once the word under programming is read back (R628). -/
def progRead (s : State) (ok : Bool) (a v : Nat) : State :=
  if !ok && progWord s ok a v != (leNat (otpRead s a 4) ||| v) then raiseErr (orReg (progDone s ok a v) (ot 0x110) 2) .otp 0 8 none
  else progDone s ok a v

/-- What waited for the word begins (R628). -/
def afterProg (waiting : Option Nat) (s : State) : State :=
  match waiting with
  | some 0 => requestStart (setBoot s { s.boot with waiting := none }) true
  | some 1 => requestStart (setBoot s { s.boot with waiting := none }) false
  | some _ => enterReset s
  | none => s

theorem programDoneAct_early {ok : Bool} (h : s.boot.prog = none ∨ ∃ p, s.boot.prog = some p ∧ since s p.2.2 < 20000) : programDoneAct s ok = s := by
  rcases h with h | ⟨⟨a, v, t⟩, h, ht⟩
  · simp [programDoneAct, h]
  · simp [programDoneAct, h, ht]

variable {a v : Nat} {t : DWord} (h : s.boot.prog = some (a, v, t)) (ht : 20000 ≤ since s t)
include h ht

theorem programDoneAct_due (ok : Bool) : programDoneAct s ok = afterProg s.boot.waiting (progRead s ok a v) := by
  have hlt : ¬since s t < 20000 := by omega
  simp only [programDoneAct, h, decide_eq_true_eq, if_neg hlt]
  rfl

theorem programDoneAct_alone (hw : s.boot.waiting = none) (ok : Bool) : programDoneAct s ok = progRead s ok a v := by
  rw [programDoneAct_due h ht, hw]
  rfl

theorem programDoneAct_reset (hw : s.boot.waiting = some 2) (ok : Bool) : programDoneAct s ok = enterReset (progRead s ok a v) := by
  rw [programDoneAct_due h ht, hw]
  rfl

end

theorem progDone_boot (s : State) (ok : Bool) (a v : Nat) :
    (progDone s ok a v).boot = { s.boot with otp := memWrite s.boot.otp a (natLe 4 (progWord s ok a v)), prog := none } := by
  cases ok <;> rfl

/-- A word read back is in the cells, and is no longer under programming. -/
theorem progRead_boot (s : State) (ok : Bool) (a v : Nat) : (progRead s ok a v).boot = (progDone s ok a v).boot := by
  unfold progRead
  split
  · rw [rest_keeps (irqRest_raiseErr _ _ _ _ _) State.boot]
    rfl
  · rfl

theorem progRead_ok (s : State) (a v : Nat) : progRead s true a v = progDone s true a v := rfl

theorem bitOf_clrReg {s : State} (hs : twf regRst s.regs = true) (a : Nat) : bitOf (regN (clrReg s a 1) a) 0 = false := by
  rw [bitOf_eq_testBit, regN, reg_clrReg hs, BitVec.testBit_toNat]
  simp

/-- OTP_DATA reads 0 where OTP_ADDR points into DEVICE_SECRET (R629). -/
theorem otpData_secret {s : State} (h : regN s (ot 0x100) &&& 0xFFC &&& 0xFE0 = 0x80) : otpData s = 0 := by
  have hlt : regN s (ot 0x100) &&& 0xFFC < 2 ^ 12 := Nat.lt_of_le_of_lt Nat.and_le_right (by decide)
  have hsh : ((regN s (ot 0x100) &&& 0xFFC) >>> 5) &&& (2 ^ 7 - 1) = 4 := by
    have := congrArg (· >>> 5) h
    rw [Nat.shiftRight_and_distrib] at this
    exact this
  rw [Nat.and_two_pow_sub_one_eq_mod, Nat.shiftRight_eq_div_pow] at hsh
  simp only [otpData]
  rw [if_pos (by omega)]

/-! ## Attestation (R630) -/

theorem attDoneAct_shown {s : State} (hs : twf regRst s.regs = true) {n : List Byte} (h : s.boot.att = some n) :
    ∃ t, attDoneAct s = setRegN (setBoot t { t.boot with att := none }) (se 0x124) (regN s (se 0x124) / 4 % 2 * 4 + 2) ∧
      WordsShown s (fun i => se (0x200 + 4 * i)) (fun i => leAt (reportHead s n ++ edSign (idSeed s) (reportHead s n)) (4 * i) 4) (List.range 64) t := by
  have hat : Function.Injective fun i => se (0x200 + 4 * i) := fun i j hij => by simp only [se] at hij; omega
  refine ⟨_, ?_, wordsShown_forAll (done := []) hat (fun i => leAt_lt _ _ 4) _ ⟨hs, rfl, by simp⟩⟩
  simp only [attDoneAct, h]
  rfl

/-- Settles O56: a word is refused, or programmed and read back; a report is formed from the nonce latched. -/
theorem otpAndAttestationTakeEffect : Obligations.OtpAndAttestationTakeEffect := by
  intro dt s who v ok b a
  have hs : twf regRst b.regs = true := arrive_regs_wf dt s
  have done (h : Awake b) : exec (.otpProgramDone dt ok) s = .next (closing s (programDoneAct b ok)) := act_awake (f := fun t => programDoneAct t ok) h
  have report (h : Awake b) : exec (.attReportDone dt) s = .next (closing s (attDoneAct b)) := act_awake (f := attDoneAct) h
  refine ⟨fun h => ⟨fun h0 => ?ignored, fun h1 hp hr => ?refused, fun h1 hp hr => ?starts⟩,
    fun h => ⟨fun he => ?early, fun p w t hp ht hw hok => ?taken, fun p w t hp ht hw hok => ?open_, fun p w t hp ht hw hok => ?reset⟩,
    otpData_secret, fun h => ⟨fun ha => ?busy, fun ha => ?latched⟩, fun h => ⟨fun ha => ?none_, fun n hn => ?written⟩⟩
  case ignored => rw [exec_of_writes rfl h, regWrite_otpCtl _ h, programAct_ignored (by rwa [bitOf_and_one])]
  case refused =>
    have e := programAct_refused (v := (v &&& 1).toNat) (by rwa [bitOf_and_one]) hp hr
    refine ⟨programAct b (v &&& 1).toNat, by rw [exec_of_writes rfl h, regWrite_otpCtl _ h], ?_, ?_, e⟩
    · rw [e, rest_keeps (irqRest_raiseErr _ _ _ _ _) State.boot]
      rfl
    · rw [e, rest_keeps (irqRest_raiseErr _ _ _ _ _) State.hbm]
      rfl
  case starts =>
    have e := programAct_starts (v := (v &&& 1).toNat) (by rwa [bitOf_and_one]) hp hr
    refine ⟨programAct b (v &&& 1).toNat, by rw [exec_of_writes rfl h, regWrite_otpCtl _ h], by rw [e]; rfl, by rw [e]; rfl, ?_, by rw [e]; rfl⟩
    have hwf : twf regRst (setBoot (clrReg b (ot 0x110) 6) { b.boot with prog := some (a, regN b (ot 0x108), b.time) }).regs = true :=
      clrReg_wf hs (ot 0x110) 6
    rw [e]
    exact bitOf_orReg_same hwf (ot 0x110) (i := 0) (by decide)
  case early => rw [done h, programDoneAct_early he]
  case taken =>
    have e : programDoneAct b ok = progDone b true p w := by rw [hok, programDoneAct_alone hp ht hw, progRead_ok]
    refine ⟨programDoneAct b ok, done h, ?_, ?_, ?_, ?_⟩
    · rw [e, progDone_boot]
    · rw [e, progDone_boot]
      rfl
    · rw [e]
      exact bitOf_clrReg hs _
    · rw [e]
      rfl
  case open_ =>
    have e : programDoneAct b ok = progRead b false p w := by rw [hok, programDoneAct_alone hp ht hw]
    refine ⟨programDoneAct b ok, freeVal b, done h, ?_, ?_⟩
    · rw [e, progRead_boot, progDone_boot]
    · rw [e, progRead_boot, progDone_boot]
      rfl
  case reset =>
    have e := programDoneAct_reset hp ht hw ok
    refine ⟨programDoneAct b ok, done h, by rw [e]; rfl, ?_⟩
    rw [e]
    exact congrArg Boot.prog ((progRead_boot b ok p w).trans (progDone_boot b ok p w))
  case busy =>
    rw [exec_of_writes rfl h, regWrite_attCtl h]
    simp [attGoAct, b, ha]
  case latched =>
    rw [exec_of_writes rfl h, regWrite_attCtl h]
    simp [attGoAct, b, ha]
  case none_ =>
    rw [report h]
    simp [attDoneAct, b, ha]
  case written =>
    obtain ⟨t, ht, hw⟩ := attDoneAct_shown hs hn
    have hwf : twf regRst (setBoot t { t.boot with att := none }).regs = true := hw.regs_wf
    refine ⟨attDoneAct b, report h, by rw [ht]; rfl, ?_, fun i hi => ?_, ?_, ?_⟩
    · rw [ht, regN_setRegN_same hwf]
      simp only [fld, Nat.shiftRight_zero]
      omega
    · rw [ht, regN_setRegN_other hwf (by simp only [se]; omega)]
      exact hw.shown i (List.mem_range.mpr hi)
    · rw [ht]
      exact rest_keeps hw.rest State.hbm
    · rw [ht]
      exact rest_keeps hw.rest (·.boot.otp)

end Sys2Proof.Machine
end

section
/-! The steps of a start, its failures and its end (R604 to R619). -/

namespace Sys2Proof.Machine
open Sys2Proof

/-! ## Counters -/

theorem bump_wf {s : State} (hs : twf regRst s.regs = true) (a n : Nat) : twf regRst (bump s a n).regs = true := by
  unfold bump
  split
  · exact hs
  · exact setReg_wf hs _ _

theorem reg_bump_other {s : State} (hs : twf regRst s.regs = true) {a j : Nat} (h : j ≠ a) (n : Nat) : reg (bump s a n) j = reg s j := by
  unfold bump
  split
  · rfl
  · exact reg_setReg_other hs h _

theorem regN_bump_other {s : State} (hs : twf regRst s.regs = true) {a j : Nat} (h : j ≠ a) (n : Nat) : regN (bump s a n) j = regN s j :=
  congrArg BitVec.toNat (reg_bump_other hs h n)

/-- Equal registers read equally. -/
theorem regN_congr {s t : State} (h : t.regs = s.regs) (a : Nat) : regN t a = regN s a := by simp only [regN, reg, h]

/-! ## Fields of BOOT_STAT -/

theorem fld_lt (w lo n : Nat) : fld w lo n < 2 ^ n := Nat.mod_lt _ (Nat.two_pow_pos n)

/-- Setting a field leaves what stands above it. -/
theorem setFld_div (w lo n v : Nat) : setFld w lo n v / 2 ^ (lo + n) = w / 2 ^ (lo + n) := by
  have hl := Nat.two_pow_pos lo
  have hw : w = 2 ^ lo * (2 ^ n * (w / 2 ^ (lo + n)) + fld w lo n) + w % 2 ^ lo := by
    have h1 : w / 2 ^ (lo + n) = w / 2 ^ lo / 2 ^ n := by rw [Nat.pow_add, Nat.div_div_eq_div_mul]
    rw [h1, fld, Nat.shiftRight_eq_div_pow, Nat.div_add_mod, Nat.div_add_mod]
  generalize hq : w / 2 ^ (lo + n) = q at hw ⊢
  have hr := Nat.mod_lt w hl
  have hv := Nat.mod_lt v (Nat.two_pow_pos n)
  have e : setFld w lo n v = 2 ^ (lo + n) * q + (2 ^ lo * (v % 2 ^ n) + w % 2 ^ lo) := by
    rw [setFld]
    conv_lhs => enter [1, 1]; rw [hw]
    rw [Nat.mul_add, ← Nat.mul_assoc, ← Nat.pow_add, Nat.mul_comm (fld w lo n), Nat.mul_comm (v % 2 ^ n)]
    omega
  have hlt : 2 ^ lo * (v % 2 ^ n) + w % 2 ^ lo < 2 ^ (lo + n) := by
    calc 2 ^ lo * (v % 2 ^ n) + w % 2 ^ lo < 2 ^ lo * (v % 2 ^ n) + 2 ^ lo := by omega
      _ = 2 ^ lo * (v % 2 ^ n + 1) := by ring
      _ ≤ 2 ^ lo * 2 ^ n := Nat.mul_le_mul_left _ hv
      _ = 2 ^ (lo + n) := (Nat.pow_add 2 lo n).symm
  rw [e, Nat.mul_add_div (Nat.two_pow_pos _), Nat.div_eq_of_lt hlt, Nat.add_zero]

/-- A field above the one that is set reads as before. -/
theorem bootFld_setBootFld_below {s : State} (hs : twf regRst s.regs = true) {lo n m k : Nat} (h : m + k ≤ lo) (h' : lo + n ≤ 32) (v : Nat) :
    bootFld (setBootFld s m k v) lo n = bootFld s lo n := by
  have hd := setFld_div (regN s (bt 0x100)) m k v
  have hlo : setFld (regN s (bt 0x100)) m k v / 2 ^ lo = regN s (bt 0x100) / 2 ^ lo := by
    obtain ⟨j, rfl⟩ := Nat.exists_eq_add_of_le h
    rw [Nat.pow_add, ← Nat.div_div_eq_div_mul, hd, Nat.div_div_eq_div_mul]
  rw [bootFld, setBootFld, regN_setRegN_same hs, bootFld]
  simp only [fld, Nat.shiftRight_eq_div_pow]
  obtain ⟨j, hj⟩ := Nat.exists_eq_add_of_le h'
  rw [hj, Nat.pow_add, Nat.pow_add, Nat.mul_assoc, Nat.mod_mul_right_div_self, Nat.mod_mul_right_mod, hlo]

/-! ## A start that fails (R616 to R619) -/

section
variable {s : State}

/-- BOOT_STAT with the step and the code of a failure, and BOOT_FAILED raised. -/
def failShown (s : State) (code : Nat) : State := raiseIrq (bump (setBootFld (setBootFld s 4 3 s.boot.step) 8 8 code) (bt 0x808) 1) .boot 0 9 none

theorem failShown_wf (hs : twf regRst s.regs = true) (code : Nat) : twf regRst (failShown s code).regs = true :=
  raiseIrq_regs_wf (bump_wf (setBootFld_wf (setBootFld_wf hs _ _ _) _ _ _) _ _) _ _ _ _

theorem irqRest_failShown (s : State) (code : Nat) : irqRest (failShown s code) = irqRest s := by
  rw [failShown, irqRest_raiseIrq, irqRest_bump, irqRest_setBootFld, irqRest_setBootFld]

theorem bootFld_failShown (hs : twf regRst s.regs = true) (code : Nat) : bootFld (failShown s code) 16 2 = bootFld s 16 2 := by
  have h1 := setBootFld_wf hs 4 3 s.boot.step
  have h2 := setBootFld_wf h1 8 8 code
  have hr := raiseIrq_reports (bump (setBootFld (setBootFld s 4 3 s.boot.step) 8 8 code) (bt 0x808) 1) (b := .boot) (n := 0) (by decide) 9 none
  have hoff : OffStat (bt 0x100) := offStat_page (by decide) (by decide) (by decide) (by decide)
  have e : regN (failShown s code) (bt 0x100) = regN (setBootFld (setBootFld s 4 3 s.boot.step) 8 8 code) (bt 0x100) :=
    (hr.regN_eq (bump_wf h2 _ _) hoff).trans (regN_bump_other h2 (by decide) 1)
  rw [bootFld, e]
  exact (bootFld_setBootFld_below h1 (by decide) (by decide) code).trans (bootFld_setBootFld_below hs (by decide) (by decide) s.boot.step)

theorem failStart_cold (h : s.boot.cold = true) (code : Nat) : failStart s code =
    setPwr (setBoot (setBootFld (failShown s code) 0 2 3) { (failShown s code).boot with starting := false, step := 0 })
      { (failShown s code).pwr with hbmSelf := decide (4 ≤ s.boot.step) } := by
  simp only [failStart, h]
  rfl

theorem failStart_warm (h : s.boot.cold = false) (code : Nat) : failStart s code =
    if 3 ≤ bootFld (failShown s code) 16 2 + 1 then beginStart (failShown s code) true
    else beginStart (setBootFld (failShown s code) 16 2 (bootFld (failShown s code) 16 2 + 1)) false := by
  simp only [failStart, h]
  rfl

theorem failStart_effect (hs : twf regRst s.regs = true) (c : Nat) :
    (s.boot.cold = true → bootState (failStart s c) = 3 ∧ (failStart s c).boot.starting = false) ∧
    (s.boot.cold = false → (failStart s c).boot.starting = true ∧ (failStart s c).boot.step = 1 ∧
      ((failStart s c).boot.cold = true ↔ 2 ≤ bootFld s 16 2)) := by
  have hw := failShown_wf hs c
  refine ⟨fun h => ?_, fun h => ?_⟩
  · rw [failStart_cold h]
    exact ⟨bootState_setBootFld hw 3, rfl⟩
  · rw [failStart_warm h, bootFld_failShown hs]
    split
    · obtain ⟨h1, h2, h3, -⟩ := beginStart_effect hw true
      exact ⟨h1, h2, iff_of_true h3 (by omega)⟩
    · obtain ⟨h1, h2, h3, -⟩ := beginStart_effect (setBootFld_wf hw 16 2 (bootFld s 16 2 + 1)) false
      exact ⟨h1, h2, iff_of_false (by rw [h3]; decide) (by omega)⟩

end

/-! ## The steps (R604 to R613) -/

section
variable {s : State} {ok : Bool} {rows : List Nat}

theorem stepAct_idle (h : s.boot.starting = false) (ok : Bool) (rows : List Nat) : stepAct s ok rows = s := by simp [stepAct, h]

section
variable (h : s.boot.starting = true)
include h

theorem stepAct_one (hk : s.boot.step = 1) (ok : Bool) (rows : List Nat) : stepAct s ok rows = step1 s ok := by simp [stepAct, h, hk]
theorem stepAct_two (hk : s.boot.step = 2) (ok : Bool) (rows : List Nat) : stepAct s ok rows = step2 s ok rows := by simp [stepAct, h, hk]
theorem stepAct_three (hk : s.boot.step = 3) (ok : Bool) (rows : List Nat) : stepAct s ok rows = step3 s ok := by simp [stepAct, h, hk]
theorem stepAct_four (hk : s.boot.step = 4) (ok : Bool) (rows : List Nat) : stepAct s ok rows = step4 s ok rows := by simp [stepAct, h, hk]
theorem stepAct_five (hk : s.boot.step = 5) (ok : Bool) (rows : List Nat) : stepAct s ok rows = step5 s ok := by simp [stepAct, h, hk]

end

theorem step1_waits (h : ok = false ∨ (s.boot.cold = true ∧ 380 ≤ s.pwr.tj)) : step1 s ok = s := by
  rcases h with h | ⟨h, ht⟩ <;> simp_all [step1]

/-- Step 1 loads the OTP where its fixed part, a generation and the variant are good. -/
theorem step1_loads (h : s.boot.cold = false ∨ s.pwr.tj < 380) : step1 s true =
    if fixedOk s = false then failStart s 1 else
    match useGen s with
    | none => failStart s 2
    | some g => if variantOk (fuseWord s) = false then failStart s 4 else nextStep (otpLoad s g) := by
  have hwait : (s.boot.cold && decide (380 ≤ s.pwr.tj)) = false := by
    rcases h with h | h
    · simp [h]
    · simp [Int.not_le.mpr h]
  simp only [step1, hwait]
  cases hf : fixedOk s <;> cases hg : useGen s <;> simp

theorem step2_cold_fails (h : s.boot.cold = true) (rows : List Nat) : step2 s false rows = failStart s 0x10 := by simp [step2, h]

theorem step2_warm_fails (h : s.boot.cold = false) (hb : ok = false ∨ repairSig s.boot.repair ≠ reg64 s (bt 0x118) (bt 0x11C)) :
    step2 s ok rows = failStart s 0x12 := by
  rcases hb with hb | hb <;> simp [step2, h, hb]

theorem step2_warm_passes (h : s.boot.cold = false) (hb : repairSig s.boot.repair = reg64 s (bt 0x118) (bt 0x11C)) (rows : List Nat) :
    step2 s true rows = nextStep (setBootFld s 18 1 (b2n (repairSig (repairOf s s.boot.gen) != reg64 s (bt 0x118) (bt 0x11C)))) := by
  simp [step2, h, hb]

theorem hbmPg_inj {n m : Nat} (h : hbmPg n + 0x144 = hbmPg m + 0x144) : n = m := by
  simp only [hbmPg, pg, blkPlace] at h
  omega

/-- Step 3 shows its training on every stack present. -/
theorem step3_trains (hs : twf regRst s.regs = true) : ∃ t, step3 s true = nextStep (setPwr t { s.pwr with hbmSelf := false }) ∧
    WordsShown s (fun n => hbmPg n + 0x144) (fun _ => if s.boot.cold then 1 else 3) (presentList s .hbm) t := by
  refine ⟨_, rfl, wordsShown_forAll (done := []) (fun _ _ => hbmPg_inj) (fun _ => ?_) _ ⟨hs, rfl, by simp⟩⟩
  split <;> decide

/-- The bits of the checkers that passed (R543). -/
theorem foldl_pow_eq_sum (l : List Nat) (m : Nat) : l.foldl (fun m i => m + 2 ^ i) m = m + (l.map (2 ^ ·)).sum := by
  induction l generalizing m with
  | nil => rfl
  | cons x l ih => rw [List.foldl_cons, ih, List.map_cons, List.sum_cons, Nat.add_assoc]

theorem sum_filter_lt {l : List Nat} {p : Nat → Bool} {f : Nat → Nat} {i : Nat} (hi : i ∈ l) (hp : p i = false) (hf : ∀ x, 0 < f x) :
    ((l.filter p).map f).sum < (l.map f).sum := by
  have hle : ∀ l : List Nat, ((l.filter p).map f).sum ≤ (l.map f).sum := fun l => by
    induction l with
    | nil => exact le_rfl
    | cons x l ih =>
      rw [List.filter_cons]
      split <;> simp only [List.map_cons, List.sum_cons] <;> omega
  induction l with
  | nil => cases hi
  | cons x l ih =>
    rw [List.filter_cons, List.map_cons, List.sum_cons]
    rcases List.mem_cons.mp hi with rfl | hi
    · have := hle l
      have := hf i
      rw [if_neg (by simp [hp])]
      omega
    · have := ih hi
      split
      · rw [List.map_cons, List.sum_cons]
        omega
      · omega

/-- What SELFTEST reads after error injection (R543). -/
def checkersPassed (ok : Bool) (rows : List Nat) : Nat :=
  if ok then 0x3FF else ((List.range 10).filter (fun i => !rows.contains i && !rows.isEmpty)).foldl (fun m i => m + 2 ^ i) 0

theorem checkersPassed_lt (h : rows = [] ∨ ∃ i ∈ rows, i < 10) : checkersPassed false rows < 0x3FF := by
  have hsum : ((List.range 10).map (2 ^ ·)).sum = 0x3FF := by decide
  rw [checkersPassed, if_neg (by decide), foldl_pow_eq_sum, Nat.zero_add, ← hsum]
  rcases h with rfl | ⟨i, hi, hlt⟩
  · exact sum_filter_lt (i := 0) (by decide) rfl fun x => Nat.two_pow_pos x
  · exact sum_filter_lt (List.mem_range.mpr hlt) (by simp [hi]) fun x => Nat.two_pow_pos x

theorem step4_eq (s : State) (ok : Bool) (rows : List Nat) : step4 s ok rows =
    let t := setRegN s (safePg + 0x108) (checkersPassed ok rows)
    if checkersPassed ok rows != 0x3FF then failStart t 0x30
    else nextStep (setBoot t { t.boot with imgAddr := reg64 s (bt 0x108) (bt 0x10C), imgLen := regN s (bt 0x110) }) := rfl

/-- The state with an image copied to its place in HBM (R613). -/
def imageCopied (s : State) (l : List Byte) : State := { s with hbm := memWrite s.hbm (hbmCap s - 0x400_0000) l }

/-- The island takes a verified image: its version, where it came from, key, digest and program (R612, R613). -/
def imageTaken (s : State) (l : List Byte) (fromHost : Bool) (k : Nat) : State :=
  let t := setBootFld (setRegN (imageCopied s l) (bt 0x120) (leAt l 12 4)) 19 1 (b2n fromHost)
  let isl := ((sectionsOf l).find? (fun x => x.1 == 2)).map (fun x => (l.drop x.2.1).take x.2.2)
  setBoot t { t.boot with keyUsed := k, digest := imageDigest l, island := memWrite [] 0 (isl.getD []) }

/-- What step 5 makes of an image. -/
def imageChecked (s : State) (ok : Bool) (l : List Byte) (fromHost : Bool) : State :=
  if !ok then failStart s 0x41
  else if !imageOkFmt l then failStart (imageCopied s l) 0x42
  else match keyMatch s l with
    | none => failStart (imageCopied s l) 0x43
    | some k =>
      if !edVerify ((l.drop 16).take 32) (imageDigest l) ((l.drop 48).take 64) then failStart (imageCopied s l) 0x44
      else if leAt l 12 4 < s.boot.minVersion then failStart (imageCopied s l) 0x45 else nextStep (imageTaken s l fromHost k)

theorem step5_no_source (h : imageBytes s = none) (ok : Bool) : step5 s ok = failStart s 0x40 := by simp [step5, h]

theorem step5_of_image {l : List Byte} {fromHost : Bool} (h : imageBytes s = some (l, fromHost)) (ok : Bool) :
    step5 s ok = imageChecked s ok l fromHost := by
  unfold step5
  rw [h]
  rfl

section
variable {l : List Byte} {fromHost : Bool} (hf : imageOkFmt l = true)

theorem imageChecked_bad_format (h : imageOkFmt l = false) : imageChecked s true l fromHost = failStart (imageCopied s l) 0x42 := by simp [imageChecked, h]

include hf

theorem imageChecked_no_key (hk : keyMatch s l = none) : imageChecked s true l fromHost = failStart (imageCopied s l) 0x43 := by
  simp [imageChecked, hf, hk]

theorem imageChecked_key {k : Nat} (hk : keyMatch s l = some k) : imageChecked s true l fromHost =
    if edVerify ((l.drop 16).take 32) (imageDigest l) ((l.drop 48).take 64) = false then failStart (imageCopied s l) 0x44
    else if leAt l 12 4 < s.boot.minVersion then failStart (imageCopied s l) 0x45 else nextStep (imageTaken s l fromHost k) := by
  simp [imageChecked, hf, hk]

end

theorem imageTaken_effect (hs : twf regRst s.regs = true) (l : List Byte) (fromHost : Bool) (k : Nat) :
    regN (imageTaken s l fromHost k) (bt 0x120) = leAt l 12 4 := by
  have h1 : twf regRst (setRegN (imageCopied s l) (bt 0x120) (leAt l 12 4)).regs = true := setRegN_wf hs _ _
  have e : (imageTaken s l fromHost k).regs = (setBootFld (setRegN (imageCopied s l) (bt 0x120) (leAt l 12 4)) 19 1 (b2n fromHost)).regs := rfl
  rw [regN_congr e, setBootFld, regN_setRegN_other h1 (by decide), regN_setRegN_same (s := imageCopied s l) hs]
  exact Nat.mod_eq_of_lt (leAt_lt l 12 4)

end

/-! ## Firmware completes the start (R29, R603, R615, R625) -/

theorem mem_mapOrder {x : Blk × Nat} (h : x ∈ mapOrder) : x.2 < blkCount x.1 ∧ partAddr x.1 x.2 = pg x.1 x.2 + 0x24 := by
  simp only [mapOrder, List.mem_flatMap, List.mem_map, List.mem_range] at h
  obtain ⟨b, hb, n, hn, rfl⟩ := h
  refine ⟨hn, ?_⟩
  have hhead : ∀ b ∈ [Blk.cams, .rpl, .sctl, .isp, .pyr, .warp, .str, .flw, .ftr, .nc, .vse, .ladle], ∀ n, partAddr b n = pg b n + 0x24 := by
    simp only [List.forall_mem_cons, partAddr, headBlk]
    simp
  exact hhead b hb n

theorem partAddr_ne {x y : Blk × Nat} (hx : x ∈ mapOrder) (hy : y ∈ mapOrder) (h : x ≠ y) : partAddr x.1 x.2 ≠ partAddr y.1 y.2 := by
  obtain ⟨hxn, hxa⟩ := mem_mapOrder hx
  obtain ⟨hyn, hya⟩ := mem_mapOrder hy
  intro e
  rw [hxa, hya] at e
  have hl := locate_pg hxn (headerOffset_lt_window x.1 (o := 0x24) (by decide))
  rw [e, locate_pg hyn (headerOffset_lt_window y.1 (by decide))] at hl
  simp only [Option.some.injEq, Loc.mk.injEq] at hl
  exact h (Prod.ext hl.1.symm hl.2.1.symm)

/-- Instances that are not present keep BLK_PART. -/
theorem assignParts_keeps {s : State} (hs : twf regRst s.regs = true) : twf regRst (assignParts s).regs = true ∧ irqRest (assignParts s) = irqRest s ∧
    ∀ y ∈ mapOrder, present s y.1 y.2 = false → regN (assignParts s) (partAddr y.1 y.2) = regN s (partAddr y.1 y.2) := by
  refine forAll_induct (P := fun t => twf regRst t.regs = true ∧ irqRest t = irqRest s ∧
    ∀ y ∈ mapOrder, present s y.1 y.2 = false → regN t (partAddr y.1 y.2) = regN s (partAddr y.1 y.2)) ⟨hs, rfl, fun _ _ _ => rfl⟩ ?_
  rintro x hx t ⟨hw, hr, ht⟩
  have hpresent : present t x.1.1 x.1.2 = present s x.1.1 x.1.2 := rest_keeps hr (present · x.1.1 x.1.2)
  dsimp only
  split
  case isFalse => exact ⟨hw, hr, ht⟩
  case isTrue hp =>
    refine ⟨setRegN_wf hw _ _, (irqRest_setRegN t _ _).trans hr, fun y hy hn => ?_⟩
    have hxy : y ≠ x.1 := by
      rintro rfl
      rw [hpresent, hn] at hp
      cases hp
    rw [regN_setRegN_other hw (partAddr_ne hy (List.fst_mem_of_mem_zipIdx hx) hxy), ht y hy hn]

section
variable {s : State}

/-- The counter, the duration and BOOT_STAT of a start that ends, and BOOT_OK of SAFE_STAT. -/
def fwCounted (s : State) : State :=
  setRegN (bump (assignParts s) (bt (if s.boot.cold then 0x800 else 0x804)) 1) (bt 0x124) (since s s.boot.startAt / 1000)
def fwShown (s : State) : State :=
  orReg (setBootFld (setBootFld (setBootFld (setBootFld (fwCounted s) 0 2 2) 4 3 0) 8 8 0) 16 2 0) (safePg + 0x104) 2

/-- The heartbeat starts and the start is over. -/
def fwRuns (s : State) : State :=
  let t := fwShown s
  { t with
    safe := { t.safe with hbOn := true, hbAt := s.time, hbPin := false }
    boot := { t.boot with starting := false, step := 0, warmSince := if s.boot.cold then 0 else s.boot.warmSince + 1 } }

theorem fwReadyAct_ready (h : s.boot.starting = true) (hk : s.boot.step = 6) (ht : since s s.boot.stepAt ≤ 2000000000) :
    ∃ w, fwReadyAct s = raiseIrq (setPwr (fwRuns s) w) .boot 0 8 none := by
  have hlt : ¬(2000000000 < since s s.boot.stepAt) := by omega
  refine ⟨{ (fwRuns s).pwr with vouts := (fwRuns s).pwr.vouts ++ [oppV (fwRuns s) (fwRuns s).pwr.cur] }, ?_⟩
  unfold fwReadyAct
  rw [if_neg (by simp [h, hk, hlt])]
  rfl

theorem fwCounted_wf (hs : twf regRst s.regs = true) : twf regRst (fwCounted s).regs = true := setRegN_wf (bump_wf (assignParts_keeps hs).1 _ _) _ _

theorem bootState_fwShown (hs : twf regRst s.regs = true) : bootState (fwShown s) = 2 := by
  have h0 := fwCounted_wf hs
  have h1 := setBootFld_wf h0 0 2 2
  have h2 := setBootFld_wf h1 4 3 0
  have h3 := setBootFld_wf h2 8 8 0
  have h4 := setBootFld_wf h3 16 2 0
  have e : bootState (fwShown s) = bootState (setBootFld (setBootFld (setBootFld (setBootFld (fwCounted s) 0 2 2) 4 3 0) 8 8 0) 16 2 0) := by
    simp only [bootState, bootFld, fwShown, regN_orReg_other h4 (show bt 0x100 ≠ safePg + 0x104 by decide)]
  rw [e, bootState_setBootFld_above h3 (by decide), bootState_setBootFld_above h2 (by decide), bootState_setBootFld_above h1 (by decide),
    bootState_setBootFld h0]

theorem fwShown_wf (hs : twf regRst s.regs = true) : twf regRst (fwShown s).regs = true :=
  orReg_wf (setBootFld_wf (setBootFld_wf (setBootFld_wf (setBootFld_wf (fwCounted_wf hs) _ _ _) _ _ _) _ _ _) _ _ _) _ _

theorem irqRest_fwShown (hs : twf regRst s.regs = true) : irqRest (fwShown s) = irqRest s := by
  rw [fwShown, irqRest_orReg, irqRest_setBootFld, irqRest_setBootFld, irqRest_setBootFld, irqRest_setBootFld, fwCounted, irqRest_setRegN, irqRest_bump,
    (assignParts_keeps hs).2.1]

/-- The registers the end of a start writes, beside the partition map. -/
theorem regN_fwShown_other (hs : twf regRst s.regs = true) {a : Nat} (h : ∀ o, o < 0x1000 → a ≠ bt o) (h' : a ≠ safePg + 0x104) : regN (fwShown s) a = regN (assignParts s) a := by
  have hb := bump_wf (assignParts_keeps hs).1 (bt (if s.boot.cold then 0x800 else 0x804)) 1
  have h0 := fwCounted_wf hs
  have h1 := setBootFld_wf h0 0 2 2
  have h2 := setBootFld_wf h1 4 3 0
  have h3 := setBootFld_wf h2 8 8 0
  have h4 := setBootFld_wf h3 16 2 0
  have hfld {t : State} (ht : twf regRst t.regs = true) (lo n v : Nat) : regN (setBootFld t lo n v) a = regN t a := regN_setRegN_other ht (h _ (by decide)) _
  rw [fwShown, regN_orReg_other h4 h', hfld h3, hfld h2, hfld h1, hfld h0, fwCounted, regN_setRegN_other hb (h _ (by decide)),
    regN_bump_other (assignParts_keeps hs).1 (h _ (by split <;> decide))]

/-- FW_READY within two seconds ends the start in RUNNING. -/
theorem fwReadyAct_effect (hs : twf regRst s.regs = true) (h : s.boot.starting = true) (hk : s.boot.step = 6) (ht : since s s.boot.stepAt ≤ 2000000000) :
    bootState (fwReadyAct s) = 2 ∧ (fwReadyAct s).boot.starting = false ∧ (fwReadyAct s).safe.hbOn = true ∧ (fwReadyAct s).hbm = s.hbm ∧
    ∀ x ∈ mapOrder, present s x.1 x.2 = false → regN (fwReadyAct s) (partAddr x.1 x.2) = regN s (partAddr x.1 x.2) := by
  obtain ⟨w, e⟩ := fwReadyAct_ready h hk ht
  have hr := raiseIrq_reports (setPwr (fwRuns s) w) (b := .boot) (n := 0) (by decide) 8 none
  have hregs : (setPwr (fwRuns s) w).regs = (fwShown s).regs := by simp only [setPwr_regs, fwRuns]
  have hwf : twf regRst (setPwr (fwRuns s) w).regs = true := by
    rw [hregs]
    exact fwShown_wf hs
  have hreg {a : Nat} (ha : OffStat a) : regN (fwReadyAct s) a = regN (fwShown s) a := by rw [e, hr.regN_eq hwf ha, regN_congr hregs]
  refine ⟨?_, by rw [e, hr.keeps State.boot, setPwr_boot]; rfl,
    by rw [e, hr.keeps State.safe, setPwr_safe]; rfl, ?_, fun x hx hn => ?_⟩
  · have hoff : OffStat (bt 0x100) := offStat_page (by decide) (by decide) (by decide) (by decide)
    rw [bootState, bootFld, hreg hoff]
    exact bootState_fwShown hs
  · have hhbm : (fwRuns s).hbm = (fwShown s).hbm := by simp only [fwRuns]
    rw [e, hr.keeps State.hbm, setPwr_hbm, hhbm, rest_keeps (irqRest_fwShown hs) State.hbm]
  · obtain ⟨hlt, ha⟩ := mem_mapOrder hx
    have hwin : 0x24 < (blkPlace x.1).2.2.1 := headerOffset_lt_window x.1 (by decide)
    have hmap : ∀ b : Blk, (b, x.2) ∈ mapOrder → b ≠ .boot ∧ b ≠ .safe := by
      intro b hb
      simp only [mapOrder, List.mem_flatMap, List.mem_map, List.mem_range, Prod.mk.injEq] at hb
      obtain ⟨c, hc, m, -, rfl, -⟩ := hb
      constructor <;> rintro rfl <;> revert hc <;> decide
    have hne {c : Blk} {o : Nat} (hc : x.1 ≠ c) (h0 : 0 < blkCount c) (ho : o < (blkPlace c).2.2.1) : pg x.1 x.2 + 0x24 ≠ pg c 0 + o := by
      intro e
      have hl := locate_pg hlt hwin
      rw [e, locate_pg h0 ho] at hl
      simp only [Option.some.injEq, Loc.mk.injEq] at hl
      exact hc hl.1.symm
    obtain ⟨hboot, hsafe⟩ := hmap x.1 hx
    rw [← (assignParts_keeps hs).2.2 x hx hn, ha, hreg (offStat_page hlt hwin (by decide) (by decide))]
    exact regN_fwShown_other hs (fun o ho => hne hboot (by decide) (headerOffset_lt_window _ ho)) (hne hsafe (by decide) (by decide))

end

/-- Settles O55: each step of a start is its check and the next step, and a failure begins the start again or leaves MGMT_ONLY. -/
theorem startStepsTakeEffect : Obligations.StartStepsTakeEffect := by
  intro dt s ok rows b e f ha
  have hs : twf regRst b.regs = true := arrive_regs_wf dt s
  have step : exec (.startStepComplete dt ok rows) s = .next (closing s (stepAct b ok rows)) := act_awake (f := fun t => stepAct t ok rows) ha
  have ready : exec (.fwReady dt) s = .next (closing s (fwReadyAct b)) := act_awake (f := fwReadyAct) ha
  have hang : exec (.fwHang dt) s = .next (closing s (fwHangAct b)) := act_awake (f := fwHangAct) ha
  have high : exec (.tjHigh dt) s = .next (closing s (tjHighAct b)) := act_awake (f := tjHighAct) ha
  have goes {t : State} (h : stepAct b ok rows = t) : e t := step.trans (by rw [h])
  refine ⟨fun h => ⟨goes (stepAct_idle h ok rows), ?_, ?_, ?_⟩, fun h hk => ?one, fun h hk => ?two, fun h hk hok => ?three, fun h hk hok => ?trained,
    fun h hk hok => ?four, fun h hk hok hrows => ?injected, fun h hk => ?five, fun h hk => ⟨fun ht => ?_, fun ht => ?_⟩, failStart_effect hs⟩
  · rw [ready, show fwReadyAct b = b by simp [fwReadyAct, h]]
  · rw [hang, show fwHangAct b = b by simp [fwHangAct, h]]
  · rw [high, show tjHighAct b = b by simp [tjHighAct, h]]
  case one =>
    have h1 := stepAct_one h hk ok rows
    refine ⟨fun hw => goes (h1.trans (step1_waits hw)), fun hok hc => ?_, fun hc ht hsince => ?_⟩
    · have hl := h1.trans ((congrArg (step1 b) hok).trans (step1_loads hc))
      refine ⟨fun h1 => goes ?_, fun h1 h2 => goes ?_, fun g h1 h2 h3 => goes ?_, fun g h1 h2 h3 => goes ?_⟩
      · rw [hl, if_pos h1]
      · rw [hl, if_neg (by simp [h1]), h2]
      · rw [hl, if_neg (by simp [h1]), h2]
        exact if_pos h3
      · rw [hl, if_neg (by simp [h1]), h2]
        exact if_neg (by simp [h3])
    · rw [high, show tjHighAct b = failStart b 3 by simp [tjHighAct, h, hc, hk, ht, hsince]]
  case two =>
    have h2 := stepAct_two h hk ok rows
    refine ⟨fun hc hok => goes ?_, fun hc hb => goes (h2.trans (step2_warm_fails hc hb)), fun hc hok hb => ?_⟩
    · rw [h2, hok, step2_cold_fails hc]
    · exact ⟨setBootFld b 18 1 _, goes (by rw [h2, hok, step2_warm_passes hc hb]), rfl, rfl, rfl⟩
  case three =>
    refine goes ?_
    rw [stepAct_three h hk, hok]
    rfl
  case trained =>
    obtain ⟨t, ht, hw⟩ := step3_trains hs
    exact ⟨setPwr t { b.pwr with hbmSelf := false }, goes (by rw [stepAct_three h hk, hok, ht]), rfl, rest_keeps hw.rest State.hbm, hw.shown⟩
  case four =>
    have h4 := (stepAct_four h hk ok rows).trans (step4_eq b ok rows)
    refine ⟨setBoot (setRegN b (safePg + 0x108) 0x3FF) { b.boot with imgAddr := reg64 b (bt 0x108) (bt 0x10C), imgLen := regN b (bt 0x110) }, goes ?_,
      regN_setRegN_same hs _ _, rfl, rfl⟩
    rw [h4, hok]
    rfl
  case injected =>
    have hlt := checkersPassed_lt hrows
    have hne : (checkersPassed false rows != 0x3FF) = true := by simpa using hlt.ne
    have h4 := (stepAct_four h hk ok rows).trans (step4_eq b ok rows)
    simp only [hok, hne, if_true] at h4
    refine ⟨setRegN b (safePg + 0x108) (checkersPassed false rows), goes (hok ▸ h4), ?_, rfl⟩
    rw [regN_setRegN_same hs]
    exact Nat.lt_of_le_of_lt (Nat.mod_le _ _) hlt
  case five =>
    have h5 := stepAct_five h hk ok rows
    refine ⟨fun hi => goes (h5.trans (step5_no_source hi ok)), fun l g hi hok => goes ?_, fun l g hi hok => ?_⟩
    · rw [h5, step5_of_image hi, hok]
      rfl
    · have hl : stepAct b ok rows = imageChecked b true l g := h5.trans ((step5_of_image hi ok).trans (by rw [hok]))
      refine ⟨fun hf => goes (hl.trans (imageChecked_bad_format hf)), fun hf hk => goes (hl.trans (imageChecked_no_key hf hk)), fun k hf hk => ?_⟩
      have hsig := imageChecked_key (s := b) (fromHost := g) hf hk
      refine ⟨fun hv => goes (hl.trans (hsig.trans (if_pos hv))), fun hv hm => goes (hl.trans (hsig.trans ?_)), fun hv hm => ?_⟩
      · rw [if_neg (by simp [hv]), if_pos hm]
        rfl
      · refine ⟨imageTaken b l g k, goes (hl.trans (hsig.trans ?_)), imageTaken_effect hs l g k, rfl, rfl, rfl⟩
        rw [if_neg (by simp [hv]), if_neg (Nat.not_lt.mpr hm)]
  · obtain hready := fwReadyAct_effect hs h hk ht
    exact ⟨fwReadyAct b, ready, hready⟩
  · rw [hang, show fwHangAct b = failStart b 0x50 by simp [fwHangAct, h, hk, ht]]

end Sys2Proof.Machine
end

section
/-! Reads that clear or latch (R372, R457, R528, R575, R576). -/

namespace Sys2Proof.Machine
open Sys2Proof

section
variable {s : State} {who : Who} {a : Nat}

/-- A read of a register that is shown and not frozen by a stop answers it, and has its effect. -/
theorem readAct_open (h : readable s who a = true) (hn : isStopped s = false) (f : State → State) :
    readAct s who a f = f (answered s (regRead s who a)) := by
  simp [readAct, h, hn]

/-- A readable register answers what its page shows (R13, R16). -/
theorem regRead_of_readable {b : Blk} {n o : Nat} (hb : n < blkCount b) (ho : o < (blkPlace b).2.2.1) (hh : headerOff ⟨b, n, o⟩ = none)
    (h : readable s who (pg b n + o) = true) : ∃ k, regRead s who (pg b n + o) = shownRead s who ⟨b, n, o⟩ k := by
  simp only [readable, locate_pg hb ho, Bool.and_eq_true] at h
  obtain ⟨hr, hv, hrow⟩ := h
  cases hview : viewOf s who ⟨b, n, o⟩ with
  | shown =>
    cases hx : rowAt ⟨b, n, o⟩ with
    | none => simp [hx] at hrow
    | some x =>
      obtain ⟨r, k⟩ := x
      simp only [hx, Bool.and_eq_true, bne_iff_ne] at hrow
      obtain ⟨hacc, hmay⟩ := hrow
      refine ⟨k, ?_⟩
      have hreset : s.boot.inReset = false := by simpa using hr
      simp [regRead, hreset, locate_pg hb ho, hview, hh, hx, hacc, hmay]
  | denied => simp [hview] at hv
  | absent => simp [hview] at hv

/-- A page that stays open in a stop is read in it too (R595). -/
theorem readAct_openInStop {b : Blk} {n o : Nat} (hb : n < blkCount b) (ho : o < (blkPlace b).2.2.1) (hop : openInStop ⟨b, n, o⟩ = true)
    (h : readable s who (pg b n + o) = true) (f : State → State) : readAct s who (pg b n + o) f = f (answered s (regRead s who (pg b n + o))) := by
  simp [readAct, h, locate_pg hb ho, hop]

end

/-- The age slot shown is cleared (R528). -/
def clearWorst (t : State) : State :=
  let k := regN t (safePg + 0x300) % 256
  setAge t k { ageAt t k with worst := 0 }

theorem clearWorst_rdata (t : State) : (clearWorst t).rdata = t.rdata := rfl
theorem clearWorst_regs (t : State) : (clearWorst t).regs = t.regs := rfl
theorem answered_rdata (t : State) (v : Nat) : (answered t v).rdata = natLe 4 v := rfl
theorem answered_regs (t : State) (v : Nat) : (answered t v).regs = t.regs := rfl

/-- The registers of the command counters once CMD_OPID is read (R575, R576). -/
theorem regN_cmdOpidRead {s : State} (hs : twf regRst s.regs = true) {x : Blk} {n : Nat} (he : (cntAt s x n).enteredAt ≠ some s.time) :
    regN (cmdOpidRead s x n) (pg x n + 0xC00) = (cntAt s x n).opid % 2 ^ 24 + 2 ^ 24 * ((cntAt s x n).phase % 256) := by
  have hold : (!frozen s && (cntAt s x n).enteredAt == some s.time) = false := by simp [he]
  have h1 := setRegN_wf hs (pg x n + 0xC00) ((cntAt s x n).opid % 2 ^ 24 + 2 ^ 24 * ((cntAt s x n).phase % 256))
  have h2 := setRegN_wf h1 (pg x n + 0xC00 + 4) (cntStopped s x n).busy
  have h3 := setRegN_wf h2 (pg x n + 0xC00 + 8) (cntAt s x n).stall
  simp only [cmdOpidRead, hold]
  rw [if_neg (by decide), regN_setRegN_other h3 (by omega), regN_setRegN_other h2 (by omega), regN_setRegN_other h1 (by omega), regN_setRegN_same hs]
  omega

theorem irqRest_cmdOpidRead (s : State) (x : Blk) (n : Nat) : irqRest (cmdOpidRead s x n) = irqRest s := by
  simp only [cmdOpidRead]
  split <;> simp only [irqRest_setRegN]

theorem blkOfCode_blkCode (x : Blk) : blkOfCode (blkCode x) = some x := by cases x <;> rfl

/-- Settles O20: a read that is shown answers the value before, and then clears or latches. -/
theorem readsWithEffects : Obligations.ReadsWithEffects := by
  intro dt s who b ha
  have hs : twf regRst b.regs = true := arrive_regs_wf dt s
  have hages : twf (fun _ => ({} : AgeSlot)) b.ages = true := tblOf_wf _ _
  refine ⟨fun l a hl hr hn => ?_, fun a hsafe hr => ?_, fun a v h hr hn hl => ?_, fun x n hx hr hn _ he => ?_⟩
  · subst hl
    refine (act_awake (f := fun t => clearingRead t who (pg .ladle l + 0x814)) ha).trans ?_
    exact congrArg (fun t => Host.Outcome.next (closing s t)) (readAct_open hr hn _)
  · subst hsafe
    have hread : ageWorstAct b who = clearWorst (answered b (regRead b who (safePg + 0x30C))) :=
      readAct_openInStop (b := .safe) (n := 0) (o := 0x30C) (by decide) (by decide) rfl hr clearWorst
    obtain ⟨k, hval⟩ := regRead_of_readable (b := .safe) (n := 0) (o := 0x30C) (by decide) (by decide) rfl hr
    have hval : regRead b who (safePg + 0x30C) = (ageAt b (regN b (safePg + 0x300) % 256)).worst := hval
    refine ⟨ageWorstAct b who, act_awake (f := fun t => ageWorstAct t who) ha, ?_, ?_, ?_⟩
    · rw [hread, ← hval, clearWorst_rdata, answered_rdata]
    · rw [hread]
      exact congrArg AgeSlot.worst (tget_tset_same _ _ _ hages)
    · rw [hread, clearWorst_regs, answered_regs]
  · refine (act_awake (f := fun t => latchRead t who a) ha).trans ?_
    have e : latchRead b who a = setRegN (answered b (regRead b who a)) h v := by
      rw [latchRead, readAct_open hr hn, hl]
    exact congrArg (fun t => Host.Outcome.next (closing s t)) e
  · have hc : countedUnits.contains (x, n) = true := by simpa using hx
    have e : opidRead b who (blkCode x) n =
        answered (cmdOpidRead (answered b (regRead b who (pg x n + 0xC00))) x n)
          (regRead (cmdOpidRead (answered b (regRead b who (pg x n + 0xC00))) x n) who (pg x n + 0xC00)) := by
      simp only [opidRead, blkOfCode_blkCode, hc, readAct_open hr hn]
      rfl
    have hrest := irqRest_cmdOpidRead (answered b (regRead b who (pg x n + 0xC00))) x n
    refine ⟨opidRead b who (blkCode x) n, act_awake (f := fun t => opidRead t who (blkCode x) n) ha, ?_, ?_, ?_⟩
    · rw [e]
      exact regN_cmdOpidRead (s := answered b (regRead b who (pg x n + 0xC00))) hs he
    · rw [e]
      exact rest_keeps hrest State.graphs
    · rw [e]
      exact rest_keeps hrest State.hbm

end Sys2Proof.Machine
end

section
/-! Submitted commands: what a submission latches, and how it is decided (R76 to R80). -/

namespace Sys2Proof.Machine
open Sys2Proof

/-! ## CMD_DATA -/

/-- What holds while the words of a submission are written one after another. -/
structure ArgsWritten (s : State) (p : Nat) (done : List (Word × Nat)) (t : State) : Prop where
  regs_wf : twf regRst t.regs = true
  cmdw : t.cmdw = s.cmdw
  shown : ∀ x ∈ done, reg t (cw p + 0x100 + 4 * x.2) = x.1

theorem argsWritten_forAll {s : State} {p : Nat} (l : List (Word × Nat)) {t : State} {done : List (Word × Nat)}
    (hl : ∀ x ∈ done, ∀ y ∈ l, x.2 ≠ y.2) (hd : l.Pairwise fun x y => x.2 ≠ y.2) (h : ArgsWritten s p done t) :
    ArgsWritten s p (done ++ l) (forAll l (fun x t => setReg t (cw p + 0x100 + 4 * x.2) x.1) t) := by
  induction l generalizing t done with
  | nil => rwa [List.append_nil]
  | cons y l ih =>
    rw [List.pairwise_cons] at hd
    have hstep : ArgsWritten s p (done ++ [y]) (setReg t (cw p + 0x100 + 4 * y.2) y.1) := by
      refine ⟨setReg_wf h.regs_wf _ _, h.cmdw, fun x hx => ?_⟩
      rcases List.mem_append.mp hx with hx | hx
      · have := hl x hx y List.mem_cons_self
        rw [reg_setReg_other h.regs_wf (by omega)]
        exact h.shown x hx
      · rw [List.mem_singleton.mp hx, reg_setReg_same h.regs_wf]
    have hrest := ih (done := done ++ [y]) (fun x hx z hz => by
      rcases List.mem_append.mp hx with hx | hx
      · exact hl x hx z (List.mem_cons_of_mem _ hz)
      · exact List.mem_singleton.mp hx ▸ hd.1 z hz) hd.2 hstep
    simpa [forAll] using hrest

theorem writeArgs_written {s : State} (hs : twf regRst s.regs = true) (p : Nat) (w : List Word) :
    ArgsWritten s p (w.take 16).zipIdx (writeArgs s p w) := by
  have hd : (w.take 16).zipIdx.Pairwise fun x y => x.2 ≠ y.2 := by
    rw [List.pairwise_iff_getElem]
    intro i j hi hj hij
    simp only [List.getElem_zipIdx]
    omega
  exact argsWritten_forAll (done := []) (w.take 16).zipIdx (by simp) hd ⟨hs, rfl, by simp⟩

theorem reg_writeArgs {s : State} (hs : twf regRst s.regs = true) (p : Nat) {w : List Word} (hw : w.length = 16) {i : Nat} (hi : i < 16) :
    reg (writeArgs s p w) (cw p + 0x100 + 4 * i) = w[i] := by
  refine (writeArgs_written hs p w).shown (w[i], i) ?_
  rw [List.take_of_length_le hw.le, List.mem_zipIdx_iff_getElem?]
  exact List.getElem?_eq_getElem (by omega)

theorem cmdwAt_writeArgs {s : State} (hs : twf regRst s.regs = true) (p : Nat) (w : List Word) : cmdwAt (writeArgs s p w) p = cmdwAt s p :=
  congrArg (fun m => tget (fun _ => ({} : Cmdw)) m p) (writeArgs_written hs p w).cmdw

/-! ## A submission -/

section
variable {s : State} (hs : twf regRst s.regs = true) (hc : twf (fun _ => ({} : Cmdw)) s.cmdw = true) {p : Nat} {w : List Word}
  (hn : (cmdwAt s p).latched = none)
include hs hn

/-- A submission with no earlier one undecided is latched, and CMD_HANDLE is pending. -/
theorem submitAct_latches (hw : w.length = 16) (op : Nat) : submitAct (writeArgs s p w) p op =
    setRegN (setCmdw (writeArgs s p w) p { cmdwAt s p with latched := some (op % 256, w) }) (cw p + 0x144) 0x8000_0000 := by
  have hargs : (List.range 16).map (fun i => reg (writeArgs s p w) (cw p + 0x100 + 4 * i)) = w := by
    refine List.ext_getElem (by simp [hw]) fun i hi _ => ?_
    simp only [List.length_map, List.length_range] at hi
    rw [List.getElem_map, List.getElem_range, reg_writeArgs hs p hw hi]
  simp only [submitAct, cmdwAt_writeArgs hs, hn, hargs]
  rfl

include hc

theorem cmdwAt_submitAct (hw : w.length = 16) (op : Nat) :
    cmdwAt (submitAct (writeArgs s p w) p op) p = { cmdwAt s p with latched := some (op % 256, w) } := by
  have hc' : twf (fun _ => ({} : Cmdw)) (writeArgs s p w).cmdw = true := (writeArgs_written hs p w).cmdw ▸ hc
  rw [submitAct_latches hs hn hw]
  exact cmdwAt_setCmdw_same hc' p _

/-- A command row decides the submission it makes, where nothing was latched before (R76, R77). -/
theorem cmdRow_fresh (hw : w.length = 16) (hp : p < 4) (hrun : isRunning s = true) (hstop : isStopped s = false) {op : Nat} (hop : op < 256)
    (reasons : List Word → State → List (Bool × Nat)) (act : List Word → Nat → State → State) :
    cmdRow op p (some w) reasons act s =
      (let x := decideN p op w (reasons w) (act w) (submitted s p op w); setRegN x.2 (cw p + 0x144) x.1) := by
  have hp' : decide (3 < p) = false := by simp; omega
  have hl := cmdwAt_submitAct hs hc hn hw op
  simp only [cmdRow, hp', hrun, hstop, hn, hl, Nat.mod_eq_of_lt hop, decideCmd, submitted]
  rfl

/-- The decision of a submission that no reason rejects. -/
theorem cmdRow_accepted (hw : w.length = 16) (hp : p < 4) (hrun : isRunning s = true) (hstop : isStopped s = false) {op : Nat} (hop : op < 256)
    {reasons : List Word → State → List (Bool × Nat)} {i : Nat} (hf : freeSlot (submitted s p op w) p = some i)
    (hr : lowest (commonReasons (submitted s p op w) p ++ reasons w (submitted s p op w)) = none) (act : List Word → Nat → State → State) :
    cmdRow op p (some w) reasons act s = acceptedAs (submitted s p op w) p op w i (act w) := by
  rw [cmdRow_fresh hs hc hn hw hp hrun hstop hop]
  simp only [decideN, hr, hf]
  rfl

/-- The decision of a submission that some reason rejects. -/
theorem cmdRow_rejected (hw : w.length = 16) (hp : p < 4) (hrun : isRunning s = true) (hstop : isStopped s = false) {op : Nat} (hop : op < 256)
    {reasons : List Word → State → List (Bool × Nat)} {r : Nat}
    (hr : lowest (commonReasons (submitted s p op w) p ++ reasons w (submitted s p op w)) = some r) (act : List Word → Nat → State → State) :
    cmdRow op p (some w) reasons act s = setRegN (submitted s p op w) (cw p + 0x144) (rejection p r) := by
  rw [cmdRow_fresh hs hc hn hw hp hrun hstop hop]
  simp only [decideN, hr]

omit hc in
/-- CMD_DATA shows the words submitted. -/
theorem reg_submitted (hw : w.length = 16) (op : Nat) {i : Nat} (hi : i < 16) : reg (submitted s p op w) (cw p + 0x100 + 4 * i) = nth 0 w i := by
  have hwf : twf regRst (setCmdw (writeArgs s p w) p { cmdwAt s p with latched := some (op % 256, w) }).regs = true := (writeArgs_written hs p w).regs_wf
  have e : (submitted s p op w).regs = (submitAct (writeArgs s p w) p op).regs := rfl
  rw [reg, e, submitAct_latches hs hn hw]
  refine (reg_setReg_other hwf (by omega) _).trans ((reg_writeArgs hs p hw hi).trans ?_)
  rw [nth, List.getD_eq_getElem?_getD, List.getElem?_eq_getElem (by omega)]
  rfl

end

/-- Settles O21: a submission is latched and decided at once, and a decision that no reason rejects takes the slot and has the command's effect. -/
theorem submittedCommandsAreAccepted : Obligations.SubmittedCommandsAreAccepted := by
  intro dt s p w b ⟨ha, hrun, hstop⟩ hp hw hn
  have hs : twf regRst b.regs = true := arrive_regs_wf dt s
  have hc : twf (fun _ => ({} : Cmdw)) b.cmdw = true := tblOf_wf _ _
  have row {c : Instr} {op : Nat} {reasons : List Word → State → List (Bool × Nat)} {act : List Word → Nat → State → State} {i : Nat}
      (he : exec c s = Machine.act dt (fun t => cmdRow op p (some w) reasons act t) s) (hop : op < 256) (hf : freeSlot (submitted b p op w) p = some i)
      (hr : lowest (commonReasons (submitted b p op w) p ++ reasons w (submitted b p op w)) = none) :
      exec c s = .next (closing s (acceptedAs (submitted b p op w) p op w i (act w))) := by
    rw [he, act_awake ha, cmdRow_accepted hs hc hn hw hp hrun hstop hop hf hr]
  exact ⟨fun i => row rfl (by decide), fun i => row rfl (by decide), fun i => row rfl (by decide),
    fun i => row (act := fun w h x => stopGraphAct x (argN w 0) h (bitOf (argN w 1) 0)) rfl (by decide), fun i => row rfl (by decide),
    fun i => row rfl (by decide), fun i => row rfl (by decide), fun i => row rfl (by decide), fun i => reg_submitted hs hn hw 1⟩

/-- Settles O22: a decision that some reason rejects sets CMD_HANDLE, and nothing else. -/
theorem submittedCommandsAreRejected : Obligations.SubmittedCommandsAreRejected := by
  intro dt s p w b ⟨ha, hrun, hstop⟩ hp hw hn
  have hs : twf regRst b.regs = true := arrive_regs_wf dt s
  have hc : twf (fun _ => ({} : Cmdw)) b.cmdw = true := tblOf_wf _ _
  have row {c : Instr} {op : Nat} {reasons : List Word → State → List (Bool × Nat)} {act : List Word → Nat → State → State} {r : Nat}
      (he : exec c s = Machine.act dt (fun t => cmdRow op p (some w) reasons act t) s) (hop : op < 256)
      (hr : lowest (commonReasons (submitted b p op w) p ++ reasons w (submitted b p op w)) = some r) :
      exec c s = .next (closing s (setRegN (submitted b p op w) (cw p + 0x144) (rejection p r))) := by
    rw [he, act_awake ha, cmdRow_rejected hs hc hn hw hp hrun hstop hop hr]
  exact ⟨fun r => row rfl (by decide), fun r => row rfl (by decide), fun r => row rfl (by decide),
    fun r => row (act := fun w h x => stopGraphAct x (argN w 0) h (bitOf (argN w 1) 0)) rfl (by decide), fun r => row rfl (by decide),
    fun r => row rfl (by decide), fun r => row rfl (by decide), fun r => row rfl (by decide)⟩

end Sys2Proof.Machine
end

section
/-! What the frame-drop log, results and halted movers can reach: never a graph (R45 to R47, R81, R438, R523 to R525). -/

namespace Sys2Proof.Machine
open Sys2Proof

/-! ## The frame-drop log -/

@[simp] theorem logRest_rexViol (s : State) (bit : Nat) : logRest (rexViol s bit) = logRest s := by
  unfold rexViol
  split
  · rfl
  · rw [logRest_raiseIrq, logRest_orReg]

@[simp] theorem logRest_dlogLose (s : State) (p : Nat) : logRest (dlogLose s p) = logRest s := by
  simp only [dlogLose]
  split
  · rw [logRest_rexViol, logRest_setDlog]
  · rfl

theorem logRest_dlogStore {p : Nat} {l : List DEnt} {i : Word} {s t : State} (h : dlogStore p l i s = .ok t) : logRest t = logRest s := by
  induction l generalizing i s with
  | nil =>
    cases h
    rfl
  | cons e r ih =>
    simp only [dlogStore, bind, Except.bind] at h
    split at h
    · cases h
    · rename_i hw
      rw [ih h, logRest_vaWriteAll hw]

theorem logRest_dlogWrite {s t : State} {p : Nat} {e : DEnt} (h : dlogWrite s p e = .ok t) : logRest t = logRest s := by
  simp only [dlogWrite, bind, Except.bind] at h
  split at h
  · cases h
  · rename_i hw
    cases h
    rw [logRest_setDlog, logRest_setReg, logRest_dlogStore hw]

@[simp] theorem logRest_dlogPut (s : State) (p kind subj seq arg0 arg1 : Nat) : logRest (dlogPut s p kind subj seq arg0 arg1) = logRest s := by
  unfold dlogPut
  split
  · rfl
  · split
    · rw [logRest_dlogLose]
    · split
      · rename_i h
        rw [logRest_dlogWrite h]
      · rw [logRest_rexViol, logRest_dlogLose, logRest_setDlog]

@[simp] theorem logRest_logFlowStop (s : State) (g f reason : Nat) : logRest (logFlowStop s g f reason) = logRest s := logRest_dlogPut _ _ _ _ _ _ _

/-! ## Results (R81, R523 to R525) -/

/-- The state without what a result's record, its verdict and their reports may change. -/
def resultRest (s : State) : State := logRest (setSafe s {})

theorem resultRest_of_logRest {s t : State} (h : logRest t = logRest s) : resultRest t = resultRest s := congrArg (fun u => setSafe u {}) h

@[simp] theorem resultRest_setSafe (s : State) (d : Safe) : resultRest (setSafe s d) = resultRest s := rfl

theorem resultRest_vDrainList (l : List Verdict) (s : State) : resultRest (vDrainList l s).2 = resultRest s := by
  induction l generalizing s with
  | nil => rfl
  | cons v r ih =>
    unfold vDrainList
    split
    · rfl
    · split
      · rename_i t h
        rw [ih, resultRest_of_logRest (logRest_bump _ _ _)]
        exact (resultRest_setSafe _ _).trans (resultRest_of_logRest ((logRest_setReg t _ _).trans (logRest_vaWriteAll h)))
      · exact (resultRest_of_logRest (logRest_raiseErr _ _ _ _ _)).trans (resultRest_setSafe s _)

@[simp] theorem resultRest_vDrain (s : State) : resultRest (vDrain s) = resultRest s := by
  have h := resultRest_vDrainList s.safe.vheld s
  simp only [vDrain]
  split
  · exact (resultRest_of_logRest (logRest_raiseIrq _ _ _ _ _)).trans ((resultRest_setSafe _ _).trans h)
  · exact (resultRest_setSafe _ _).trans h

@[simp] theorem resultRest_pushResult (s : State) (p : Nat) (r : Cpl) : resultRest (pushResult s p r) = resultRest s := by
  simp only [pushResult]
  split
  · exact (resultRest_vDrain _).trans ((resultRest_setSafe _ _).trans (resultRest_of_logRest (logRest_pushCpl s p r)))
  · exact resultRest_of_logRest (logRest_pushCpl s p r)

/-- A part of the state that the logs do not hold reads the same. -/
theorem logRest_keeps {α : Type} {s t : State} (h : logRest t = logRest s) (f : State → α) (hf : ∀ u, f (logRest u) = f u := by intro _; rfl) :
    f t = f s := by
  rw [← hf t, h, hf s]

theorem resultRest_keeps {α : Type} {s t : State} (h : resultRest t = resultRest s) (f : State → α) (hf : ∀ u, f (resultRest u) = f u := by intro _; rfl) :
    f t = f s := by
  rw [← hf t, h, hf s]

/-- Rounds that each keep a part of the state keep it. -/
theorem forAll_keeps {α β : Type} {l : List α} {f : α → State → State} (k : State → β) (h : ∀ x ∈ l, ∀ t, k (f x t) = k t) (s : State) :
    k (forAll l f s) = k s :=
  forAll_induct (P := fun t => k t = k s) rfl fun x hx t ht => (h x hx t).trans ht

/-! ## Movers that end (R438, R441) -/

/-- The state without what a mover's end may change. -/
def moverRest (s : State) : State := logRest { s with
  movers := []
  flights := []
  units := []
  cores := []
  hi := [] }

theorem moverRest_of_logRest {s t : State} (h : logRest t = logRest s) : moverRest t = moverRest s :=
  congrArg (fun u : State => { u with movers := [], flights := [], units := [], cores := [], hi := [] }) h

@[simp] theorem moverRest_setMov (s : State) (k : Nat) (m : Mov) : moverRest (setMov s k m) = moverRest s := rfl
@[simp] theorem moverRest_closeFlight (k : Nat) (s : State) : moverRest (closeFlight k s) = moverRest s := rfl
@[simp] theorem moverRest_setUnit (s : State) (b : Blk) (n : Nat) (u : UnitSt) : moverRest (setUnit s b n u) = moverRest s := rfl
@[simp] theorem moverRest_finishRun (s : State) (b : Blk) (n st : Nat) : moverRest (finishRun s b n st) = moverRest s := rfl
@[simp] theorem moverRest_modCtx (s : State) (u : Nat) (r : TRef) (f : Ctx → Ctx) : moverRest (modCtx s u r f) = moverRest s := rfl
@[simp] theorem moverRest_endsWith (s : State) (u : Nat) (r : TRef) (st : Nat) : moverRest (endsWith s u r st) = moverRest s := rfl

@[simp] theorem moverRest_bump (s : State) (a n : Nat) : moverRest (bump s a n) = moverRest s := moverRest_of_logRest (logRest_bump s a n)
@[simp] theorem moverRest_raiseIrq (s : State) (b : Blk) (n bit : Nat) (ctx : Option Nat) : moverRest (raiseIrq s b n bit ctx) = moverRest s :=
  moverRest_of_logRest (logRest_raiseIrq s b n bit ctx)
@[simp] theorem moverRest_pushFinal (s : State) (h st src : Nat) : moverRest (pushFinal s h st src) = moverRest s :=
  moverRest_of_logRest (logRest_pushFinal s h st src)

@[simp] theorem moverRest_bump64 (s : State) (a n : Nat) : moverRest (bump64 s a n) = moverRest s := by
  unfold bump64
  split <;> rfl

@[simp] theorem moverRest_discardBytes (s : State) (m : Mover) (n : Nat) : moverRest (discardBytes s m n) = moverRest s := by
  cases m <;> exact moverRest_bump64 _ _ _

@[simp] theorem moverRest_grantSlots (s : State) : moverRest (grantSlots s) = moverRest s := by
  simp only [grantSlots]
  exact forAll_keeps moverRest (fun c _ t => moverRest_setMov t (256 + c) _) s

@[simp] theorem moverRest_cutTask (s : State) (ch : Nat) (r : TRef) (st : Nat) : moverRest (cutTask s ch r st) = moverRest s := by
  unfold cutTask
  split <;> rfl

/-- A final fault ends movers, their commands and tasks, and reports; it reaches nothing else. -/
@[simp] theorem moverRest_finalFault (s : State) (m : Mover) (cause : Nat) : moverRest (finalFault s m cause) = moverRest s := by
  unfold finalFault
  cases m with
  | ch c' =>
    dsimp only
    rw [forAll_keeps moverRest]
    · split <;> simp only [moverRest_bump, moverRest_raiseIrq, moverRest_grantSlots, moverRest_setMov, moverRest_closeFlight, moverRest_discardBytes]
    · intro c _ t
      split
      · exact moverRest_pushFinal _ _ _ _
      · exact moverRest_cutTask _ _ _ _
      · rfl
  | nc u j | vs u j =>
    dsimp only
    rw [forAll_keeps moverRest]
    · simp only [ite_self, moverRest_raiseIrq, moverRest_grantSlots, moverRest_setMov, moverRest_closeFlight, moverRest_discardBytes]
    · intro c _ t
      split
      · exact moverRest_endsWith _ _ _ _
      · rfl

@[simp] theorem moverRest_finalOfGraph (s : State) (g : Nat) : moverRest (finalOfGraph g s) = moverRest s := by
  unfold finalOfGraph
  rw [forAll_keeps moverRest]
  intro k _ t
  dsimp only
  split
  · rw [apply_ite moverRest, moverRest_finalFault, ite_self]
  · rfl

theorem moverRest_keeps {α : Type} {s t : State} (h : moverRest t = moverRest s) (f : State → α) (hf : ∀ u, f (moverRest u) = f u := by intro _; rfl) :
    f t = f s := by
  rw [← hf t, h, hf s]

/-! ## Graphs -/

/-- State t has the graphs of s, but for what runs of graph g: its flows, its runs and its binding to handles. -/
structure SameGraphs (g : Nat) (s t : State) : Prop where
  wf : twf (fun _ => ({} : Graph)) s.graphs = true → twf (fun _ => ({} : Graph)) t.graphs = true
  other : twf (fun _ => ({} : Graph)) s.graphs = true → ∀ j, j ≠ g → graphAt t j = graphAt s j
  stat : twf (fun _ => ({} : Graph)) s.graphs = true → (graphAt t g).stat = (graphAt s g).stat
  part : twf (fun _ => ({} : Graph)) s.graphs = true → (graphAt t g).part = (graphAt s g).part
  img : twf (fun _ => ({} : Graph)) s.graphs = true → (graphAt t g).img = (graphAt s g).img

theorem graphAt_congr {s t : State} (h : t.graphs = s.graphs) (j : Nat) : graphAt t j = graphAt s j := by simp only [graphAt, h]

theorem SameGraphs.of_eq {s t : State} (h : t.graphs = s.graphs) (g : Nat) : SameGraphs g s t where
  wf hs := by rwa [h]
  other _ j _ := graphAt_congr h j
  stat _ := by rw [graphAt_congr h]
  part _ := by rw [graphAt_congr h]
  img _ := by rw [graphAt_congr h]

theorem SameGraphs.trans {g : Nat} {s t u : State} (h : SameGraphs g s t) (k : SameGraphs g t u) : SameGraphs g s u where
  wf hs := k.wf (h.wf hs)
  other hs j hj := (k.other (h.wf hs) j hj).trans (h.other hs j hj)
  stat hs := (k.stat (h.wf hs)).trans (h.stat hs)
  part hs := (k.part (h.wf hs)).trans (h.part hs)
  img hs := (k.img (h.wf hs)).trans (h.img hs)

theorem setGraph_wf {s : State} (hs : twf (fun _ => ({} : Graph)) s.graphs = true) (g : Nat) (x : Graph) :
    twf (fun _ => ({} : Graph)) (setGraph s g x).graphs = true := twf_tset _ g x hs

theorem sameGraphs_modFlow (s : State) (g f : Nat) (k : FlowSt → FlowSt) : SameGraphs g s (modFlow s g f k) where
  wf hs := setGraph_wf hs _ _
  other hs _ hj := graphAt_setGraph_other hs hj _
  stat hs := by rw [modFlow, graphAt_setGraph_same hs]
  part hs := by rw [modFlow, graphAt_setGraph_same hs]
  img hs := by rw [modFlow, graphAt_setGraph_same hs]

theorem sameGraphs_forAll {α : Type} {g : Nat} {l : List α} {f : α → State → State} (h : ∀ x ∈ l, ∀ t, SameGraphs g t (f x t)) (s : State) :
    SameGraphs g s (forAll l f s) :=
  forAll_induct (P := SameGraphs g s) (SameGraphs.of_eq rfl g) fun x hx t ht => ht.trans (h x hx t)

theorem graphs_pushResult (s : State) (p : Nat) (r : Cpl) : (pushResult s p r).graphs = s.graphs := resultRest_keeps (resultRest_pushResult s p r) State.graphs

theorem graphs_dlogPut (s : State) (p kind subj seq arg0 arg1 : Nat) : (dlogPut s p kind subj seq arg0 arg1).graphs = s.graphs :=
  logRest_keeps (logRest_dlogPut s p kind subj seq arg0 arg1) State.graphs

theorem graphs_bump (s : State) (a n : Nat) : (bump s a n).graphs = s.graphs := rest_keeps (irqRest_bump s a n) State.graphs

theorem sameGraphs_dropResv (s : State) (g f status flags : Nat) : SameGraphs g s (dropResv s g f status flags) :=
  ((SameGraphs.of_eq (forAll_keeps State.graphs (fun _ _ t => graphs_pushResult t _ _) s) g).trans (sameGraphs_modFlow _ g f _)).trans
    (SameGraphs.of_eq (graphs_bump _ _ _) g)

theorem graphs_reportFlow (s : State) (g f status flags : Nat) : (reportFlow s g f status flags).graphs = s.graphs :=
  forAll_keeps State.graphs (fun _ _ t => graphs_pushResult t _ _) s

theorem sameGraphs_sweep (s : State) (g : Nat) : SameGraphs g s (sweep s) :=
  SameGraphs.of_eq (t := sweep s) (show (sweep s).graphs = s.graphs from rfl) g

theorem sameGraphs_discardFlow (s : State) (g f status flags : Nat) (stop : Bool) : SameGraphs g s (discardFlow s g f status flags stop) := by
  unfold discardFlow
  extract_lets s1 s2 s3
  have h3 : s3.graphs = s.graphs := graphs_reportFlow s g f status flags
  exact ((SameGraphs.of_eq h3 g).trans (sameGraphs_dropResv s3 g f status flags)).trans (sameGraphs_sweep _ g)

theorem graphs_lockEnds (s : State) : (lockEnds s).graphs = s.graphs := 
  forAll_keeps (f := fun u t => setTone u 2 t) State.graphs (fun _ _ _ => rfl) _

theorem graphs_pushFinal (s : State) (h st src : Nat) : (pushFinal s h st src).graphs = s.graphs := logRest_keeps (logRest_pushFinal s h st src) State.graphs

/-- A graph that stops and has ended becomes loaded; one that has tasks left stays as it was (R88, R130). -/
theorem graphs_finishGraph {s : State} {g : Nat} (h : (graphAt s g).stat ≠ .flushed) : (finishGraph s g).graphs = s.graphs ∨
    (finishGraph s g).graphs =
      (setGraph s g { graphAt s g with stat := .loaded, binds := [], flows := [], handle := 0, stopHandle := 0, lastSeq := none }).graphs := by
  unfold finishGraph
  extract_lets x s1 s2 d s3 s4
  have h1 : s1.graphs = s.graphs := graphs_dlogPut s _ _ _ _ _ _
  have h2 : s2.graphs = s.graphs := by
    simp only [s2]
    rw [forAll_keeps State.graphs (fun l _ t => graphs_bump (setLadle t l _) _ _), h1]
  have h3 : s3.graphs = s.graphs := h2
  split
  · exact .inl rfl
  · right
    rw [graphs_pushFinal, graphs_pushFinal, graphs_lockEnds]
    simp only [setGraph, h3, x]

theorem nth_modNth_same {α : Type} (d : α) (f : α → α) {i : Nat} {l : List α} (h : i < l.length) : nth d (modNth f i l) i = f (nth d l i) := by
  induction l generalizing i with
  | nil => cases h
  | cons x l ih =>
    cases i with
    | zero => rfl
    | succ i => exact ih (Nat.lt_of_succ_lt_succ h)

/-- The flow changed, and the graph's number of runs, read through modFlow. -/
theorem flowAt_modFlow {s : State} (hs : twf (fun _ => ({} : Graph)) s.graphs = true) {g f : Nat} (hf : f < (graphAt s g).flows.length)
    (k : FlowSt → FlowSt) : flowAt (graphAt (modFlow s g f k) g) f = k (flowAt (graphAt s g) f) ∧
    (graphAt (modFlow s g f k) g).runs = (graphAt s g).runs := by
  rw [modFlow, graphAt_setGraph_same hs]
  have hn := nth_modNth_same ({} : FlowSt) k hf
  exact ⟨hn, rfl⟩

/-! ## The graph commands (R80, R85, R100, R101) -/

section
variable {s : State} (hs : twf (fun _ => ({} : Graph)) s.graphs = true)
include hs

theorem runAct_effect {w : List Word} {f : Nat} (hf : commandFlow (graphAt s (argN w 0)) (argN w 1) = some f)
    (hl : f < (graphAt s (argN w 0)).flows.length) (h : Nat) :
    (graphAt (runAct w h s) (argN w 0)).runs = (graphAt s (argN w 0)).runs + 1 ∧
    (flowAt (graphAt (runAct w h s) (argN w 0)) f).highResv = some (BitVec.ofNat 32 (graphAt s (argN w 0)).runs) ∧
    (flowAt (graphAt (runAct w h s) (argN w 0)) f).resv = (flowAt (graphAt s (argN w 0)) f).resv ++
      [{ seq := BitVec.ofNat 32 (graphAt s (argN w 0)).runs, stamp := s.time, handle := h, table := arg64 w 2 }] ∧
    (∀ j, j ≠ argN w 0 → graphAt (runAct w h s) j = graphAt s j) ∧ (runAct w h s).regs = s.regs := by
  have e : runAct w h s = reserve (setGraph s (argN w 0) { graphAt s (argN w 0) with runs := (graphAt s (argN w 0)).runs + 1 }) (argN w 0) f
      { seq := BitVec.ofNat 32 (graphAt s (argN w 0)).runs, stamp := s.time, handle := h, table := arg64 w 2 } := by
    simp only [runAct, hf]
  have h1 := setGraph_wf hs (argN w 0) { graphAt s (argN w 0) with runs := (graphAt s (argN w 0)).runs + 1 }
  have hsame := graphAt_setGraph_same hs (argN w 0) { graphAt s (argN w 0) with runs := (graphAt s (argN w 0)).runs + 1 }
  obtain ⟨hflow, hruns⟩ := flowAt_modFlow h1 (g := argN w 0) (f := f) (by rwa [hsame]) (fun x =>
    { x with resv := x.resv ++ [{ seq := BitVec.ofNat 32 (graphAt s (argN w 0)).runs, stamp := s.time, handle := h, table := arg64 w 2 }]
             highResv := some (BitVec.ofNat 32 (graphAt s (argN w 0)).runs) })
  rw [hsame] at hflow hruns
  rw [e]
  refine ⟨hruns, congrArg FlowSt.highResv hflow, congrArg FlowSt.resv hflow, fun j hj => ?_, rfl⟩
  exact ((sameGraphs_modFlow _ (argN w 0) f _).other h1 j hj).trans (graphAt_setGraph_other hs hj _)

/-- What stopping leaves of the graph that stops, and of the others. -/
theorem stopGraphAct_effect (g h : Nat) (drain : Bool) :
    ((graphAt (stopGraphAct s g h drain) g).stat = .loaded ∨ (graphAt (stopGraphAct s g h drain) g).stat = (if drain then .drain else .cancel)) ∧
    (graphAt (stopGraphAct s g h drain) g).part = (graphAt s g).part ∧ (graphAt (stopGraphAct s g h drain) g).img = (graphAt s g).img ∧
    ∀ j, j ≠ g → graphAt (stopGraphAct s g h drain) j = graphAt s j := by
  unfold stopGraphAct
  extract_lets fs s1 x s2 s3
  have h1 : s1.graphs = s.graphs := forAll_keeps State.graphs (fun f _ t => logRest_keeps (logRest_logFlowStop t g f 2) State.graphs) s
  have hs1 : twf (fun _ => ({} : Graph)) s1.graphs = true := by rwa [h1]
  have hs2 : twf (fun _ => ({} : Graph)) s2.graphs = true := setGraph_wf hs1 _ _
  have h2 : graphAt s2 g = { graphAt s1 g with stat := if drain then .drain else .cancel, stopHandle := h } := graphAt_setGraph_same hs1 _ _
  have h3 : SameGraphs g s2 s3 := sameGraphs_forAll (fun f _ t => by
    cases drain
    · exact sameGraphs_discardFlow t g f _ _ _
    · exact sameGraphs_dropResv t g f _ _) s2
  have hs3 := h3.wf hs2
  have hfinal : (finalOfGraph g s3).graphs = s3.graphs := moverRest_keeps (moverRest_finalOfGraph s3 g) State.graphs
  have hstat : (graphAt (finalOfGraph g s3) g).stat = if drain then .drain else .cancel := by
    rw [graphAt_congr hfinal, h3.stat hs2, h2]
  have hpart : (graphAt (finalOfGraph g s3) g).part = (graphAt s g).part := by
    rw [graphAt_congr hfinal, h3.part hs2, h2, graphAt_congr h1]
  have himg : (graphAt (finalOfGraph g s3) g).img = (graphAt s g).img := by
    rw [graphAt_congr hfinal, h3.img hs2, h2, graphAt_congr h1]
  have hother : ∀ j, j ≠ g → graphAt (finalOfGraph g s3) j = graphAt s j := fun j hj => by
    rw [graphAt_congr hfinal, h3.other hs2 j hj, graphAt_setGraph_other hs1 hj, graphAt_congr h1]
  have hsf : twf (fun _ => ({} : Graph)) (finalOfGraph g s3).graphs = true := by rwa [hfinal]
  have hlive : (graphAt (finalOfGraph g s3) g).stat ≠ .flushed := by rw [hstat]; cases drain <;> decide
  generalize finalOfGraph g s3 = t at hstat hpart himg hother hsf hlive
  rcases graphs_finishGraph hlive with hg | hg
  · exact ⟨.inr (by rw [graphAt_congr hg, hstat]), by rw [graphAt_congr hg, hpart], by rw [graphAt_congr hg, himg],
      fun j hj => by rw [graphAt_congr hg, hother j hj]⟩
  · have hd := graphAt_setGraph_same hsf g
      { graphAt t g with stat := .loaded, binds := [], flows := [], handle := 0, stopHandle := 0, lastSeq := none }
    refine ⟨.inl ?_, ?_, ?_, fun j hj => ?_⟩
    · rw [graphAt_congr hg, hd]
    · rw [graphAt_congr hg, hd, hpart]
    · rw [graphAt_congr hg, hd, himg]
    · rw [graphAt_congr hg, graphAt_setGraph_other hsf hj, hother j hj]

end

/-- The record of a graph's start reaches the frame-drop log, and commits it holds are shown: no graph changes (R45, R200). -/
theorem graphs_toneBegin (s : State) : (toneBegin s).graphs = s.graphs := by
  unfold toneBegin
  rw [forAll_keeps State.graphs]
  intro u _ t
  exact (graphs_bump _ _ _).trans ((logRest_keeps (logRest_rexViol _ 1) State.graphs).trans (logRest_keeps (logRest_raiseIrq t .isp u 9 none) State.graphs))

theorem graphs_takeFlow (g p h : Nat) (im : Image) (x : FlowSt × Nat) (s : State) : (takeFlow g p h im x s).graphs = s.graphs := by
  unfold takeFlow
  extract_lets f s1 d
  have h1 : s1.graphs = s.graphs := by
    simp only [s1]
    split <;> rfl
  split
  · exact h1
  · exact h1

/-- The graph a start leaves, before its record (R100, R101). -/
theorem startAct_graphs (p : Nat) (w : List Word) (h : Nat) (s : State) : (startAct p w h s).graphs =
    (setGraph s (argN w 0) { graphAt s (argN w 0) with
      stat := .started, handle := h, stopHandle := 0
      seed := if bitOf (argN w 1) 0 then arg64 w 2 else (graphAt s (argN w 0)).img.seed
      startAt := s.time, binds := (bindAll s p (graphAt s (argN w 0)).img).getD [], flows := startFlows s (graphAt s (argN w 0)).img, runs := 0
      nodeDone := [], lastSeq := none }).graphs := by
  unfold startAct
  extract_lets g x binds seed fl s1 s2 s3
  have h1 : s1.graphs = s.graphs := forAll_keeps State.graphs (fun y _ t => graphs_takeFlow g p h x.img y t) s
  have h2 : s2.graphs = s.graphs := by
    simp only [s2]
    rw [forAll_keeps State.graphs (fun l _ t => show (setLadle t l _).graphs = t.graphs from rfl), h1]
  rw [graphs_toneBegin, graphs_dlogPut]
  simp only [s3, setGraph, h2]
  rfl

theorem startFlows_length (s : State) (im : Image) : (startFlows s im).length = im.flows.length := by simp [startFlows]

/-- Settles O25: each command changes the graph it names by one update of the table, beside which logs, ladles and tasks are written. -/
theorem graphCommandsChangeTheirGraph : Obligations.GraphCommandsChangeTheirGraph := by
  refine ⟨fun s p h w img j hs hr => ?_, fun dt s g hw hg => ?_, fun s h w => rfl, fun s p h w j hs => ?_, fun s g h j drain hs => ?_, fun s h f j w hs hf hl => ?_⟩
  · have e : loadAct p w h s = setGraph s (argN w 0) { stat := .loading, part := p, img := readImage img, loadHandle := h } := by simp only [loadAct, hr]
    rw [e]
    exact ⟨graphAt_setGraph_same hs _ _, fun hj => graphAt_setGraph_other hs hj _, rfl, rfl⟩
  · refine ⟨residentAct (arrive dt s) g, ?_, ?_⟩
    · exact (act_awake (f := live (fun t => residentAct t g)) hw.1).trans (by rw [live, if_pos (by simp [hw.2.1, hw.2.2])])
    · simp only [residentAct, if_pos hg]
  · have e := startAct_graphs p w h s
    have hy := (graphAt_congr e (argN w 0)).trans (graphAt_setGraph_same hs (argN w 0) _)
    refine ⟨congrArg Graph.stat hy, congrArg Graph.handle hy, congrArg Graph.startAt hy, congrArg Graph.runs hy, by rw [hy], by rw [hy],
      (congrArg (·.flows.length) hy).trans (startFlows_length _ _), fun hb => (congrArg Graph.seed hy).trans (if_pos hb),
      fun hb => (congrArg Graph.seed hy).trans (if_neg (by simp [hb])), fun hj => ?_⟩
    rw [graphAt_congr e, graphAt_setGraph_other hs hj]
  · obtain ⟨hstat, hpart, himg, hother⟩ := stopGraphAct_effect hs g h drain
    exact ⟨hstat, hpart, himg, hother j⟩
  · obtain ⟨hruns, hhigh, hresv, hother, hregs⟩ := runAct_effect hs hf hl h
    exact ⟨hruns, hhigh, hresv, hother j, hregs⟩

end Sys2Proof.Machine
end

section
/-! What the host does beside register pages: coalescing, resets, BAR2 and BAR4 (R34, R64, R65, R86, R88, R89, R595). -/

namespace Sys2Proof.Machine
open Sys2Proof

/-! ## Function-level reset -/

/-- A key that a table does not list reads its default. -/
theorem tget_of_not_mem {α : Type} (d : Nat → α) {m : Tbl α} {k : Nat} (h : ∀ e ∈ m, e.1 ≠ k) : tget d m k = d k := by
  induction m with
  | nil => rfl
  | cons e r ih =>
    obtain ⟨a, v⟩ := e
    have hne : k ≠ a := fun he => h (a, v) List.mem_cons_self he.symm
    rw [tget, if_neg hne]
    split
    · rfl
    · exact ih fun e he => h e (List.mem_cons_of_mem _ he)

/-- A reset window forgets its registers, and frees its slots while generations go on. -/
theorem flrAct_effect {s : State} {n : Nat} (hn : n < 4) (ha : s.boot.inReset = false) (hs : isStopped s = false) :
    ∃ v, flrAct s n = setCmdw v n { slots := (cmdwAt s n).slots.map (fun e => (e.1, { e.2 with busy := false, op := 0, ref := 0 })) } ∧
      ∀ a, cw n ≤ a → a < cw n + 0x1000 → reg v a = regRst a := by
  have hdead : (decide (3 < n) || s.boot.inReset || isStopped s) = false := by simp [ha, hs]; omega
  unfold flrAct
  rw [hdead]
  refine ⟨_, rfl, fun a h1 h2 => tget_of_not_mem regRst fun e he hk => ?_⟩
  have hout := (List.mem_filter.mp he).2
  simp only [hk, h1, h2, decide_true, Bool.and_self, Bool.not_true] at hout
  cases hout

/-! ## BAR2 -/

/-- BAR2 does not reach the device: a function it has not, reset, a stop, a device that does not run, or past the window's end (R62, R64, R595). -/
def bar2Dead (s : State) (n last : Nat) : Prop := 3 < n ∨ s.boot.inReset = true ∨ isStopped s = true ∨ bootState s ≠ 2 ∨ bar2Size s n < last

section
variable {s : State} {n a len : Nat}

theorem bar2Act_read_dead (h : bar2Dead s n (a + len)) : bar2Act s n a len none = { s with rdata := List.replicate len 255 } := by
  have hd : (decide (3 < n) || s.boot.inReset || isStopped s || bootState s != 2 || decide (bar2Size s n < a + len)) = true := by
    simpa [bar2Dead, or_assoc] using h
  simp only [bar2Act, hd]
  rfl

theorem bar2Act_write_dead {l : List Byte} (h : bar2Dead s n (a + l.length)) : bar2Act s n a len (some l) = s := by
  have hd : (decide (3 < n) || s.boot.inReset || isStopped s || bootState s != 2 || decide (bar2Size s n < a + l.length)) = true := by
    simpa [bar2Dead, or_assoc] using h
  simp only [bar2Act, hd]
  rfl

variable (hn : n < 4) (ha : s.boot.inReset = false) (hs : isStopped s = false) (hb : bootState s = 2)
include hn ha hs hb

theorem bar2_alive {last : Nat} (hl : last ≤ bar2Size s n) :
    (decide (3 < n) || s.boot.inReset || isStopped s || bootState s != 2 || decide (bar2Size s n < last)) = false := by
  simp [ha, hs, hb]
  omega

theorem bar2Act_read_piece {q c : Nat} (hl : a + len ≤ bar2Size s n) (hp : piecesOf (bar2Va s n a) len = [(q, c)]) :
    bar2Act s n a len none = { (bar2ReadPiece n q c s).2 with rdata := (bar2ReadPiece n q c s).1 } := by
  simp only [bar2Act, bar2_alive hn ha hs hb hl, hp]
  rfl

theorem bar2Act_write_piece {l : List Byte} {q : Nat} (hl : a + l.length ≤ bar2Size s n) (hp : piecesOf (bar2Va s n a) l.length = [(q, l.length)]) :
    bar2Act s n a len (some l) = bar2WritePiece n q l s := by
  simp only [bar2Act, bar2_alive hn ha hs hb hl, hp, List.foldl_cons, List.foldl_nil, List.take_length]
  rfl

end

/-! ## BAR4 -/

/-- Whole words need no read before they are written (R384). -/
theorem partWords_whole {lo n : Nat} (h1 : lo % 8 = 0) (h2 : n % 8 = 0) : partWords lo n = [] := by
  unfold partWords
  split
  · rfl
  · have hlen : 8 ≤ n := by omega
    have hend : (lo + n) % 8 = 0 := by omega
    simp only [h1, hlen, hend]
    rfl

/-- The state without reports and counters. -/
def countRest (s : State) : State := { irqRest s with hi := [] }

theorem countRest_keeps {α : Type} {s t : State} (h : countRest t = countRest s) (f : State → α) (hf : ∀ u, f (countRest u) = f u := by intro _; rfl) :
    f t = f s := by
  rw [← hf t, h, hf s]

theorem countRest_of_rest {s t : State} (h : irqRest t = irqRest s) : countRest t = countRest s := congrArg (fun u : State => { u with hi := [] }) h

@[simp] theorem countRest_bump64 (s : State) (a n : Nat) : countRest (bump64 s a n) = countRest s := by
  unfold bump64
  split <;> rfl

/-- Global counters count an event, and change nothing else (R577). -/
@[simp] theorem countRest_gcCount (s : State) (ev : Nat) (b : Blk) (n p k : Nat) : countRest (gcCount s ev b n p k) = countRest s := by
  unfold gcCount
  rw [forAll_keeps countRest]
  intro c _ t
  dsimp only
  split
  · exact countRest_bump64 _ _ _
  · rfl

@[simp] theorem countRest_unitWrote (p n : Nat) (s : State) : countRest (unitWrote p n s) = countRest s := by
  unfold unitWrote
  split
  · exact countRest_gcCount _ _ _ _ _ _
  · rfl

/-- Whole words stored in tile memory change it alone, beside counters. -/
theorem vtmStore_whole {s : State} {o : Nat} {l : List Byte} (h1 : o % 8 = 0) (h2 : l.length % 8 = 0) :
    (vtmStore 0 o [] l s).2.tile = memWrite s.tile o l ∧ (vtmStore 0 o [] l s).2.spad = s.spad ∧ (vtmStore 0 o [] l s).2.lane = s.lane ∧
    (vtmStore 0 o [] l s).2.hbm = s.hbm := by
  have hw := countRest_unitWrote 0 l.length { s with
    tile := memWrite s.tile o l
    tileUe := s.tileUe.filter (fun w => !((decide (ceilDiv o 8 ≤ w) && decide (w < (o + l.length) / 8)) || ([] : List Nat).contains w)) }
  have e : (vtmStore 0 o [] l s).2 = unitWrote 0 l.length { s with
      tile := memWrite s.tile o l
      tileUe := s.tileUe.filter (fun w => !((decide (ceilDiv o 8 ≤ w) && decide (w < (o + l.length) / 8)) || ([] : List Nat).contains w)) } := by
    simp only [vtmStore, partWords_whole h1 h2]
    rfl
  rw [e]
  exact ⟨countRest_keeps hw State.tile, countRest_keeps hw State.spad, countRest_keeps hw State.lane, countRest_keeps hw State.hbm⟩

/-- Tile memory lies from 0x2000_0000 on (R65, R398). -/
theorem bar4At_tile {s : State} {a : Nat} (h1 : 0x20000000 ≤ a) (h2 : a < 0x20000000 + 0x3000000) : bar4At s a = .tile (a - 0x20000000) := by
  rw [bar4At, if_neg (Nat.not_lt.mpr h1), if_pos h2]

section
variable {s : State} {a len : Nat} (ha : s.boot.inReset = false) (hs : isStopped s = false) (hb : bootState s ≠ 3)
include ha hs hb

theorem bar4Act_read_none (h : bar4At s a = .none_) : bar4Act s 0 a len none = { s with rdata := List.replicate len 0 } := by
  have hd : (s.boot.inReset || isStopped s) = false := by simp [ha, hs]
  have hb' : (0 != 0 || bootState s == 3) = false := by simp [hb]
  simp only [bar4Act, hd, hb', h]
  rfl

theorem bar4Act_write_none {l : List Byte} (h : bar4At s a = .none_) : bar4Act s 0 a len (some l) = s := by
  have hd : (s.boot.inReset || isStopped s || 0 != 0 || bootState s == 3) = false := by simp [ha, hs, hb]
  simp only [bar4Act, hd, h]
  rfl

theorem bar4Act_write_tile {l : List Byte} {o : Nat} (h : bar4At s a = .tile o) (hl : l.length ≤ vtmArea - o) :
    bar4Act s 0 a len (some l) = (vtmStore 0 o [] l s).2 := by
  have hd : (s.boot.inReset || isStopped s || 0 != 0 || bootState s == 3) = false := by simp [ha, hs, hb]
  have ht : l.take (vtmArea - o) = l := List.take_of_length_le hl
  unfold bar4Act
  simp only [hd, h, ht]
  rfl

end

/-- Settles O27: the log is signalled, a window forgets, a warm start begins, and the host's windows answer, store or refuse. -/
theorem hostEventsTakeEffect : Obligations.HostEventsTakeEffect := by
  refine ⟨fun dt s p hw hc => ?_, fun dt s n ha hs hn => ?_, fun dt s ha hp hst h2 hsh => ?_, fun dt s n a len => ⟨fun h => ?_, fun l h => ?_, ?_, ?_⟩,
    fun dt s a len ha hs hb => ⟨fun h => ⟨?_, fun l => ?_⟩, fun l h1 h2 h3 h4 => ?_⟩⟩
  · have e : live (fun x => coalExpire x p) (arrive dt s) = signalLog (arrive dt s) p := by
      rw [live, if_pos (by simp [hw.2.1, hw.2.2]), coalExpire, signalIf, if_pos (by simp [hc])]
    exact (act_awake (f := live (fun x => coalExpire x p)) hw.1).trans (by rw [e])
  · obtain ⟨v, e, hreg⟩ := flrAct_effect hn ha hs
    exact ⟨flrAct (arrive dt s) n, v, act_awake (f := fun t => flrAct t n) ha, e, fun a h1 h2 => by rw [e]; exact hreg a h1 h2⟩
  · have e : requestStart (arrive dt s) false = beginStart (arrive dt s) false := by
      rw [requestStart_of_free hp hst]
      simp [h2, hsh]
    obtain ⟨h1, -, h3, -, h5, h6, h7, -, -, -, h11⟩ := beginStart_effect (arrive_regs_wf dt s) false
    exact ⟨beginStart (arrive dt s) false, (act_awake (f := fun t => requestStart t false) ha).trans (by rw [e]), rfl, h1, h3, h5, (h11 rfl).1, h6, h7⟩
  · exact congrArg (fun t => Host.Outcome.next (closing s t)) (bar2Act_read_dead h)
  · exact congrArg (fun t => Host.Outcome.next (closing s t)) (bar2Act_write_dead h)
  · intro q c hn ha hs hb hl hp
    refine ⟨congrArg (fun t => Host.Outcome.next (closing s t)) (bar2Act_read_piece hn ha hs hb hl hp), fun hm => ?_, fun hm x u hr => ?_⟩
    · simp [bar2ReadPiece, hm]
    · simp only [bar2ReadPiece, hm, hr]
      rfl
  · intro l q c hn ha hs hb hl hp hc
    exact congrArg (fun t => Host.Outcome.next (closing s t)) (bar2Act_write_piece hn ha hs hb hl (hc ▸ hp))
  · exact congrArg (fun t => Host.Outcome.next (closing s t)) (bar4Act_read_none ha hs hb h)
  · exact congrArg (fun t => Host.Outcome.next (closing s t)) (bar4Act_write_none ha hs hb h)
  · obtain ⟨htile, hrest⟩ := vtmStore_whole (s := arrive dt s) (o := a - 0x20000000) (l := l) (by omega) h4
    refine ⟨bar4Act (arrive dt s) 0 a len (some l), rfl, ?_⟩
    have harea : vtmArea = 0x2B80000 := rfl
    rw [bar4Act_write_tile ha hs hb (bar4At_tile h1 (by omega)) (by omega)]
    exact ⟨htile, hrest⟩

end Sys2Proof.Machine
end

section
/-! Packets on a connection (R482 to R488), and what DMA_COPY, SET_OPP and QUERY leave (R80, R432, R552). -/

namespace Sys2Proof.Machine
open Sys2Proof

/-! ## The order of packets (R484) -/

theorem psnGap_add (a d : Nat) (ha : a < 2 ^ 24) (hd : d < 2 ^ 24) : psnGap ((a + d) % 2 ^ 24) a = d := by
  unfold psnGap
  omega

theorem rxOrdered_far (s : State) (i : Nat) (x : Rx) (h : 128 ≤ psnGap x.psn (connAt s i).rcv) : rxOrdered s i x = s := by
  simp only [rxOrdered, if_pos h]

theorem rxOrdered_wait (s : State) (i : Nat) (x : Rx) (h : psnGap x.psn (connAt s i).rcv = 0) (ha : applyPkt s i x = none) :
    rxOrdered s i x = s := by
  have hfar : ¬ 128 ≤ psnGap x.psn (connAt s i).rcv := by omega
  simp only [rxOrdered, if_neg hfar, if_pos h, ha]

theorem rxOrdered_next (s t : State) (i : Nat) (x : Rx) (h : psnGap x.psn (connAt s i).rcv = 0) (ha : applyPkt s i x = some t)
    (hack : bitOf x.flags 0 = true) :
    rxOrdered s i x = sendAck (applyHeld i 128 (setConn t i { connAt t i with rcv := ((connAt t i).rcv + 1) % 2 ^ 24 })) i := by
  have hfar : ¬ 128 ≤ psnGap x.psn (connAt s i).rcv := by omega
  simp only [rxOrdered, if_neg hfar, if_pos h, ha, if_pos hack]

theorem rxOrdered_ahead (s : State) (i : Nat) (x : Rx) (h0 : 0 < psnGap x.psn (connAt s i).rcv) (h : psnGap x.psn (connAt s i).rcv < 128)
    (hheld : (connAt s i).held.any (fun p => p.psn == x.psn) = false) :
    rxOrdered s i x = sendAck (setConn s i { connAt s i with held := (connAt s i).held ++ [heldOf x] }) i := by
  have hfar : ¬ 128 ≤ psnGap x.psn (connAt s i).rcv := by omega
  have hnext : ¬ psnGap x.psn (connAt s i).rcv = 0 := by omega
  simp only [rxOrdered, if_neg hfar, if_neg hnext, hheld, Bool.false_eq_true, if_false]

theorem applyHeld_none (s : State) (i n : Nat) (h : (connAt s i).held.find? (fun y => y.psn == (connAt s i).rcv) = none) :
    applyHeld i (n + 1) s = s := by
  simp only [applyHeld, h]

/-- Settles O50: the cases of `rxOrdered` by the distance of the packet's PSN from the next one. -/
theorem packetsApplyInOrder : Obligations.PacketsApplyInOrder := by
  intro s i x
  exact ⟨rxOrdered_far s i x, rxOrdered_wait s i x, fun t => rxOrdered_next s t i x, rxOrdered_ahead s i x,
    fun n h => applyHeld_none s i n h, psnGap_add⟩

/-! ## Packets that arrive (R480, R482 to R488, R511) -/

theorem rxPacket_none {s t : State} {link : Nat} {g : Dgram} (ty : Nat) (h : rxDgram s link g = (none, t)) : rxPacket ty link g s = t := by
  simp only [rxPacket, h]

theorem rxPacket_otherType {s t : State} {link : Nat} {g : Dgram} {x : Rx} {ty : Nat} (h : rxDgram s link g = (some x, t)) (hty : x.ty ≠ ty) :
    rxPacket ty link g s = t := by
  simp only [rxPacket, h, bne_iff_ne.2 hty, Bool.true_or, if_true]

theorem rxPacket_notOurs {s t : State} {link : Nat} {g : Dgram} {x : Rx} (ty : Nat) (h : rxDgram s link g = (some x, t))
    (hx : x.dst ≠ ownNode t ∨ rxPeer t x = none) : rxPacket ty link g s = t := by
  rcases hx with hx | hx
  · simp only [rxPacket, h, bne_iff_ne.2 hx, Bool.or_true, if_true]
  · simp only [rxPacket, h, hx, ite_self]

/-- The connection of a peer from which a packet comes: live, heard of now, its congestion mark kept for the echo (R486, R488). -/
def heardFrom (s : State) (i : Nat) (g : Dgram) : State :=
  setConn s i { connAt s i with state := 1, rxAt := s.time, echo := (connAt s i).echo || g.ce }

/-- What a packet from a live peer does, by its type. -/
def applied (t : State) (i : Nat) (x : Rx) : State :=
  if x.ty = 5 then takeAck (rxOrdered t i x) i x
  else if x.ty = 4 ∨ 0x0C ≤ x.ty then rxLoose (takeAck t i x) i x
  else rxOrdered (takeAck t i x) i x

theorem rxPacket_applied {s t : State} {link : Nat} {g : Dgram} {x : Rx} {i : Nat} (h : rxDgram s link g = (some x, t))
    (hd : x.dst = ownNode t) (hp : rxPeer t x = some i) : rxPacket x.ty link g s = applied (heardFrom t i g) i x := by
  simp only [rxPacket, h, bne_self_eq_false, hd, Bool.or_self, Bool.false_eq_true, if_false, hp]
  unfold applied
  by_cases h5 : x.ty = 5
  · simp [h5, heardFrom]
  · simp only [if_neg h5]
    rfl

theorem applied_nack {t : State} {i : Nat} {x : Rx} (h : x.ty = 5) : applied t i x = takeAck (rxOrdered t i x) i x := if_pos h

theorem applied_loose {t : State} {i : Nat} {x : Rx} (h5 : x.ty ≠ 5) (h : x.ty = 4 ∨ 12 ≤ x.ty) : applied t i x = rxLoose (takeAck t i x) i x := by
  rw [applied, if_neg h5, if_pos h]

theorem applied_ordered {t : State} {i : Nat} {x : Rx} (h5 : x.ty ≠ 5) (h : ¬ (x.ty = 4 ∨ 12 ≤ x.ty)) : applied t i x = rxOrdered (takeAck t i x) i x := by
  rw [applied, if_neg h5, if_neg h]

theorem rxDgram_linkOff {s : State} {link : Nat} (g : Dgram) (h : s.rolv.links.contains link = false ∨ rolvOn s = false) :
    rxDgram s link g = (none, s) := by
  have hoff : (!s.rolv.links.contains link || !rolvOn s) = true := by rcases h with h | h <;> rw [h] <;> simp
  simp only [rxDgram, hoff, if_true]

theorem rxDgram_badCrc {s : State} {link : Nat} {g : Dgram} (hl : s.rolv.links.contains link = true) (hr : rolvOn s = true)
    (hi : injArmed s .fabp (link / 4) 0 = false) (hb : g.bad = false) (hce : g.ce = false) (hc : crcOk g.pkt = false) :
    rxDgram s link g = (none, raiseErr (bump s (pg .fabp (link / 4) + 0x804) 1) .rolv 0 8 none) := by
  have hframe : frameIn s link = (true, bump s (pg .fabp (link / 4) + 0x804) 1) := by
    simp only [frameIn, hi, Bool.false_eq_true, if_false]
  simp only [rxDgram, hl, hr, hframe, hb, hce, hc, Bool.not_true, Bool.not_false, Bool.or_self, Bool.false_eq_true, if_false, if_true]

/-- Settles O49: each row is `rxPacket` of its type, which `rxPacket_none`, `rxPacket_otherType`, `rxPacket_notOurs` and `rxPacket_applied`
describe. -/
theorem packetsArriveAtTheirConnection : Obligations.PacketsArriveAtTheirConnection := by
  intro dt s link g
  dsimp only
  intro hw
  have hrun (ty : Nat) : actLive dt (rxPacket ty link g) s = .next (closing s (rxPacket ty link g (arrive dt s))) := actLive_works hw
  refine ⟨fun h => ?_, fun x h => ?_, fun x h ho => ?_, fun x i h hd hp => ?_, rxDgram_badCrc, rxDgram_linkOff g⟩
  · have hnone (ty : Nat) := (hrun ty).trans (by rw [rxPacket_none ty (Prod.ext h rfl)])
    exact ⟨hnone 1, hnone 2, hnone 3, hnone 6, hnone 7, hnone 8, hnone 9, hnone 10, hnone 11, hnone 4, hnone 12, hnone 13, hnone 15, hnone 5⟩
  · have hother (ty : Nat) (ht : x.ty ≠ ty) := (hrun ty).trans (by rw [rxPacket_otherType (Prod.ext h rfl) ht])
    exact ⟨hother 1, hother 2, hother 3, hother 6, hother 7, hother 8, hother 9, hother 10, hother 11, hother 4, hother 12, hother 13,
      hother 15, hother 5⟩
  · have hours (ty : Nat) := (hrun ty).trans (by rw [rxPacket_notOurs ty (Prod.ext h rfl) ho])
    exact ⟨hours 1, hours 2, hours 3, hours 6, hours 7, hours 8, hours 9, hours 10, hours 11, hours 4, hours 12, hours 13, hours 15, hours 5⟩
  · have happlied (ty : Nat) (ht : x.ty = ty) : actLive dt (rxPacket ty link g) s =
        .next (closing s (applied (heardFrom (rxDgram (arrive dt s) link g).2 i g) i x)) := by
      rw [hrun, ← ht, rxPacket_applied (Prod.ext h rfl) hd hp]
    have hordered (ty : Nat) (h5 : ty ≠ 5) (hl : ¬ (ty = 4 ∨ 12 ≤ ty)) (ht : x.ty = ty) :=
      (happlied ty ht).trans (by rw [applied_ordered (ht ▸ h5) (ht ▸ hl)])
    have hloose (ty : Nat) (h5 : ty ≠ 5) (hl : ty = 4 ∨ 12 ≤ ty) (ht : x.ty = ty) :=
      (happlied ty ht).trans (by rw [applied_loose (ht ▸ h5) (ht ▸ hl)])
    have hnack (ht : x.ty = 5) := (happlied 5 ht).trans (by rw [applied_nack ht])
    exact ⟨hordered 1 (by decide) (by decide), hordered 2 (by decide) (by decide), hordered 3 (by decide) (by decide),
      hordered 6 (by decide) (by decide), hordered 7 (by decide) (by decide), hordered 8 (by decide) (by decide),
      hordered 9 (by decide) (by decide), hordered 10 (by decide) (by decide), hordered 11 (by decide) (by decide),
      hloose 4 (by decide) (by decide), hloose 12 (by decide) (by decide), hloose 13 (by decide) (by decide), hloose 15 (by decide) (by decide),
      hnack⟩

/-! ## DMA_COPY, SET_OPP and QUERY (R80, R432, R552) -/

theorem movAt_setMov_same {s : State} (h : twf (fun _ => {}) s.movers = true) (k : Nat) (m : Mov) : movAt (setMov s k m) k = m :=
  tget_tset_same _ k m h

theorem movAt_setMov_other {s : State} (h : twf (fun _ => {}) s.movers = true) {k j : Nat} (hj : j ≠ k) (m : Mov) :
    movAt (setMov s k m) j = movAt s j :=
  tget_tset_other _ k j m hj h

theorem setMov_movers_wf {s : State} (h : twf (fun _ => {}) s.movers = true) (k : Nat) (m : Mov) :
    twf (fun _ => {}) (setMov s k m).movers = true :=
  twf_tset _ k m h

/-- Slots of the buffer change hands; no mover's commands change (R443). -/
theorem grantSlots_commands {s : State} (h : twf (fun _ => {}) s.movers = true) (k : Nat) :
    (movAt (grantSlots s) k).active = (movAt s k).active ∧ (movAt (grantSlots s) k).shadow = (movAt s k).shadow := by
  refine (forAll_induct (P := fun t => twf (fun _ => {}) t.movers = true ∧ (movAt t k).active = (movAt s k).active ∧
    (movAt t k).shadow = (movAt s k).shadow) ⟨h, rfl, rfl⟩ ?_).2
  rintro c - t ⟨hw, ht⟩
  refine ⟨setMov_movers_wf hw _ _, ?_⟩
  by_cases hk : k = 256 + c
  · subst hk
    rw [movAt_setMov_same hw]
    exact ht
  · rw [movAt_setMov_other hw hk]
    exact ht

/-- Of the fields that granting slots keeps: all but the movers. -/
theorem grantSlots_keeps {β : Type} (k : State → β) (h : ∀ t i m, k (setMov t i m) = k t) (s : State) : k (grantSlots s) = k s :=
  forAll_keeps k (fun _ _ _ => h _ _ _) s

/-- The mover that a command becomes active on, before slots are granted. -/
def withActive (s : State) (k : Nat) (c : MovCmd) : State :=
  openFlight k (setMov (closeFlight k s) k { startCmd (some c) with cut := (movAt s k).cut })

theorem nextCmd_some (s : State) (m : Mover) (c : MovCmd) : nextCmd s m (some c) = grantSlots (withActive s (movKey m) c) := rfl

theorem withActive_movers_wf {s : State} (h : twf (fun _ => {}) s.movers = true) (k : Nat) (c : MovCmd) :
    twf (fun _ => {}) (withActive s k c).movers = true :=
  twf_tset _ k _ h

theorem movAt_withActive {s : State} (h : twf (fun _ => {}) s.movers = true) (k : Nat) (c : MovCmd) :
    movAt (withActive s k c) k = { startCmd (some c) with cut := (movAt s k).cut } :=
  tget_tset_same _ k _ h

/-- The command that DMA_COPY arms. -/
def copyCmd (s : State) (p : Nat) (w : List Word) (h : Nat) : MovCmd :=
  { part := p, handle := h, copy := some (arg64 w 0, arg64 w 2, argN w 4), armedAt := s.time.toNat }

theorem copyAct_idle {s : State} {p : Nat} {w : List Word} {h : Nat} (hk : (movAt s (256 + argN w 5 % 32)).active = none) :
    copyAct p w h s = grantSlots (withActive s (256 + argN w 5 % 32) (copyCmd s p w h)) := by
  simp only [copyAct, armCmd, movKey, hk, Option.isNone_none, if_true, nextCmd_some, copyCmd]

theorem copyAct_busy {s : State} {p : Nat} {w : List Word} {h : Nat} (hk : (movAt s (256 + argN w 5 % 32)).active ≠ none) :
    copyAct p w h s = setMov s (256 + argN w 5 % 32) { movAt s (256 + argN w 5 % 32) with shadow := some (copyCmd s p w h) } := by
  have hsome : (movAt s (256 + argN w 5 % 32)).active.isNone = false := by simpa [Option.isSome_iff_ne_none] using hk
  simp only [copyAct, armCmd, movKey, hsome, Bool.false_eq_true, if_false, copyCmd]

/-- What arming keeps: all but movers and flights. -/
theorem copyAct_keeps {β : Type} (k : State → β) (hm : ∀ t i m, k (setMov t i m) = k t) (hf : ∀ (t : State) fl, k { t with flights := fl } = k t)
    (s : State) (p : Nat) (w : List Word) (h : Nat) : k (copyAct p w h s) = k s := by
  by_cases hk : (movAt s (256 + argN w 5 % 32)).active = none
  · rw [copyAct_idle hk, grantSlots_keeps k hm]
    exact (hf _ _).trans ((hm _ _ _).trans (hf _ _))
  · rw [copyAct_busy hk]
    exact hm _ _ _

theorem oppAct_open {s : State} (w : List Word) (h : Nat) (ho : s.pwr.openMode = true) :
    oppAct w h s = setPwr s { s.pwr with maxOpp := argN w 0 % 16, setOpp := some h, setTick := true } := if_pos ho

theorem oppAct_fixed {s : State} (w : List Word) (h : Nat) (ho : s.pwr.openMode = false) :
    oppAct w h s = requestOpp (setPwr s { s.pwr with fixed := argN w 0 % 16, setOpp := some h }) (argN w 0 % 16) :=
  if_neg (by rw [ho]; decide)

/-- The bytes a QUERY answers (R80). -/
def queryBytes (s : State) (p : Nat) (w : List Word) : List Byte := ((queryWords s p (argN w 0)).flatMap (natLe 4)).take (argN w 3)

theorem queryBytes_opp {s : State} (p : Nat) {w : List Word} (h3 : argN w 0 = 3) (h8 : 8 ≤ argN w 3) :
    queryBytes s p w = natLe 4 (regN s (pg .pwr 0 + 0x100)) ++ natLe 4 (oppStat s) := by
  have hwords : (queryWords s p (argN w 0)).flatMap (natLe 4) = natLe 4 (regN s (pg .pwr 0 + 0x100)) ++ natLe 4 (oppStat s) := by
    rw [h3]
    exact congrArg (natLe 4 (regN s (pg .pwr 0 + 0x100)) ++ ·) (List.append_nil _)
  rw [queryBytes, hwords, List.take_of_length_le]
  simpa [natLe] using h8

/-- Settles O26: `copyAct` arms by `armCmd`, `oppAct` and `queryAct` are their own descriptions. -/
theorem copiesPointsAndQueriesTakeEffect : Obligations.CopiesPointsAndQueriesTakeEffect := by
  refine ⟨fun s p h w hm => ?_, fun s h w => ⟨fun ho => ?_, fun ho => ?_⟩, fun s p h w => ?_⟩
  · refine ⟨fun hk => ?_, fun hk => ?_, copyAct_keeps State.hbm (fun _ _ _ => rfl) (fun _ _ => rfl) s p w h,
      copyAct_keeps State.host (fun _ _ _ => rfl) (fun _ _ => rfl) s p w h, copyAct_keeps State.graphs (fun _ _ _ => rfl) (fun _ _ => rfl) s p w h⟩
    · obtain ⟨hact, hsh⟩ := grantSlots_commands (withActive_movers_wf hm (256 + argN w 5 % 32) (copyCmd s p w h)) (256 + argN w 5 % 32)
      rw [movAt_withActive hm] at hact hsh
      simp only [movKey, copyAct_idle hk]
      exact ⟨hact, hsh⟩
    · simp only [movKey, copyAct_busy hk, movAt_setMov_same hm, copyCmd, and_self]
  · rw [oppAct_open w h ho]
    exact ⟨rfl, rfl, rfl, rfl⟩
  · exact ⟨setPwr s { s.pwr with fixed := argN w 0 % 16, setOpp := some h }, oppAct_fixed w h ho, rfl, rfl, rfl⟩
  · exact ⟨queryBytes s p w, List.length_take_le _ _, rfl, fun h3 h8 => queryBytes_opp p h3 h8⟩

end Sys2Proof.Machine
end

section
/-! The steps of an operating-point transition and the droop detectors (R553 to R559). -/

namespace Sys2Proof.Machine
open Sys2Proof

/-! ## VOUT_COMMAND, settling and locks (R553, R561) -/

theorem voutAckAct_ok {s : State} (h : s.pwr.step = 2) : voutAckAct s true = setPwr s { s.pwr with step := 3, stepAt := s.time } := by
  simp only [voutAckAct, h, bne_self_eq_false, Bool.false_eq_true, if_false, if_true]

theorem voutAckAct_refused {s : State} (h : s.pwr.step = 2) :
    voutAckAct s false = pwrAdvance (setPwr (pmbusError s) { s.pwr with step := 1, stepAt := s.time }) := by
  simp only [voutAckAct, h, bne_self_eq_false, Bool.false_eq_true, if_false]

theorem settled {s : State} {n : Nat} (h : s.pwr.step = 3) (hn : n ≤ since s s.pwr.stepAt) :
    (s.pwr.step != 3 || decide (since s s.pwr.stepAt < n)) = false := by
  simp [h, hn]

theorem settleAct_rising {s : State} {n : Nat} (h : s.pwr.step = 3) (hs : settleNs s = some n) (hn : n ≤ since s s.pwr.stepAt)
    (hr : s.pwr.cur < s.pwr.target) : settleAct s = pwrAdvance (setPwr s { s.pwr with step := 4, stepAt := s.time }) := by
  simp only [settleAct, hs, settled h hn, Bool.false_eq_true, if_false, if_pos hr]

theorem settleAct_falling {s : State} {n : Nat} (h : s.pwr.step = 3) (hs : settleNs s = some n) (hn : n ≤ since s s.pwr.stepAt)
    (hf : s.pwr.target ≤ s.pwr.cur) : settleAct s = transitionDone s := by
  simp only [settleAct, hs, settled h hn, Bool.false_eq_true, if_false, if_neg (Nat.not_lt.2 hf)]

theorem lockDoneAct_done {s : State} (ok : Bool) (h : s.pwr.step = 5) (hn : 20000 ≤ since s s.pwr.stepAt) :
    lockDoneAct s ok = pwrAdvance (setPwr s { s.pwr with step := if ok then 6 else 4, stepAt := s.time }) := by
  have hdue : (s.pwr.step != 5 || decide (since s s.pwr.stepAt < 20000)) = false := by simp [h, hn]
  simp only [lockDoneAct, hdue, Bool.false_eq_true, if_false]

/-! ## The switch (R553, R559) -/

/-- The state in which every core's clock has moved. -/
def switched (s : State) : State :=
  bump (setPwr s { s.pwr with cur := s.pwr.target, switchAt := some s.time, deferred := false }) (pw 0x810) 1

theorem switched_keeps {β : Type} (k : State → β) (hr : ∀ (t : State) r, k { t with regs := r } = k t) (s : State) :
    k (switched s) = k (setPwr s { s.pwr with cur := s.pwr.target, switchAt := some s.time, deferred := false }) := by
  unfold switched bump
  split
  · rfl
  · exact hr _ _

theorem switched_effect (s : State) :
    (switched s).pwr.cur = s.pwr.target ∧ (switched s).pwr.switchAt = some s.time ∧ (switched s).hbm = s.hbm := by
  have hpwr := switched_keeps State.pwr (fun _ _ => rfl) s
  rw [hpwr]
  exact ⟨rfl, rfl, switched_keeps State.hbm (fun _ _ => rfl) s⟩

theorem switchAct_free {s : State} (h : s.pwr.step = 6) (hf : switchFree s = true) (he : s.pwr.emerg = false) :
    switchAct s = if s.pwr.cur < s.pwr.target then transitionDone (switched s)
      else pwrAdvance (setPwr (switched s) { (switched s).pwr with step := 1, stepAt := (switched s).time }) := by
  have hgo : (s.pwr.step != 6 || !switchFree s || s.pwr.emerg) = false := by rw [h, hf, he]; rfl
  have htime : (switched s).time = s.time := switched_keeps State.time (fun _ _ => rfl) s
  by_cases hr : s.pwr.cur < s.pwr.target
  · simp only [switchAct, hgo, Bool.false_eq_true, if_false, hr, decide_true, if_true, switched]
  · rw [if_neg hr, htime, switched]
    simp only [switchAct, hgo, Bool.false_eq_true, if_false, hr, decide_false]

theorem switchAct_held {s : State} (h : switchFree s = false ∨ s.pwr.emerg = true) : switchAct s = s := by
  refine if_pos ?_
  rcases h with h | h <;> simp [h]

/-! ## Droop detectors (R555 to R559, R633) -/

theorem droopOutcome_kept {dt : Nat} {mv : List Nat} {s : State} (h : ∀ x ∈ mv, x ≤ 60) :
    droopOutcome dt mv s = act dt (fun t => droopTripAct t mv) s := by
  refine if_neg ?_
  simpa using h

theorem droopOutcome_fault {dt : Nat} {mv : List Nat} {s : State} (h : ∃ x ∈ mv, 60 < x) : droopOutcome dt mv s = .fault .coreUndervoltage := by
  refine if_pos ?_
  simpa using h

theorem noteSkip_keeps {β : Type} (k : Pwr → β) (h : ∀ (w : Pwr) b, k { w with skipped := b } = k w) (s : State) :
    k (noteSkip s).pwr = k s.pwr := by
  unfold noteSkip
  split
  · rfl
  · exact h _ _

/-- PWR with the detectors of `l` tripped. -/
def withTripped (s : State) (l : List Nat) : Pwr :=
  { s.pwr with
    tripped := l
    tripAt := if l.all s.pwr.tripped.contains then s.pwr.tripAt else some s.time
    injTrip := if l.contains 0 then none else s.pwr.injTrip
    droop := if s.pwr.tripped.isEmpty then max (droopCfg s 8 5) s.pwr.droop else s.pwr.droop
    droopAt := if s.pwr.tripped.isEmpty then s.time else s.pwr.droopAt }

theorem tripDetectors_resting {s : State} {l : List Nat} (hl : l ≠ []) (h : s.pwr.step = 0) :
    tripDetectors s l = noteSkip (setPwr (bump s (pw 0x800) (l.filter (fun k => !s.pwr.tripped.contains k)).length) (withTripped s l)) := by
  have hne : ¬ l.isEmpty = true := by simpa using hl
  have h5 : ¬ s.pwr.step = 5 := by omega
  have hmoving : ¬ (s.pwr.step = 1 ∨ s.pwr.step = 4 ∨ s.pwr.step = 6) := by omega
  simp only [tripDetectors, if_neg hne, if_neg h5, if_neg hmoving, withTripped]

theorem tripDetectors_droop {s : State} {l : List Nat} (hl : l ≠ []) (h : s.pwr.step = 0) :
    (tripDetectors s l).pwr.tripped = l ∧
    (s.pwr.tripped = [] → (tripDetectors s l).pwr.droop = max (droopCfg s 8 5) s.pwr.droop ∧ (tripDetectors s l).pwr.droopAt = s.time) ∧
    (s.pwr.tripped ≠ [] → (tripDetectors s l).pwr.droop = s.pwr.droop) := by
  rw [tripDetectors_resting hl h]
  refine ⟨noteSkip_keeps Pwr.tripped (fun _ _ => rfl) _, fun he => ⟨?_, ?_⟩, fun he => ?_⟩
  · exact (noteSkip_keeps Pwr.droop (fun _ _ => rfl) _).trans (if_pos (by rw [he]; rfl))
  · exact (noteSkip_keeps Pwr.droopAt (fun _ _ => rfl) _).trans (if_pos (by rw [he]; rfl))
  · exact (noteSkip_keeps Pwr.droop (fun _ _ => rfl) _).trans (if_neg (by simpa using he))

theorem droopStepAct_rise {s : State} (h : s.pwr.tripped ≠ []) (hn : 50 ≤ since s s.pwr.droopAt) : droopStepAct s =
    noteSkip (setPwr s { s.pwr with droop := max s.pwr.droop (min (droopCfg s 16 5) (s.pwr.droop + 4)), droopAt := s.pwr.droopAt + 50 }) := by
  have hne : (!s.pwr.tripped.isEmpty) = true := by simpa using h
  simp only [droopStepAct, hne, hn, decide_true, if_true]

theorem droopStepAct_fall {s : State} (h : s.pwr.tripped = []) (hd : s.pwr.droop ≠ 0) (hn : 1000 ≤ since s s.pwr.droopAt) :
    droopStepAct s = setPwr s { s.pwr with droop := s.pwr.droop - 1, droopAt := s.pwr.droopAt + 1000 } := by
  have hdue : (s.pwr.droop != 0 && decide (1000 ≤ since s s.pwr.droopAt)) = true := by simp [hd, hn]
  simp only [droopStepAct, h, List.isEmpty_nil, Bool.not_true, Bool.false_eq_true, if_false, hdue, if_true]

theorem railQuietAct_tripped {s : State} (h : s.pwr.tripped ≠ []) :
    railQuietAct s = setPwr s { s.pwr with tripped := [], quietAt := some s.time, droopAt := s.time } :=
  if_neg (by simpa using h)

/-- Settles O47: each command is the case of its act that the step of the transition, or the trips, select. -/
theorem powerTransitionsTakeEffect : Obligations.PowerTransitionsTakeEffect := by
  intro dt s mv
  dsimp only
  intro hb
  have hvout (ok : Bool) : exec (.voutCommandAck dt ok) s = .next (closing s (voutAckAct (arrive dt s) ok)) := act_awake (f := fun t => voutAckAct t ok) hb
  have hsettle : exec (.vsettleExpiry dt) s = .next (closing s (settleAct (arrive dt s))) := act_awake (f := settleAct) hb
  have hlock (ok : Bool) : exec (.pllLockDone dt ok) s = .next (closing s (lockDoneAct (arrive dt s) ok)) := act_awake (f := fun t => lockDoneAct t ok) hb
  have hswitch : exec (.pllSwitch dt) s = .next (closing s (switchAct (arrive dt s))) := act_awake (f := switchAct) hb
  have hstep : exec (.droopLevelStep dt) s = .next (closing s (droopStepAct (arrive dt s))) := act_awake (f := droopStepAct) hb
  have hquiet : exec (.railQuiet dt) s = .next (closing s (railQuietAct (arrive dt s))) := act_awake (f := railQuietAct) hb
  refine ⟨fun h => ⟨?_, ?_⟩, fun n h hn hd => ⟨fun hr => ?_, fun hf => ?_⟩, fun h hn => ⟨?_, ?_⟩, fun h hf he => ?_, fun _ hheld => ?_,
    fun hmv => ?_, fun hmv => droopOutcome_fault hmv, fun l hl h0 => tripDetectors_droop hl h0, fun ht hn => ?_, fun ht hd hn => ?_, fun ht => ?_⟩
  · rw [hvout, voutAckAct_ok h]
  · rw [hvout, voutAckAct_refused h]
  · rw [hsettle, settleAct_rising h hn hd hr]
  · rw [hsettle, settleAct_falling h hn hd hf]
  · rw [hlock, lockDoneAct_done true h hn, if_pos rfl]
  · rw [hlock, lockDoneAct_done false h hn, if_neg Bool.false_ne_true]
  · obtain ⟨hcur, hat, hhbm⟩ := switched_effect (arrive dt s)
    exact ⟨switched (arrive dt s), switchAct (arrive dt s), hswitch, hcur, hat, hhbm, switchAct_free h hf he⟩
  · rw [hswitch, switchAct_held hheld]
  · exact (droopOutcome_kept hmv).trans (act_awake (f := fun t => droopTripAct t mv) hb)
  · rw [hstep, droopStepAct_rise ht hn]
  · rw [hstep, droopStepAct_fall ht hd hn]
  · rw [hquiet, railQuietAct_tripped ht]

end Sys2Proof.Machine
end

section
/-! Invalidations, memory errors, the scrubber and mesh packets (R465, R469, R470, R476). -/

namespace Sys2Proof.Machine
open Sys2Proof

/-! ## Faults leave the other blocks' registers -/

/-- Registers of pages of different block types are different (R70). -/
theorem pg_add_ne_of_blk {b c : Blk} {n m o q : Nat} (hn : n < blkCount b) (hm : m < blkCount c) (ho : o < (blkPlace b).2.2.1)
    (hq : q < (blkPlace c).2.2.1) (h : b ≠ c) : pg b n + o ≠ pg c m + q := by
  intro e
  have hl := locate_pg hn ho
  rw [e, locate_pg hm hq] at hl
  simp only [Option.some.injEq, Loc.mk.injEq] at hl
  exact h hl.1.symm

theorem faultAwaits_regs (s : State) (r : FaultRec) : (faultAwaits s r).regs = s.regs := by
  unfold faultAwaits
  split <;> rfl

section
variable {s : State} (hs : twf regRst s.regs = true)
include hs

theorem faultKept_wf (r : FaultRec) : twf regRst (faultKept s r).regs = true := by
  unfold faultKept
  split
  · exact hs
  · exact raiseErr_regs_wf (bump_wf hs _ _) _ _ _ _

theorem latchFirst_wf (cause cls : Nat) : twf regRst (latchFirst s cause cls).regs = true := by
  unfold latchFirst
  split
  · exact hs
  · split
    · exact hs
    · exact orReg_wf hs _ _

theorem faultAwaits_wf (r : FaultRec) : twf regRst (faultAwaits s r).regs = true := by
  rw [faultAwaits_regs]
  exact hs

theorem pushFault_wf (r : FaultRec) : twf regRst (pushFault s r).regs = true := by
  rw [pushFault_eq]
  exact raiseIrq_regs_wf (faultAwaits_wf (latchFirst_wf (faultKept_wf hs r) _ _) r) _ _ _ _

theorem fault_wf (cause : Nat) (b : Blk) (n : Nat) : twf regRst (fault s cause b n).regs = true := pushFault_wf hs _

/-- A fault writes registers of SAFE only. -/
theorem reg_pushFault_other {b : Blk} {n o : Nat} (hb : b ≠ .safe) (hn : n < blkCount b) (ho : o < (blkPlace b).2.2.1) (r : FaultRec) :
    reg (pushFault s r) (pg b n + o) = reg s (pg b n + o) := by
  have hne {q : Nat} (hq : q < 0x1000) : pg b n + o ≠ safePg + q := pg_add_ne_of_blk hn (by decide) ho (headerOffset_lt_window .safe hq) hb
  have hoff : OffPba (pg b n + o) := offPba_page hn ho
  have hkept : reg (faultKept s r) (pg b n + o) = reg s (pg b n + o) := by
    unfold faultKept
    split
    · rfl
    · rw [reg_raiseErr (bump_wf hs _ _) hoff (hne (by decide)) (hne (by decide)), reg_bump_other hs (hne (by decide))]
  have hlatch : reg (latchFirst (faultKept s r) r.cause r.cls) (pg b n + o) = reg (faultKept s r) (pg b n + o) := by
    unfold latchFirst
    split
    · rfl
    · split
      · rfl
      · exact reg_setReg_other (faultKept_wf hs r) (hne (by decide)) _
  rw [pushFault_eq, reg_raiseIrq (faultAwaits_wf (latchFirst_wf (faultKept_wf hs r) _ _) r) hoff (hne (by decide)), reg,
    faultAwaits_regs]
  exact hlatch.trans hkept

theorem regN_fault_other {b : Blk} {n o : Nat} (hb : b ≠ .safe) (hn : n < blkCount b) (ho : o < (blkPlace b).2.2.1) (cause : Nat) (c : Blk)
    (m : Nat) : regN (fault s cause c m) (pg b n + o) = regN s (pg b n + o) :=
  congrArg BitVec.toNat (reg_pushFault_other hs hb hn ho _)

end

/-! ## Invalidations (R465) -/

theorem xlatInvAct_effect {s : State} (hs : twf regRst s.regs = true) (v : Nat) :
    v % 4 ∈ (xlatInvAct s v).invs ∧ bitOf (regN (xlatInvAct s v) (nocPg + 0x14C)) 0 = false ∧
    (∀ q ∈ (xlatInvAct s v).invs, q = v % 4 ∨ q ∈ s.invs) ∧ (xlatInvAct s v).hbm = s.hbm := by
  refine ⟨?_, bitOf_clrReg hs _, ?_, rfl⟩
  · show v % 4 ∈ if s.invs.contains (v % 4) then s.invs else s.invs ++ [v % 4]
    split
    next h => exact List.contains_iff_mem.1 h
    next => exact List.mem_append_right _ (List.mem_singleton.2 rfl)
  · show ∀ q ∈ (if s.invs.contains (v % 4) then s.invs else s.invs ++ [v % 4]), q = v % 4 ∨ q ∈ s.invs
    intro q hq
    split at hq
    · exact .inr hq
    · simpa [or_comm] using hq

theorem toNat_and_seven (v : Word) : (v &&& BitVec.ofNat 32 0x7).toNat % 4 = v.toNat % 4 := by
  rw [BitVec.toNat_and]
  have h : v.toNat &&& 7 = v.toNat % 8 := Nat.and_two_pow_sub_one_eq_mod v.toNat 3
  show (v.toNat &&& 7) % 4 = _
  omega

theorem regWrite_xlatInv {s : State} {who : Who} (h : writes s who (nocPg + 0x148)) (v : Word) :
    regWrite s who (nocPg + 0x148) v = xlatInvAct s (v &&& BitVec.ofNat 32 0x7).toNat :=
  regWrite_eq_regEffect h (by decide) (by decide) (show rowSpec .noc 0x148 = some (.wo, 0x7, 0) from rfl) (.inr rfl) v

/-- The state after an invalidation, before the rings that faulted are tried again. -/
def invEnded (s : State) (p : Nat) : State :=
  let s1 := { s with invs := s.invs.filter (fun q => q != p) }
  if (s.invs.filter (fun q => q != p)).isEmpty then orReg s1 (nocPg + 0x14C) 1 else s1

theorem invEnded_keeps {β : Type} (k : State → β) (hr : ∀ (t : State) r, k { t with regs := r } = k t) (s : State) (p : Nat) :
    k (invEnded s p) = k { s with invs := s.invs.filter (fun q => q != p) } := by
  unfold invEnded
  dsimp only
  split
  · exact hr _ _
  · rfl

theorem invDone_quiet {s : State} {p : Nat} (h : s.invs.contains p = true) (hd : (dlogAt s p).fault = false) (hf : (cmdwAt s p).fault = false)
    (hw : (cmdwAt s p).wbFault = false) (hv : s.safe.vfault = false) : invDone s p = invEnded s p := by
  have hd' : (dlogAt (invEnded s p) p).fault = false := (invEnded_keeps (fun t => (dlogAt t p).fault) (fun _ _ => rfl) s p).trans hd
  have hf' : (cmdwAt (invEnded s p) p).fault = false := (invEnded_keeps (fun t => (cmdwAt t p).fault) (fun _ _ => rfl) s p).trans hf
  have hw' : (cmdwAt (invEnded s p) p).wbFault = false := (invEnded_keeps (fun t => (cmdwAt t p).wbFault) (fun _ _ => rfl) s p).trans hw
  have hv' : (invEnded s p).safe.vfault = false := (invEnded_keeps (fun t => t.safe.vfault) (fun _ _ => rfl) s p).trans hv
  unfold invEnded at hd' hf' hw' hv' ⊢
  simp only [invDone, h, Bool.not_true, Bool.false_eq_true, if_false, hd', hf', hw', hv', Bool.or_self, and_false]

theorem bitOf_invEnded {s : State} (hs : twf regRst s.regs = true) {p : Nat} (h : (invEnded s p).invs = []) :
    bitOf (regN (invEnded s p) (nocPg + 0x14C)) 0 = true := by
  rw [invEnded_keeps State.invs (fun _ _ => rfl)] at h
  have hempty : (s.invs.filter (fun q => q != p)).isEmpty = true := List.isEmpty_iff.2 h
  simp only [invEnded, if_pos hempty]
  exact bitOf_orReg_same (s := { s with invs := s.invs.filter (fun q => q != p) }) hs (nocPg + 0x14C) (i := 0) (by decide)

/-! ## Error records and the scrubber (R469, R470) -/

theorem regWrite_errPop {s : State} {who : Who} {n : Nat} (hn : n < 4) (h : writes s who (hbmPg n + 0x184)) :
    regWrite s who (hbmPg n + 0x184) 1 = errPopAct s n :=
  regWrite_eq_regEffect h hn (by decide) (show rowSpec .hbm 0x184 = some (.wo, 0x1, 0) from rfl) (.inr rfl) 1

theorem contains_sins (l : List Nat) (k : Nat) : (sins l k).contains k = true := by
  induction l with
  | nil => simp [sins]
  | cons a r ih =>
    unfold sins
    split
    · simp
    · split
      next h => simp [h]
      next => simpa using .inr (List.contains_iff_mem.1 ih)

section
variable {s : State} {n w : Nat} (hon : bitOf (app s (hbmPg n + 0x100)) 0 = true) (hp : present s .hbm n = true)
  (hplace : (hbmPlace s (8 * w)).1 = n) (hcap : 8 * w < hbmCap s)
include hon hp hplace hcap

theorem scrub_reached : (!bitOf (app s (hbmPg n + 0x100)) 0 || !present s .hbm n || (hbmPlace s (8 * w)).1 != n || decide (hbmCap s ≤ 8 * w)) = false := by
  simp [hon, hp, hplace, hcap]

theorem scrubAct_clean (h : s.hbmUe.contains w = false) : scrubAct s n w 0 = s := by
  simp only [scrubAct, scrub_reached hon hp hplace hcap, h, Bool.false_eq_true, if_false]
  rfl

theorem scrubAct_correctable : scrubAct s n w 1 = hbmEvent { s with actor := (blkCode .hbm, n, 0) } 6 (8 * w) 0xFF := by
  simp only [scrubAct, scrub_reached hon hp hplace hcap, Bool.false_eq_true, if_false, if_true]

theorem scrubAct_stackCorrected : scrubAct s n w 3 = hbmEvent { s with actor := (blkCode .hbm, n, 0) } 3 (8 * w) 0xFF := by
  simp only [scrubAct, scrub_reached hon hp hplace hcap, Bool.false_eq_true, if_false, if_true]
  rfl

theorem scrubAct_stackUncorrected :
    scrubAct s n w 4 = hbmEvent { s with actor := (blkCode .hbm, n, 0), hbmUe := sins s.hbmUe w } 4 (8 * w) 0xFF := by
  simp only [scrubAct, scrub_reached hon hp hplace hcap, Bool.false_eq_true, if_false, if_true]
  rfl

theorem scrubAct_uncorrectable :
    scrubAct s n w 2 = hbmEvent { s with actor := (blkCode .hbm, n, 0), hbmUe := sins s.hbmUe w } 7 (8 * w) 0xFF := by
  simp only [scrubAct, scrub_reached hon hp hplace hcap, Bool.false_eq_true, if_false]
  rfl

end

/-! ## Mesh packets (R476) -/

theorem nocCrcAct_retried {s : State} {f : Nat} (h0 : 0 < f) (h : f ≤ 2) :
    nocCrcAct s f = raiseErr (bump s (nocPg + 0x800) f) .noc 0 8 none := by
  have hne : ¬ f = 0 := by omega
  simp only [nocCrcAct, if_neg hne, if_pos h, Nat.min_eq_left h]

/-- The mesh after a packet that failed three times, two retries behind it. -/
def nocRetried (s : State) (f : Nat) : State := { raiseErr (bump s (nocPg + 0x800) (min f 2)) .noc 0 8 none with nocBad := true }

/-- The mesh after a packet that failed three times, before its fault. -/
def nocLost (s : State) (f : Nat) : State := raiseErr (bump (nocRetried s f) (nocPg + 0x804) 1) .noc 0 9 none

theorem nocCrcAct_lost {s : State} {f : Nat} (h : 2 < f) : nocCrcAct s f = fault (nocLost s f) 0x50 .noc 0 := by
  have hne : ¬ f = 0 := by omega
  have hgt : ¬ f ≤ 2 := by omega
  simp only [nocCrcAct, if_neg hne, if_neg hgt, nocLost, nocRetried]

theorem nocLost_bad (s : State) (f : Nat) : (nocLost s f).nocBad = true :=
  rest_keeps ((irqRest_raiseErr _ .noc 0 9 none).trans (irqRest_bump _ _ _)) State.nocBad

theorem nocRetried_wf {s : State} (hs : twf regRst s.regs = true) (f : Nat) : twf regRst (nocRetried s f).regs = true :=
  raiseErr_regs_wf (bump_wf hs _ _) _ _ _ _

theorem bitOf_nocLost {s : State} (hs : twf regRst s.regs = true) (f : Nat) :
    twf regRst (nocLost s f).regs = true ∧ bitOf (regN (nocLost s f) (nocPg + 0x18)) 9 = true :=
  have h := bump_wf (nocRetried_wf hs f) (nocPg + 0x804) 1
  ⟨raiseErr_regs_wf h _ _ _ _, bitOf_raiseErr h (by decide) (by decide) none⟩

theorem nocCrcAct_lost_effect {s : State} (hs : twf regRst s.regs = true) {f : Nat} (h : 2 < f) :
    (nocCrcAct s f).nocBad = true ∧ bitOf (regN (nocCrcAct s f) (nocPg + 0x18)) 9 = true := by
  obtain ⟨hwf, hbit⟩ := bitOf_nocLost hs f
  rw [nocCrcAct_lost h]
  refine ⟨(safeRest_keeps (safeRest_fault _ _ _ _) State.nocBad).trans (nocLost_bad s f), ?_⟩
  rw [nocPg, regN_fault_other hwf (by decide) (by decide) (by decide)]
  exact hbit

/-- Settles O44: each command is the case of its act that the statement's premises select. -/
theorem memoryEventsTakeEffect : Obligations.MemoryEventsTakeEffect := by
  intro dt s who v n p
  dsimp only
  have hregs := arrive_regs_wf dt s
  refine ⟨fun h => ?_, fun hw hp hd hf hb hv => ?_, fun hn h => ?_, fun w hw hon hp hplace hcap => ?_, fun f hw h0 => ⟨fun h2 => ?_, fun h2 => ?_⟩⟩
  · obtain ⟨hmem, hbit, honly, hhbm⟩ := xlatInvAct_effect hregs (v &&& BitVec.ofNat 32 0x7).toNat
    rw [toNat_and_seven] at hmem honly
    exact ⟨_, (exec_of_writes rfl h).trans (by rw [regWrite_xlatInv h]), hmem, hbit, honly, hhbm⟩
  · refine ⟨invEnded (arrive dt s) p, ?_, invEnded_keeps State.invs (fun _ _ => rfl) _ _, bitOf_invEnded hregs,
      invEnded_keeps State.hbm (fun _ _ => rfl) _ _⟩
    rw [← invDone_quiet hp hd hf hb hv]
    exact actLive_works (f := fun t => invDone t p) hw
  · refine ⟨errPopAct (arrive dt s) n, (exec_of_writes rfl h).trans (by rw [regWrite_errPop hn h]), ?_, rfl, rfl⟩
    exact tget_tset_same _ n _ (tblOf_wf _ _)
  · have hexec (k : Nat) : exec (.scrub dt n w k) s = .next (closing s (scrubAct (arrive dt s) n w k)) :=
      actLive_works (f := fun t => scrubAct t n w k) hw
    refine ⟨fun hue => ?_, ?_, ?_, ?_, ?_, contains_sins _ _⟩
    · rw [hexec, scrubAct_clean hon hp hplace hcap hue]
    · rw [hexec, scrubAct_correctable hon hp hplace hcap]
    · rw [hexec, scrubAct_stackCorrected hon hp hplace hcap]
    · rw [hexec, scrubAct_stackUncorrected hon hp hplace hcap]
    · rw [hexec, scrubAct_uncorrectable hon hp hplace hcap]
  · rw [← nocCrcAct_retried h0 h2]
    exact actLive_works (f := fun t => nocCrcAct t f) hw
  · obtain ⟨hbad, hbit⟩ := nocCrcAct_lost_effect hregs h2
    exact ⟨_, actLive_works (f := fun t => nocCrcAct t f) hw, hbad, hbit⟩

end Sys2Proof.Machine
end

section
/-! Floating codes convert to themselves (R350, R369). -/

namespace Sys2Proof.Machine
open Sys2Proof

theorem roundAt_same (md : Rm) (neg : Bool) (m : Nat) (e : Int) : (roundAt md neg m e e).1 = m := by
  simp [roundAt]

theorem lg2_lt {m n : Nat} (h0 : m ≠ 0) (h : m < 2 ^ n) : lg2 m < n := (Nat.log2_lt h0).2 h

theorem lg2_two_pow_add {m n : Nat} (h : m < 2 ^ n) : lg2 (2 ^ n + m) = n := by
  have h2 : 2 ^ n + m < 2 ^ (n + 1) := by rw [Nat.pow_succ]; omega
  have hne : 2 ^ n + m ≠ 0 := by have := Nat.two_pow_pos n; omega
  have hlt : lg2 (2 ^ n + m) < n + 1 := (Nat.log2_lt hne).2 h2
  have hge : n ≤ lg2 (2 ^ n + m) := (Nat.le_log2 hne).2 (by omega)
  omega

/-- A subnormal magnitude is its own code. -/
theorem magCode_subnormal (f : FFmt) (neg : Bool) {m : Nat} (h : m < 2 ^ f.mb) : (magCode f .rne neg m f.lsb).1 = m := by
  by_cases h0 : m = 0
  · simp [magCode, h0]
  · have hlg := lg2_lt h0 h
    have hx : msbExp m f.lsb < 1 - f.bias := by
      simp only [msbExp, FFmt.lsb]
      omega
    simp only [magCode, if_neg h0, if_pos hx, roundAt_same]

/-- The code of a normal magnitude with exponent field e. -/
theorem magCode_normal (f : FFmt) (neg : Bool) {m e : Nat} (h : m < 2 ^ f.mb) (he : e ≠ 0) :
    (magCode f .rne neg (2 ^ f.mb + m) ((e : Int) - f.bias - f.mb)).1 = 2 ^ f.mb * e + m := by
  have hne : 2 ^ f.mb + m ≠ 0 := by have := Nat.two_pow_pos f.mb; omega
  have hx : msbExp (2 ^ f.mb + m) ((e : Int) - f.bias - f.mb) = (e : Int) - f.bias := by
    simp only [msbExp, lg2_two_pow_add h]
    omega
  have hnot : ¬ (e : Int) - f.bias < 1 - f.bias := by omega
  have htoNat : ((e : Int) - f.bias + f.bias).toNat = e := by omega
  simp only [magCode, if_neg hne, hx, if_neg hnot, roundAt_same, htoNat]
  rw [Nat.mul_comm]
  omega

/-- A finite code decodes to its sign, significand and exponent (R350). -/
theorem fdec_finite (f : FFmt) (heb : 0 < f.eb) {c : Nat} (h : c % 2 ^ (f.eb + f.mb) ≤ f.maxFin) :
    fdec f c =
      if c % 2 ^ (f.eb + f.mb) / 2 ^ f.mb = 0 then .fin (bitOf c (f.eb + f.mb)) (c % 2 ^ (f.eb + f.mb) % 2 ^ f.mb) f.lsb
      else .fin (bitOf c (f.eb + f.mb)) (2 ^ f.mb + c % 2 ^ (f.eb + f.mb) % 2 ^ f.mb)
        (((c % 2 ^ (f.eb + f.mb) / 2 ^ f.mb : Nat) : Int) - f.bias - f.mb) := by
  have hieee : ¬ (f.sp = .ieee ∧ c % 2 ^ (f.eb + f.mb) / 2 ^ f.mb = 2 ^ f.eb - 1) := by
    rintro ⟨hsp, he⟩
    have hmax : f.maxFin = (2 ^ f.eb - 1) * 2 ^ f.mb - 1 := by simp only [FFmt.maxFin, hsp]
    have hle := Nat.div_mul_le_self (c % 2 ^ (f.eb + f.mb)) (2 ^ f.mb)
    have hpos : 0 < (2 ^ f.eb - 1) * 2 ^ f.mb :=
      Nat.mul_pos (Nat.sub_pos_of_lt (Nat.one_lt_two_pow heb.ne')) (Nat.two_pow_pos _)
    rw [he] at hle
    omega
  have he4m3 : ¬ (f.sp = .e4m3 ∧ c % 2 ^ (f.eb + f.mb) = 2 ^ (f.eb + f.mb) - 1) := by
    rintro ⟨hsp, he⟩
    have hmax : f.maxFin = 2 ^ (f.eb + f.mb) - 2 := by simp only [FFmt.maxFin, hsp]
    have hlt : 1 < 2 ^ (f.eb + f.mb) := Nat.one_lt_two_pow (by omega)
    omega
  simp only [fdec, if_neg hieee, if_neg he4m3]

theorem signed_bits (f : FFmt) {c : Nat} (h : c < 2 ^ f.width) : signed f (bitOf c (f.eb + f.mb)) (c % 2 ^ (f.eb + f.mb)) = c := by
  have hq : c / 2 ^ (f.eb + f.mb) < 2 := by
    rw [Nat.div_lt_iff_lt_mul (Nat.two_pow_pos _)]
    rwa [FFmt.width, Nat.add_assoc, Nat.pow_add, Nat.pow_one] at h
  have hbit : b2n (bitOf c (f.eb + f.mb)) = c / 2 ^ (f.eb + f.mb) := by
    rw [bitOf_eq_testBit, Nat.testBit_eq_decide_div_mod_eq, Nat.mod_eq_of_lt hq]
    generalize c / 2 ^ (f.eb + f.mb) = q at hq
    interval_cases q <;> rfl
  rw [signed, hbit, Nat.mul_comm]
  exact Nat.div_add_mod c (2 ^ (f.eb + f.mb))

theorem fconv_fdec (f : FFmt) (heb : 0 < f.eb) {c : Nat} (hc : c < 2 ^ f.width) (h : c % 2 ^ (f.eb + f.mb) ≤ f.maxFin) : fconv f (fdec f c) = c := by
  have hm : c % 2 ^ (f.eb + f.mb) % 2 ^ f.mb < 2 ^ f.mb := Nat.mod_lt _ (Nat.two_pow_pos _)
  have hdm := Nat.div_add_mod (c % 2 ^ (f.eb + f.mb)) (2 ^ f.mb)
  rw [fdec_finite f heb h]
  split
  next he =>
    rw [he, Nat.mul_zero, Nat.zero_add] at hdm
    rw [fconv, magCode_subnormal f _ hm, hdm, Nat.min_eq_right h, signed_bits f hc]
  next he => rw [fconv, magCode_normal f _ hm he, hdm, Nat.min_eq_right h, signed_bits f hc]

/-- Settles O37: decoding splits a finite code into exponent field and mantissa, and rounding at the code's own quantum is exact. -/
theorem finiteCodesConvertToThemselves : Obligations.FiniteCodesConvertToThemselves := by
  intro f hf c hc h
  have heb : ∀ f ∈ [fE4M3, fE5M2, fFP16, fBF16, fFP32, fE2M1, fE3M2, fE2M3], 0 < f.eb := by decide
  exact fconv_fdec f (heb f hf) hc h

end Sys2Proof.Machine
end

section
/-! The instruction rows of a core (R309, R313 to R323, R346). -/

namespace Sys2Proof.Machine
open Sys2Proof

/-- A core's unit that is there runs its row as the actor of its task. -/
theorem onCore_present {s : State} {u : Nat} (f : State → State) (h : present s .nc u = true) : onCore u f s = f (asActor .nc u (opOf s .nc u) s) :=
  if_pos h

/-- An instruction of the row's kind is performed. -/
theorem ncInsn_fetched {k : Kind} {s t : State} {u w n : Nat} (body : Nat → Nat → Nx DWord) (ha : ncActive s u = true)
    (hf : fetchInsn u s = (Except.ok (w, n), t)) (hk : kindOf w n = k) : ncInsn k body s u = afterInsn u (body w n (icacheInject t u)) := by
  simp only [ncInsn, ha, Bool.not_true, Bool.false_eq_true, if_false, hf, hk, bne_self_eq_false]
  unfold afterInsn
  generalize body w n (icacheInject t u) = r
  obtain ⟨r, t'⟩ := r
  cases r with
  | ok pc => rfl
  | error e => cases e <;> rfl

/-- A fetch that fails is the exception of the scalar row. -/
theorem scalarAct_trap {s t : State} {u c v : Nat} (ha : ncActive s u = true) (hf : fetchInsn u s = (Except.error (.trap c v), t)) :
    scalarAct s u = trapCtx t u c v := by
  simp only [scalarAct, ncInsn, ha, Bool.not_true, Bool.false_eq_true, if_false, hf, if_true]

theorem coreAt_setCore_same {s : State} (h : twf (fun _ => {}) s.cores = true) (u : Nat) (c : Core) : coreAt (setCore s u c) u = c :=
  tget_tset_same _ u c h

theorem coreAt_congr {s t : State} (h : t.cores = s.cores) (u : Nat) : coreAt t u = coreAt s u := by rw [coreAt, h, coreAt]

theorem bump64_keeps {β : Type} (k : State → β) (h : ∀ (t : State) r hi, k { t with regs := r, hi := hi } = k t) (s : State) (a n : Nat) :
    k (bump64 s a n) = k s := by
  unfold bump64
  split
  · rfl
  · exact h s _ _

theorem retire_effect {s : State} {u : Nat} {x : Ctx} (pc : DWord) (hx : (coreAt s u).ctx = some x) (hwf : twf (fun _ => {}) s.cores = true) :
    (coreAt (retire s u pc) u).ctx = some { x with pc := pc, instret := x.instret + 1 } ∧ (retire s u pc).spad = s.spad ∧ (retire s u pc).hbm = s.hbm := by
  refine ⟨?_, bump64_keeps State.spad (fun _ _ _ => rfl) _ _ _, bump64_keeps State.hbm (fun _ _ _ => rfl) _ _ _⟩
  rw [retire, coreAt_congr (bump64_keeps State.cores (fun _ _ _ => rfl) _ _ _), modCx, coreAt_setCore_same hwf, hx]
  rfl

/-- Settles O38: every row is `ncInsn` of its kind, traced. -/
theorem coreInstructionsRetireOrEnd : Obligations.CoreInstructionsRetireOrEnd := by
  intro dt s u
  dsimp only
  intro hw hp ha
  refine ⟨fun w n f hf => ?_, fun c v t hf => ?_, fun t pc x hx hwf => retire_effect pc hx hwf⟩
  · have hrow (k : Kind) (body : Nat → Nat → Nx DWord) (hk : kindOf w n = k) :
        actLive dt (onCore u (traced u (fun t => ncInsn k body t u))) s =
          .next (closing s (itraceStep u (asActor .nc u (opOf (arrive dt s) .nc u) (arrive dt s)) (afterInsn u (body w n (icacheInject f u))))) := by
      rw [actLive_works hw, onCore_present _ hp, traced, ncInsn_fetched body ha hf hk]
    have hcustom (op : Nat) := hrow (.custom op) (customInsn u op)
    exact ⟨hcustom 0, hcustom 1, hcustom 2, hcustom 3, hcustom 4, hcustom 5, hcustom 6, hcustom 7, hcustom 8, hcustom 9, hcustom 10,
      hrow .scalar (scalarInsn u), hrow .vector (vectorInsn u)⟩
  · refine (actLive_works (f := onCore u (traced u (fun t => scalarAct t u))) hw).trans ?_
    rw [onCore_present _ hp, traced, scalarAct_trap ha hf]

end Sys2Proof.Machine
end

section
/-! Scalar results (R315, R316, R319). -/

namespace Sys2Proof.Machine
open Sys2Proof

/-! ## The monad of task code -/

theorem nx_get_bind {α β : Type} (f : State → α) (g : α → Nx β) (s : State) : (Nx.get f >>= g) s = g (f s) s := rfl

theorem nx_x_bind {β : Type} (u i : Nat) (g : DWord → Nx β) (s : State) : (Nx.x u i >>= g) s = g (xr s u i) s := rfl

theorem nx_setX_bind {β : Type} (u i : Nat) (v : DWord) (g : Unit → Nx β) (s : State) :
    (Nx.setX u i v >>= g) s = g () (modCx s u (setX i v)) := rfl

theorem nx_legal_bind {β : Type} (w : Nat) (g : Unit → Nx β) (s : State) : (Nx.legal w true >>= g) s = g () s := rfl

theorem nx_pure {α : Type} (a : α) (s : State) : (pure a : Nx α) s = (Except.ok a, s) := rfl

theorem nx_stop {α : Type} (e : Stop) (s : State) : (Nx.stop e : Nx α) s = (Except.error e, s) := rfl

theorem nx_illegal {α : Type} (w : Nat) (s : State) : (illegal w : Nx α) s = (Except.error (.trap 2 w), s) := rfl

theorem nextPc_eq (u n : Nat) (s : State) : nextPc u n s = (Except.ok ((cx s u).pc + BitVec.ofNat 64 n), s) := rfl

/-! ## Registers of a context -/

theorem setX_pc (i : Nat) (v : DWord) (x : Ctx) : (setX i v x).pc = x.pc := by
  unfold setX
  split <;> rfl

theorem setX_zero (v : DWord) (x : Ctx) : setX 0 v x = x := rfl

theorem xr_zero (s : State) (u : Nat) : xr s u 0 = 0 := rfl

section
variable {s : State} {u : Nat} {x : Ctx} (hx : (coreAt s u).ctx = some x)
include hx

theorem cx_eq : cx s u = x := by rw [cx, hx]; rfl

variable (hwf : twf (fun _ => {}) s.cores = true)
include hwf

theorem ctx_modCx (f : Ctx → Ctx) : (coreAt (modCx s u f) u).ctx = some (f x) := by
  rw [modCx, coreAt_setCore_same hwf, hx]
  rfl

theorem cx_modCx (f : Ctx → Ctx) : cx (modCx s u f) u = f x := by
  rw [cx, ctx_modCx hx hwf]
  rfl

/-! ## One instruction by its opcode -/

omit hx hwf in
theorem branchOn_zero (a b : DWord) : branchOn 0 a b = (a == b) := rfl

/-- OP-IMM with funct3 0. -/
theorem scalar32_addi {w : Nat} (raw : Nat) (hop : fld w 0 7 = 0x13) (h3 : fld w 12 3 = 0) :
    scalar32 u w raw 4 s = (Except.ok (x.pc + 4), modCx s u (setX (fld w 7 5) (xr s u (fld w 15 5) + immI w))) := by
  simp only [scalar32, hop, h3, nx_get_bind, nx_x_bind]
  rw [show (!(0 == 1 || 0 == 5) || shiftOk w 0 6) = true from rfl, nx_legal_bind, nx_setX_bind, nextPc_eq, cx_modCx hx hwf, setX_pc]
  rfl

/-- OP with funct3 0: the product for funct7 1, else the sum or the difference. -/
theorem scalar32_op {w k : Nat} (raw : Nat) (hop : fld w 0 7 = 0x33) (h3 : fld w 12 3 = 0) (h7 : fld w 25 7 = k) (hk : k = 0 ∨ k = 1 ∨ k = 0x20) :
    scalar32 u w raw 4 s = (Except.ok (x.pc + 4), modCx s u (setX (fld w 7 5)
      (if k = 1 then xr s u (fld w 15 5) * xr s u (fld w 20 5) else aluOp 0 (k == 0x20) (xr s u (fld w 15 5)) (xr s u (fld w 20 5))))) := by
  have hlegal : (k == 0 || k == 1 || (k == 0x20 && (0 == 0 || 0 == 5))) = true := by rcases hk with rfl | rfl | rfl <;> rfl
  simp only [scalar32, hop, h3, h7, nx_get_bind, nx_x_bind]
  rw [hlegal, nx_legal_bind, nx_setX_bind, nextPc_eq, cx_modCx hx hwf, setX_pc]
  rfl

theorem scalar32_lui {w : Nat} (raw : Nat) (hop : fld w 0 7 = 0x37) :
    scalar32 u w raw 4 s = (Except.ok (x.pc + 4), modCx s u (setX (fld w 7 5) (immU w))) := by
  simp only [scalar32, hop, nx_get_bind, nx_x_bind]
  rw [nx_setX_bind, nextPc_eq, cx_modCx hx hwf, setX_pc]
  rfl

theorem scalar32_auipc {w : Nat} (raw : Nat) (hop : fld w 0 7 = 0x17) :
    scalar32 u w raw 4 s = (Except.ok (x.pc + 4), modCx s u (setX (fld w 7 5) (x.pc + immU w))) := by
  simp only [scalar32, hop, nx_get_bind, nx_x_bind]
  rw [nx_setX_bind, nextPc_eq, cx_modCx hx hwf, setX_pc, cx_eq hx]
  rfl

omit hwf

theorem scalar32_jal {w : Nat} (raw : Nat) (hop : fld w 0 7 = 0x6F) :
    scalar32 u w raw 4 s = (Except.ok (x.pc + immJ w), modCx s u (setX (fld w 7 5) (x.pc + 4))) := by
  simp only [scalar32, hop]
  rw [nx_get_bind, nx_x_bind, nx_x_bind, nx_setX_bind, nx_pure, cx_eq hx, BitVec.ofNat_eq_ofNat]

theorem scalar32_beq {w : Nat} (raw : Nat) (hop : fld w 0 7 = 0x63) (h3 : fld w 12 3 = 0) :
    scalar32 u w raw 4 s = (Except.ok (if xr s u (fld w 15 5) = xr s u (fld w 20 5) then x.pc + immB w else x.pc + 4), s) := by
  simp only [scalar32, hop, h3, nx_get_bind, nx_x_bind]
  rw [show (0 != 2 && 0 != 3) = true from rfl, nx_legal_bind, cx_eq hx]
  by_cases he : xr s u (fld w 15 5) = xr s u (fld w 20 5)
  · simp only [branchOn_zero, he, beq_self_eq_true, if_true, nx_pure]
  · simp only [branchOn_zero, beq_eq_false_iff_ne.2 he, Bool.false_eq_true, if_false, he, nextPc_eq, cx_eq hx, BitVec.ofNat_eq_ofNat]

omit hx in
theorem scalar32_ecall : scalar32 u 0x73 0x73 4 s = (Except.error (.trap 8 0), s) := by
  simp only [scalar32, show fld 0x73 0 7 = 0x73 from rfl, show fld 0x73 12 3 = 0 from rfl, nx_get_bind, nx_x_bind, nx_stop, if_true]

theorem scalar32_ebreak : scalar32 u 0x0010_0073 0x0010_0073 4 s = (Except.error (.trap 3 x.pc.toNat), s) := by
  simp only [scalar32, show fld 0x0010_0073 0 7 = 0x73 from rfl, show fld 0x0010_0073 12 3 = 0 from rfl, nx_get_bind, nx_x_bind, nx_stop, if_true,
    show ¬ (0x0010_0073 = 0x73) by decide, if_false, cx_eq hx]

omit hx in
theorem scalar32_zero : scalar32 u 0 0 4 s = (Except.error (.trap 2 0), s) := by
  simp only [scalar32, show fld 0 0 7 = 0 from rfl, nx_get_bind, nx_x_bind, nx_illegal]

end

/-! ## Fields of encoded instructions -/

/-- The fields of a word of the R format. -/
theorem encR_fields {f7 rs2 rs1 f3 rd op : Nat} (h7 : f7 < 128) (h2 : rs2 < 32) (h1 : rs1 < 32) (h3 : f3 < 8) (hd : rd < 32) (ho : op < 128) :
    fld (encR f7 rs2 rs1 f3 rd op) 0 7 = op ∧ fld (encR f7 rs2 rs1 f3 rd op) 7 5 = rd ∧ fld (encR f7 rs2 rs1 f3 rd op) 12 3 = f3 ∧
    fld (encR f7 rs2 rs1 f3 rd op) 15 5 = rs1 ∧ fld (encR f7 rs2 rs1 f3 rd op) 20 5 = rs2 ∧ fld (encR f7 rs2 rs1 f3 rd op) 25 7 = f7 := by
  simp only [fld, encR, Nat.shiftRight_eq_div_pow]
  omega

theorem trunc_lt (i : Int) (n : Nat) : trunc i n < 2 ^ n := by
  have hpos : (0 : Int) < (2 ^ n : Nat) := Int.natCast_pos.2 (Nat.two_pow_pos n)
  have hlt := Int.emod_lt_of_pos i hpos
  have hge := Int.emod_nonneg i hpos.ne'
  simp only [trunc]
  omega

/-- The fields of a word of the I format. -/
theorem encI_fields {i : Int} {rs1 f3 rd op : Nat} (h1 : rs1 < 32) (h3 : f3 < 8) (hd : rd < 32) (ho : op < 128) :
    fld (encI i rs1 f3 rd op) 0 7 = op ∧ fld (encI i rs1 f3 rd op) 7 5 = rd ∧ fld (encI i rs1 f3 rd op) 12 3 = f3 ∧
    fld (encI i rs1 f3 rd op) 15 5 = rs1 ∧ fld (encI i rs1 f3 rd op) 20 12 = trunc i 12 := by
  have ht := trunc_lt i 12
  simp only [fld, encI, Nat.shiftRight_eq_div_pow]
  omega

/-- The fields of a word of the U format. -/
theorem encU_fields {i : Int} {rd op : Nat} (hd : rd < 32) (ho : op < 128) :
    fld (encU i rd op) 0 7 = op ∧ fld (encU i rd op) 7 5 = rd ∧ fld (encU i rd op) 12 20 = trunc i 20 := by
  have ht := trunc_lt i 20
  simp only [fld, encU, Nat.shiftRight_eq_div_pow]
  omega

/-- The low bits of a signed value that fits read back as it. -/
theorem sext_trunc {i : Int} {n q : Nat} (hq : 2 ^ n = q) (h1 : -(q : Int) ≤ i) (h2 : i < q) : sext (trunc i (n + 1)) (n + 1) = i := by
  have hp : 2 ^ (n + 1) = 2 * q := by rw [Nat.pow_succ, Nat.mul_comm, hq]
  have hlt := trunc_lt i (n + 1)
  simp only [sext, Nat.add_one_ne_zero, if_false, Nat.mod_eq_of_lt hlt, Nat.add_sub_cancel]
  rw [hp] at hlt ⊢
  rw [hq]
  rcases lt_or_ge i 0 with hneg | hpos
  · have hmod : i % ((2 * q : Nat) : Int) = i + (2 * q : Nat) := by
      rw [← Int.add_emod_right, Int.emod_eq_of_lt (by omega) (by omega)]
    simp only [trunc, hp, hmod] at hlt ⊢
    split <;> omega
  · have hmod : i % ((2 * q : Nat) : Int) = i := Int.emod_eq_of_lt hpos (by omega)
    simp only [trunc, hp, hmod] at hlt ⊢
    split <;> omega

theorem immI_encI {i : Int} {rs1 f3 rd op : Nat} (h1 : rs1 < 32) (h3 : f3 < 8) (hd : rd < 32) (ho : op < 128) (hl : -2048 ≤ i) (hu : i < 2048) :
    immI (encI i rs1 f3 rd op) = BitVec.ofInt 64 i := by
  obtain ⟨-, -, -, -, himm⟩ := encI_fields (i := i) h1 h3 hd ho
  rw [immI, himm, sext_trunc (n := 11) rfl (by omega) (by omega)]

theorem immU_encU {i : Int} {rd op : Nat} (hd : rd < 32) (ho : op < 128) (hl : -524288 ≤ i) (hu : i < 524288) :
    immU (encU i rd op) = BitVec.ofInt 64 (4096 * i) := by
  obtain ⟨-, -, himm⟩ := encU_fields (i := i) hd ho
  have hshift : trunc i 20 * 4096 = trunc (4096 * i) 32 := by
    simp only [trunc]
    omega
  rw [immU, himm, hshift, sext_trunc (n := 31) rfl (by omega) (by omega)]

theorem encJ_fields {i : Int} {rd : Nat} (hd : rd < 32) :
    fld (encJ i rd) 0 7 = 0x6F ∧ fld (encJ i rd) 7 5 = rd ∧ fld (encJ i rd) 21 10 = fld (trunc i 21) 1 10 ∧
    fld (encJ i rd) 20 1 = fld (trunc i 21) 11 1 ∧ fld (encJ i rd) 12 8 = fld (trunc i 21) 12 8 ∧ fld (encJ i rd) 31 1 = fld (trunc i 21) 20 1 := by
  have h20 := fld_lt (trunc i 21) 20 1
  have h1 := fld_lt (trunc i 21) 1 10
  have h11 := fld_lt (trunc i 21) 11 1
  have h12 := fld_lt (trunc i 21) 12 8
  simp only [encJ]
  generalize fld (trunc i 21) 20 1 = a at *
  generalize fld (trunc i 21) 1 10 = b at *
  generalize fld (trunc i 21) 11 1 = c at *
  generalize fld (trunc i 21) 12 8 = d at *
  simp only [fld, Nat.shiftRight_eq_div_pow]
  omega

/-- An even number of 21 bits, from its four fields. -/
theorem jumpFields_sum {t : Nat} (ht : t < 2 ^ 21) (h : t % 2 = 0) : fld t 1 10 * 2 + fld t 11 1 * 2048 + fld t 12 8 * 4096 + fld t 20 1 * 2 ^ 20 = t := by
  simp only [fld, Nat.shiftRight_eq_div_pow]
  omega

theorem trunc_double_even (i : Int) (n : Nat) : trunc (2 * i) (n + 1) % 2 = 0 := by
  have hp : 2 ^ (n + 1) = 2 * 2 ^ n := by rw [Nat.pow_succ, Nat.mul_comm]
  simp only [trunc, hp]
  push_cast
  rw [Int.mul_emod_mul_of_pos _ _ (by decide)]
  omega

theorem immJ_encJ {i : Int} {rd : Nat} (hd : rd < 32) (hl : -524288 ≤ i) (hu : i < 524288) : immJ (encJ (2 * i) rd) = BitVec.ofInt 64 (2 * i) := by
  obtain ⟨-, -, h21, h20, h12, h31⟩ := encJ_fields (i := 2 * i) hd
  rw [immJ, h21, h20, h12, h31, jumpFields_sum (trunc_lt _ _) (trunc_double_even i 20), sext_trunc (n := 20) rfl (by omega) (by omega)]

theorem encB_fields {i : Int} {rs1 f3 : Nat} (h1 : rs1 < 32) (h3 : f3 < 8) :
    fld (encB i rs1 f3) 0 7 = 0x63 ∧ fld (encB i rs1 f3) 12 3 = f3 ∧ fld (encB i rs1 f3) 15 5 = rs1 ∧ fld (encB i rs1 f3) 20 5 = 0 ∧
    fld (encB i rs1 f3) 8 4 = fld (trunc i 13) 1 4 ∧ fld (encB i rs1 f3) 25 6 = fld (trunc i 13) 5 6 ∧
    fld (encB i rs1 f3) 7 1 = fld (trunc i 13) 11 1 ∧ fld (encB i rs1 f3) 31 1 = fld (trunc i 13) 12 1 := by
  have h12 := fld_lt (trunc i 13) 12 1
  have h5 := fld_lt (trunc i 13) 5 6
  have h11 := fld_lt (trunc i 13) 11 1
  have h14 := fld_lt (trunc i 13) 1 4
  simp only [encB]
  generalize fld (trunc i 13) 12 1 = a at *
  generalize fld (trunc i 13) 5 6 = b at *
  generalize fld (trunc i 13) 11 1 = c at *
  generalize fld (trunc i 13) 1 4 = d at *
  simp only [fld, Nat.shiftRight_eq_div_pow]
  omega

/-- An even number of 13 bits, from its four fields. -/
theorem branchFields_sum {t : Nat} (ht : t < 2 ^ 13) (h : t % 2 = 0) : fld t 1 4 * 2 + fld t 5 6 * 32 + fld t 11 1 * 2048 + fld t 12 1 * 4096 = t := by
  simp only [fld, Nat.shiftRight_eq_div_pow]
  omega

theorem immB_encB {i : Int} {rs1 f3 : Nat} (h1 : rs1 < 32) (h3 : f3 < 8) (hl : -2048 ≤ i) (hu : i < 2048) :
    immB (encB (2 * i) rs1 f3) = BitVec.ofInt 64 (2 * i) := by
  obtain ⟨-, -, -, -, h8, h25, h7, h31⟩ := encB_fields (i := 2 * i) h1 h3
  rw [immB, h8, h25, h7, h31, branchFields_sum (trunc_lt _ _) (trunc_double_even i 12), sext_trunc (n := 12) rfl (by omega) (by omega)]

/-- Settles O39: the instruction's case of `scalar32`, with the fields of its encoding. -/
theorem scalarResultsFollowTheirRule : Obligations.ScalarResultsFollowTheirRule := by
  intro s u rd rs1 rs2 x hx hwf hd h1 h2
  dsimp only
  have hop {k : Nat} (hk : k = 0 ∨ k = 1 ∨ k = 0x20) : scalarInsn u (encR k rs2 rs1 0 rd 0x33) 4 s = (Except.ok (x.pc + 4),
      modCx s u (setX rd (if k = 1 then xr s u rs1 * xr s u rs2 else aluOp 0 (k == 0x20) (xr s u rs1) (xr s u rs2)))) := by
    obtain ⟨ho, hrd, h3, hrs1, hrs2, h7⟩ := encR_fields (f7 := k) (f3 := 0) (op := 0x33) (by omega) h2 h1 (by decide) hd (by decide)
    exact (scalar32_op hx hwf _ ho h3 h7 hk).trans (by rw [hrd, hrs1, hrs2])
  refine ⟨fun i hl hu => ?_, hop (.inl rfl), hop (.inr (.inr rfl)), hop (.inr (.inl rfl)), fun i hl hu => ⟨?_, ?_⟩, fun i hl hu => ?_,
    fun i hl hu => ?_, scalar32_ecall, scalar32_ebreak hx, scalar32_zero, xr_zero s u, fun v => setX_zero v x, fun v => ⟨ctx_modCx hx hwf _, rfl, rfl, rfl⟩⟩
  · obtain ⟨ho, hrd, h3, hrs1, -⟩ := encI_fields (i := i) (f3 := 0) (op := 0x13) h1 (by decide) hd (by decide)
    exact (scalar32_addi hx hwf _ ho h3).trans (by rw [hrd, hrs1, immI_encI h1 (by decide) hd (by decide) hl hu])
  · obtain ⟨ho, hrd, -⟩ := encU_fields (i := i) (op := 0x37) hd (by decide)
    exact (scalar32_lui hx hwf _ ho).trans (by rw [hrd, immU_encU hd (by decide) hl hu])
  · obtain ⟨ho, hrd, -⟩ := encU_fields (i := i) (op := 0x17) hd (by decide)
    exact (scalar32_auipc hx hwf _ ho).trans (by rw [hrd, immU_encU hd (by decide) hl hu])
  · obtain ⟨ho, hrd, -⟩ := encJ_fields (i := 2 * i) hd
    exact (scalar32_jal hx _ ho).trans (by rw [hrd, immJ_encJ hd hl hu])
  · obtain ⟨ho, h3, hrs1, hrs2, -⟩ := encB_fields (i := 2 * i) (f3 := 0) h1 (by decide)
    exact (scalar32_beq hx _ ho h3).trans (by rw [hrs1, hrs2, immB_encB h1 (by decide) hl hu, xr_zero])

end Sys2Proof.Machine
end

section
/-! The engines of the image and vision blocks run their unit's task (R175 to R303). -/

namespace Sys2Proof.Machine
open Sys2Proof

/-- A unit that is there acts on behalf of the task in its running slot, which a waiting one enters first. -/
theorem onUnit_there {b : Blk} {u : Nat} {s : State} (f : State → State) (hb : b ≠ .rolv) (h : unitThere s b u = true) :
    onUnit b u f s = f (asActor b u (opOf (startTask s b u) b u) (startTask s b u)) := by
  simp only [onUnit, h, Bool.not_true, Bool.false_eq_true, if_false, if_neg hb]

/-- A status an engine reports sets its bit of BLK_ERR_STAT. -/
def reported (s : State) (b : Blk) (u : Nat) (bit : Option Nat) : State :=
  match bit with
  | some k => raiseErr s b u k none
  | none => s

section
variable {s t : State} {b : Blk} {u : Nat} {v : VTask} (bit : Nat → Option Nat) {f : VTask → Eng Unit} (hv : vtask s b u = some v)
include hv

theorem runVis_ok (h : (f v s).1 = Except.ok ()) : runVis s b u bit f = finishRun (f v s).2 b u 0 := by
  simp only [runVis, hv]
  generalize f v s = r at h
  obtain ⟨r, t⟩ := r
  obtain rfl : r = Except.ok () := h
  rfl

theorem runVis_error {st : Nat} (h : (f v s).1 = Except.error st) : runVis s b u bit f = finishRun (reported (f v s).2 b u (bit st)) b u st := by
  simp only [runVis, hv]
  generalize f v s = r at h
  obtain ⟨r, t⟩ := r
  obtain rfl : r = Except.error st := h
  rfl

end

theorem finishRun_effect {s : State} (h : twf (fun _ => ({} : UnitSt)) s.units = true) (b : Blk) (n st : Nat) :
    (unitAt (finishRun s b n st) b n).done = some st ∧ (unitAt (finishRun s b n st) b n).run = (unitAt s b n).run := by
  rw [finishRun, unitAt_setUnit_same h]
  exact ⟨rfl, rfl⟩

/-- The two ends of an engine command whose row is a run of the engine on the unit's task. -/
theorem engine_ends {dt u : Nat} {s : State} {b : Blk} {row : State → State} {bit : Nat → Option Nat} {f : VTask → Eng Unit} (hb : b ≠ .rolv)
    (hw : Works (arrive dt s)) (hu : unitThere (arrive dt s) b u = true) {e : State}
    (he : e = asActor b u (opOf (startTask (arrive dt s) b u) b u) (startTask (arrive dt s) b u)) {v : VTask} (hv : vtask e b u = some v)
    (hrow : row e = runVis e b u bit f) :
    ((f v e).1 = Except.ok () → actLive dt (onUnit b u row) s = .next (closing s (finishRun (f v e).2 b u 0))) ∧
    ∀ st, (f v e).1 = Except.error st →
      actLive dt (onUnit b u row) s = .next (closing s (finishRun (reported (f v e).2 b u (bit st)) b u st)) := by
  have hrun : actLive dt (onUnit b u row) s = .next (closing s (runVis e b u bit f)) := by
    rw [actLive_works hw, onUnit_there row hb hu, ← he, hrow]
  exact ⟨fun h => hrun.trans (by rw [runVis_ok bit hv h]), fun st h => hrun.trans (by rw [runVis_error bit hv h])⟩

/-- Settles O35: each row is `runVis` of its engine where the task is one of its kind. -/
theorem enginesRunTheirTask : Obligations.EnginesRunTheirTask := by
  intro dt s u
  dsimp only
  intro hw
  refine ⟨fun hu v hv => ?_, fun hu v hv => ?_, fun hu v hv hk => ?_, fun hu v hv hk => ?_, fun hu v hv => ?_, fun hu v hv => ?_,
    fun hu v hv hk => ?_, fun hu v hv hk => ?_, finishRun_effect (tblOf_wf _ _)⟩
  · exact engine_ends (row := fun t => ispAct t u) (by decide) hw hu rfl hv rfl
  · exact engine_ends (row := fun t => pyrAct t u) (by decide) hw hu rfl hv rfl
  · exact engine_ends (row := fun t => warpMeshAct t u) (by decide) hw hu rfl hv (if_neg (by rw [hk]; decide))
  · exact engine_ends (row := fun t => warpHomAct t u) (by decide) hw hu rfl hv (if_pos hk)
  · exact engine_ends (row := fun t => strAct t u) (by decide) hw hu rfl hv rfl
  · exact engine_ends (row := fun t => flwAct t u) (by decide) hw hu rfl hv rfl
  · exact engine_ends (row := fun t => ftrDetectAct t u) (by decide) hw hu rfl hv (if_pos hk)
  · exact engine_ends (row := fun t => ftrMatchAct t u) (by decide) hw hu rfl hv (if_pos hk)

end Sys2Proof.Machine
end

section
/-! Measurement of power and temperature, and what their limits do (R551, R560 to R572). -/

namespace Sys2Proof.Machine
open Sys2Proof

theorem bump_keeps {β : Type} (k : State → β) (h : ∀ (t : State) r, k { t with regs := r } = k t) (s : State) (a n : Nat) : k (bump s a n) = k s := by
  unfold bump
  split
  · rfl
  · exact h _ _

theorem pwr_bump (s : State) (a n : Nat) : (bump s a n).pwr = s.pwr := bump_keeps State.pwr (fun _ _ => rfl) s a n

/-! ## What a packet sent leaves (R480, R483, R505) -/

/-- The state without what sending and reporting change. -/
def wireRest (s : State) : State := irqRest { s with free := 0, rolv := {} }

theorem wireRest_of_rest {s t : State} (h : irqRest t = irqRest s) : wireRest t = wireRest s :=
  congrArg (fun x : State => { x with free := 0, rolv := {} }) h

theorem wireRest_keeps {α : Type} {s t : State} (h : wireRest t = wireRest s) (f : State → α) (hf : ∀ u, f (wireRest u) = f u := by intro _; rfl) :
    f t = f s := by
  rw [← hf t, h, hf s]

theorem wireRest_setConn (s : State) (i : Nat) (c : Conn) : wireRest (setConn s i c) = wireRest s := rfl

theorem wireRest_bump (s : State) (a n : Nat) : wireRest (bump s a n) = wireRest s := wireRest_of_rest (irqRest_bump s a n)

theorem wireRest_raiseIrq (s : State) (b : Blk) (n bit : Nat) (ctx : Option Nat) : wireRest (raiseIrq s b n bit ctx) = wireRest s :=
  wireRest_of_rest (irqRest_raiseIrq s b n bit ctx)

theorem wireRest_raiseErr (s : State) (b : Blk) (n bit : Nat) (ctx : Option Nat) : wireRest (raiseErr s b n bit ctx) = wireRest s :=
  wireRest_of_rest (irqRest_raiseErr s b n bit ctx)

theorem wireRest_putWire (s : State) (link : Nat) (peer : Option Nat) (l : List Byte) : wireRest (putWire s link peer l) = wireRest s := by
  unfold putWire
  split
  · rfl
  · exact wireRest_bump _ _ _

theorem wireRest_wirePkt (s : State) (i : Nat) (p : Pkt) (again : Bool) : wireRest (wirePkt s i p again) = wireRest s := by
  unfold wirePkt
  split
  · rfl
  · exact (wireRest_setConn _ _ _).trans (wireRest_putWire _ _ _ _)

theorem wireRest_sendLoose (s : State) (i ty parts spec : Nat) (pay : List Byte) : wireRest (sendLoose s i ty parts spec pay) = wireRest s :=
  wireRest_wirePkt s i _ false

theorem wireRest_notices (s : State) (begins : Bool) : wireRest (notices s begins) = wireRest s := by
  unfold notices
  split
  · rfl
  · refine (forAll_keeps wireRest (fun _ _ _ => wireRest_raiseIrq _ _ _ _ _) _).trans (forAll_keeps wireRest (fun i _ t => ?_) s)
    split
    · exact wireRest_sendLoose _ _ _ _ _ _
    · rfl

theorem pwr_notices (s : State) (begins : Bool) : (notices s begins).pwr = s.pwr := wireRest_keeps (wireRest_notices s begins) State.pwr

theorem pwr_raiseIrq (s : State) (b : Blk) (n bit : Nat) (ctx : Option Nat) : (raiseIrq s b n bit ctx).pwr = s.pwr :=
  rest_keeps (irqRest_raiseIrq s b n bit ctx) State.pwr

/-! ## What the sensors read -/

/-- When the sensors were read, the highest reading and the invalid ones. -/
def sensed (w : Pwr) : DWord × Int × List Nat := (w.thermAt, w.tj, w.invalid)

theorem sensed_injTripEnd (s : State) : sensed (injTripEnd s).pwr = sensed s.pwr := by
  unfold injTripEnd
  split
  · rfl
  · split <;> rfl

theorem sensed_deferStep (s : State) : sensed (deferStep s).pwr = sensed s.pwr := by
  unfold deferStep
  split
  · rfl
  · rw [pwr_bump]
    rfl

theorem sensed_advanceStep (s : State) : sensed (advanceStep s).pwr = sensed s.pwr := by
  unfold advanceStep
  dsimp only
  split
  · split
    · exact sensed_deferStep s
    · split <;> rfl
  · split
    · split
      · rfl
      · exact sensed_deferStep s
    · rfl

theorem sensed_beginNext (n : Nat) (s : State) : sensed (beginNext n s).pwr = sensed s.pwr := by
  induction n generalizing s with
  | zero => rfl
  | succ n ih =>
    unfold beginNext
    dsimp only
    split
    · rfl
    · split
      · rfl
      · split
        · exact ih _
        · exact sensed_advanceStep _

theorem sensed_oppReached (s : State) : sensed (oppReached s).pwr = sensed s.pwr := by
  unfold oppReached
  split
  · rfl
  · dsimp only
    split
    · rfl
    · rw [logRest_keeps (logRest_pushFinal _ _ _ _) State.pwr]
      rfl

theorem sensed_pwrAdvance (s : State) : sensed (pwrAdvance s).pwr = sensed s.pwr := by
  rw [pwrAdvance, sensed_oppReached, sensed_beginNext, sensed_advanceStep, sensed_injTripEnd]

theorem sensed_emergBegin (s : State) : sensed (emergBegin s).pwr = sensed s.pwr := by
  unfold emergBegin
  split
  · rfl
  · dsimp only
    rw [pwr_notices, pwr_raiseIrq, noteSkip_keeps sensed fun _ _ => rfl, pwr_bump]
    rfl

theorem sensed_emergEnd (s : State) : sensed (emergEnd s).pwr = sensed s.pwr := by
  unfold emergEnd
  extract_lets calm
  split
  · rw [sensed_pwrAdvance, pwr_notices, pwr_raiseIrq]
    rfl
  · rfl

theorem sensed_emergCheck (s : State) : sensed (emergCheck s).pwr = sensed s.pwr := by
  unfold emergCheck
  split
  · exact sensed_emergBegin s
  · exact sensed_emergEnd s

/-! ## The tick (R551, R564, R566) -/

theorem pwrCommit_none {s : State} (h : s.commits.contains (pg .pwr 0) = false) : pwrCommit s = s := if_neg (by rw [h]; decide)

theorem tickAct_due {s : State} (h : 1000000 ≤ since s s.pwr.tickAt) : (tickAct s).pwr.tickAt = s.time ∧ (tickAct s).pwr.nUs = 0 ∧
    (tickAct s).pwr.estSum = 0 ∧ (tickAct s).pwr.rSum = 0 ∧ (tickAct s).pwr.grpSum = [] ∧ (tickAct s).pwr.iouts = [] := by
  have hdue : ¬ decide (since s s.pwr.tickAt < 1000000) = true := by simpa using h
  unfold tickAct
  rw [if_neg hdue]
  exact ⟨rfl, rfl, rfl, rfl, rfl, rfl⟩

/-! ## The activity estimator (R563, R565) -/

/-- The activity of all blocks of a sample. -/
def rawSum (s : State) (acts : List (Nat × Nat × List Nat)) : Nat := acts.foldl (fun a x => a + rawOf s x.2.2) 0

theorem foldl_add_cast {α : Type} (f : α → Nat) (l : List α) (n : Nat) :
    l.foldl (fun (a : Int) x => a + f x) (n : Int) = (l.foldl (fun a x => a + f x) n : Nat) := by
  induction l generalizing n with
  | nil => rfl
  | cons x l ih =>
    rw [List.foldl_cons, List.foldl_cons, ← ih, Int.natCast_add]

theorem activityAct_due {s : State} (h : 1000 ≤ since s s.pwr.sampleAt) (acts : List (Nat × Nat × List Nat)) :
    (activityAct s acts).pwr.sampleAt = s.time ∧ (activityAct s acts).pwr.nUs = s.pwr.nUs + 1 ∧
    (activityAct s acts).pwr.rSum = s.pwr.rSum + rawSum s acts ∧
    (activityAct s acts).pwr.estSum = s.pwr.estSum + (estOf s (rawSum s acts) + s.pwr.offset) ∧ (activityAct s acts).hbm = s.hbm := by
  have hdue : ¬ decide (since s s.pwr.sampleAt < 1000) = true := by simpa using h
  unfold activityAct
  rw [if_neg hdue]
  extract_lets w r est run one on sum ph grp s1 s2 w2 s3
  have hpwr : (if s3.pwr.emerg then bump s3 (pw 0x80C) 1 else s3).pwr = s3.pwr := by rw [apply_ite State.pwr, pwr_bump, ite_self]
  have hhbm : (if s3.pwr.emerg then bump s3 (pw 0x80C) 1 else s3).hbm = s3.hbm := by
    rw [apply_ite State.hbm, bump_keeps State.hbm fun _ _ => rfl, ite_self]
  rw [hpwr, hhbm]
  refine ⟨rfl, rfl, rfl, rfl, ?_⟩
  show (if skipLevel s2 != 0 || w.skipped then bump s2 (pw 0x804) 1 else s2).hbm = s.hbm
  rw [apply_ite State.hbm, bump_keeps State.hbm fun _ _ => rfl, ite_self]
  rfl

/-! ## Polls and alerts (R560 to R562) -/

/-- PWR with a slot polled with a command now. -/
def polledPwr (s : State) (slot code : Nat) : Pwr := { s.pwr with polls := tset (fun _ => none) s.pwr.polls (slot * 256 + code) (some s.time) }

section
variable {s : State} {slot code : Nat}

theorem pmbusAct_notDue (val : Option Nat) (h : slotValid s slot = false ∨ pollDue s slot code = false) : pmbusAct s slot code val = s := by
  refine if_pos ?_
  rcases h with h | h <;> simp [h]

variable (hv : slotValid s slot = true) (hd : pollDue s slot code = true)
include hv hd

theorem pollTaken : (!slotValid s slot || !pollDue s slot code) = false := by rw [hv, hd]; rfl

theorem pmbusAct_other_fails (h0 : slot ≠ 0) : pmbusAct s slot code none = pmbusError (setPwr s (polledPwr s slot code)) := by
  have hforced : (slot == 0 && injArmed s .pwr 0 2) = false := by rw [beq_eq_false_iff_ne.2 h0]; rfl
  simp only [pmbusAct, pollTaken hv hd, Bool.false_eq_true, if_false, hforced, polledPwr, bne_iff_ne.2 h0, if_true]

end

theorem pmbusAct_pout {s : State} {slot : Nat} (hv : slotValid s slot = true) (hd : pollDue s slot 0x96 = true) (h0 : slot ≠ 0) (word : Nat) :
    pmbusAct s slot 0x96 (some word) =
      setPwr s { polledPwr s slot 0x96 with pout := tset (fun _ => 0) s.pwr.pout slot (linear11 word) } := by
  have hforced : (slot == 0 && injArmed s .pwr 0 2) = false := by rw [beq_eq_false_iff_ne.2 h0]; rfl
  simp only [pmbusAct, pollTaken hv hd, Bool.false_eq_true, if_false, hforced, if_neg h0]
  rfl

theorem pmbusAct_vout {s : State} (hv : slotValid s 0 = true) (hd : pollDue s 0 0x8B = true) (hi : injArmed s .pwr 0 2 = false) (word : Nat) :
    pmbusAct s 0 0x8B (some word) =
      setPwr s { polledPwr s 0 0x8B with badPolls := 0, vout := linear16 (tget (fun _ => 0x17) s.pwr.vmode 0) word } := by
  simp only [pmbusAct, pollTaken hv hd, Bool.false_eq_true, if_false, hi, Bool.and_false, if_true]
  rfl

/-- The state after the third failed poll of slot 0 in a row, before its fault. -/
def pollsLost (s : State) (code : Nat) : State :=
  let t := pmbusError (setPwr s (polledPwr s 0 code))
  setPwr t { t.pwr with badPolls := 0, tickErr := true }

theorem pmbusAct_third {s : State} {code : Nat} (hv : slotValid s 0 = true) (hd : pollDue s 0 code = true) (hi : injArmed s .pwr 0 2 = false)
    (h : s.pwr.badPolls = 2) : pmbusAct s 0 code none = vrFault (pollsLost s code) := by
  have hpwr : (pmbusError (setPwr s (polledPwr s 0 code))).pwr = polledPwr s 0 code :=
    rest_keeps ((irqRest_raiseErr _ _ _ _ _).trans (irqRest_bump _ _ _)) State.pwr
  have hbad : (pmbusError (setPwr s (polledPwr s 0 code))).pwr.badPolls = 2 := by rw [hpwr]; exact h
  rw [polledPwr] at hbad
  simp only [pmbusAct, pollTaken hv hd, Bool.false_eq_true, if_false, hi, Bool.and_false, bne_self_eq_false, hbad, pollsLost, polledPwr]
  rfl

theorem statusWord_vrFault (s : State) (slot : Nat) {w : Nat} (h : bitOf w 6 = true) :
    statusWord s slot w = if slot = 0 ∧ bitOf w 14 = true then overCurrent (vrFault s) else vrFault s := by
  simp only [statusWord, h, Bool.true_or, if_true]

/-! ## The temperature (R568) -/

/-- The highest reading of a list of sensors with the sensor that shows it. -/
def hottest (temps : List Int) (l : List Nat) (m : Option (Nat × Int)) : Option (Nat × Int) :=
  l.foldl (fun (m : Option (Nat × Int)) k => match m with
    | some (j, v) => if v < nth 0 temps k then some (k, nth 0 temps k) else some (j, v)
    | none => some (k, nth 0 temps k)) m

theorem hottest_spec (temps : List Int) (l : List Nat) (h : Nat) (v : Int) (hv : v ∈ temps) (hl : ∀ k ∈ l, k < temps.length) :
    ∃ j u, hottest temps l (some (h, v)) = some (j, u) ∧ u ∈ temps ∧ v ≤ u ∧ ∀ k ∈ l, nth 0 temps k ≤ u := by
  induction l generalizing h v with
  | nil => exact ⟨h, v, rfl, hv, le_refl v, fun k hk => absurd hk List.not_mem_nil⟩
  | cons a r ih =>
    have ha : nth 0 temps a ∈ temps := by
      rw [nth, List.getD_eq_getElem temps 0 (hl a List.mem_cons_self)]
      exact List.getElem_mem _
    have hr : ∀ k ∈ r, k < temps.length := fun k hk => hl k (List.mem_cons_of_mem _ hk)
    by_cases hlt : v < nth 0 temps a
    · obtain ⟨j, u, hu, hm, hle, hall⟩ := ih a (nth 0 temps a) ha hr
      refine ⟨j, u, ?_, hm, le_trans hlt.le hle, fun k hk => ?_⟩
      · simpa [hottest, hlt] using hu
      · rcases List.mem_cons.1 hk with rfl | hk
        · exact hle
        · exact hall k hk
    · obtain ⟨j, u, hu, hm, hle, hall⟩ := ih h v hv hr
      refine ⟨j, u, ?_, hm, hle, fun k hk => ?_⟩
      · simpa [hottest, hlt] using hu
      · rcases List.mem_cons.1 hk with rfl | hk
        · exact le_trans (not_lt.1 hlt) hle
        · exact hall k hk

/-- The highest of 48 readings is one of them, and none is above it. -/
theorem hottest_all {temps : List Int} (h : temps.length = 48) :
    ∃ j u, hottest temps (List.range 48) none = some (j, u) ∧ u ∈ temps ∧ ∀ t ∈ temps, t ≤ u := by
  have h0 : nth 0 temps 0 ∈ temps := by
    rw [nth, List.getD_eq_getElem temps 0 (by omega)]
    exact List.getElem_mem _
  obtain ⟨j, u, hu, hm, -, hall⟩ := hottest_spec temps (List.range 48) 0 (nth 0 temps 0) h0 fun k hk => by
    rw [h]
    exact List.mem_range.1 hk
  refine ⟨j, u, ?_, hm, fun t ht => ?_⟩
  · rw [← hu]
    rw [show List.range 48 = 0 :: (List.range 47).map (· + 1) from rfl]
    simp [hottest]
  · obtain ⟨k, hk, rfl⟩ := List.getElem_of_mem ht
    rw [← List.getD_eq_getElem temps 0 hk]
    exact hall k (List.mem_range.2 (h ▸ hk))

/-- With no sensor invalid, a due sample shows the highest of its 48 readings. -/
theorem thermalAct_due {s : State} {temps : List Int} (h : 100000 ≤ since s s.pwr.thermAt) (hi : s.pwr.injTemp = none) (hlen : temps.length = 48)
    (hr : ∀ t ∈ temps, -160 ≤ t ∧ t ≤ 600) (hinv : s.pwr.invalid = []) :
    ∃ u ∈ temps, (∀ t ∈ temps, t ≤ u) ∧ sensed (thermalAct s temps).pwr = (s.time, u, []) := by
  have hdue : ¬ decide (since s s.pwr.thermAt < 100000) = true := by simpa using h
  have hinj : injected s temps = temps := by simp only [injected, hi]
  obtain ⟨j, u, hhot, hmem, hmax⟩ := hottest_all hlen
  refine ⟨u, hmem, hmax, ?_⟩
  unfold thermalAct
  rw [if_neg hdue]
  extract_lets tp bad inv s1 good best
  have hbad : ∀ k ∈ List.range 48, bad k = false := by
    intro k hk
    have hlt : k < temps.length := by rw [hlen]; exact List.mem_range.1 hk
    have hin := hr _ (List.getElem_mem hlt)
    simp only [bad, tp, hinj, List.getElem?_eq_getElem hlt]
    simp [hin.1, hin.2]
  have hnone : inv = [] := List.filter_eq_nil_iff.2 fun k hk => by rw [hbad k hk, hinv]; simp
  have hgood : good = List.range 48 := List.filter_eq_self.2 fun k _ => by rw [hnone]; rfl
  have hbest : best = some (j, u) := (show best = hottest tp good none from rfl).trans (by rw [hgood, show tp = temps from hinj]; exact hhot)
  clear_value best inv
  subst hbest hnone
  dsimp only [Option.getD_some]
  rw [sensed_emergCheck]
  rfl

/-! ## Shutdown and the phase table (R565, R571, R572) -/

/-- PWR after a shutdown. -/
def shutDown (s : State) : State := setPwr s { s.pwr with shutdown := true, hbmSelf := true, thermtrip := true }

theorem shutdownAct_eq {s : State} (h : s.pwr.shutdown = false) : shutdownAct s = fault (shutDown s) 0x60 .pwr 0 := if_neg (by rw [h]; decide)

theorem faults_fault {s : State} (h : s.safe.faults.length < 32) (cause : Nat) (b : Blk) (n : Nat) :
    ∃ r, (fault s cause b n).safe.faults = s.safe.faults ++ [r] ∧ r.cause = cause := by
  refine ⟨⟨s.time, cause, causeClass cause, blkCode b, n, 0xFF, 0xFFFF, 0, 0⟩, ?_, rfl⟩
  have hlatch (t : State) (c k : Nat) : (latchFirst t c k).safe.faults = t.safe.faults := by
    unfold latchFirst
    split
    · rfl
    · split <;> rfl
  have hawait (t : State) (r : FaultRec) : (faultAwaits t r).safe.faults = t.safe.faults := by
    unfold faultAwaits
    split <;> rfl
  have hirq (t : State) (x : Blk) (m bit : Nat) (ctx : Option Nat) : (raiseIrq t x m bit ctx).safe.faults = t.safe.faults :=
    congrArg Safe.faults (rest_keeps (irqRest_raiseIrq t x m bit ctx) State.safe)
  rw [fault, pushFault_eq, hirq, hawait, hlatch, faultKept, if_pos h]
  rfl

theorem shutdownAct_effect {s : State} (h : s.pwr.shutdown = false) :
    (shutdownAct s).pwr.shutdown = true ∧ (shutdownAct s).pwr.thermtrip = true ∧ (shutdownAct s).pwr.hbmSelf = true ∧
    isRunning (shutdownAct s) = false ∧ (shutdownAct s).hbm = s.hbm ∧
    (s.safe.faults.length < 32 → ∃ r, (shutdownAct s).safe.faults = s.safe.faults ++ [r] ∧ r.cause = 0x60) := by
  have hpwr : (shutdownAct s).pwr = (shutDown s).pwr := by
    rw [shutdownAct_eq h]
    exact safeRest_keeps (safeRest_fault _ _ _ _) State.pwr
  have hhbm : (shutdownAct s).hbm = s.hbm := by
    rw [shutdownAct_eq h]
    exact safeRest_keeps (safeRest_fault _ _ _ _) State.hbm
  have hdown : (shutdownAct s).pwr.shutdown = true := by rw [hpwr]; rfl
  refine ⟨hdown, by rw [hpwr]; rfl, by rw [hpwr]; rfl, ?_, hhbm, fun hf => ?_⟩
  · rw [isRunning, hdown, Bool.not_true, Bool.and_false]
  · rw [shutdownAct_eq h]
    exact faults_fault (s := shutDown s) hf 0x60 .pwr 0

theorem emergStepAct_due {s : State} (he : s.pwr.emerg = false) (hl : s.pwr.emergLevel ≠ 0) (h : 100000 ≤ since s s.pwr.emergAt) :
    emergStepAct s = setPwr s { s.pwr with emergLevel := s.pwr.emergLevel - 4, emergAt := s.pwr.emergAt + 100000 } := by
  have hgo : (!s.pwr.emerg && s.pwr.emergLevel != 0 && decide (100000 ≤ since s s.pwr.emergAt)) = true := by simp [he, hl, h]
  simp only [emergStepAct, hgo, if_true]

theorem hbm_clearPhase (s : State) (k : Nat) : (clearPhase s k).hbm = s.hbm := rfl

theorem hbm_phaseCtl (s : State) (v : Nat) : (phaseCtl s v).hbm = s.hbm := by
  unfold phaseCtl
  rw [apply_ite State.hbm, forAll_keeps State.hbm fun k _ t => hbm_clearPhase t k, apply_ite State.hbm, hbm_clearPhase, ite_self, ite_self]

theorem regWrite_phaseCtl {s : State} {who : Who} (h : writes s who (pw 0x318)) (v : Word) :
    regWrite s who (pw 0x318) v = phaseCtl s (v &&& BitVec.ofNat 32 0x3).toNat := by
  rw [pw, regWrite_eq_regEffect h (by decide) (by decide) (show rowSpec .pwr 0x318 = some (.wo, 0x3, 0) from rfl) (.inr rfl)]
  show pwrReg s ⟨.pwr, 0, 0x318⟩ _ = _
  rw [pwrReg, if_neg (show ¬ 0x318 = 0x184 by decide), if_neg (show ¬ 0x318 = 0x314 by decide), if_pos rfl]

/-- PHASE_CLEAR writes bit 0 and not bit 1. -/
theorem clearOne_bits (v : Word) : ((v &&& ~~~2) ||| 1) &&& BitVec.ofNat 32 0x3 = 1 := by
  rw [BitVec.and_or_distrib_right, BitVec.and_assoc]
  show v &&& 1 ||| 1 = 1
  ext i hi
  simp only [BitVec.getElem_or, BitVec.getElem_and]
  cases v[i] <;> cases (1 : Word)[i] <;> rfl

/-- Settles O48: each command is the case of its act that the premises select; what follows a change of temperature or current leaves the
sensors' readings. -/
theorem powerIsMeasuredAndLimited : Obligations.PowerIsMeasuredAndLimited := by
  intro dt s who v n code word acts temps
  dsimp only
  intro hb
  have hpoll (j c : Nat) (val : Option Nat) : exec (.pmbusPoll dt j c val) s = .next (closing s (pmbusAct (arrive dt s) j c val)) :=
    act_awake (f := fun t => pmbusAct t j c val) hb
  refine ⟨fun h => ?_, fun h hc => ?_, fun h => ?_, ⟨fun hv h0 => ⟨fun hd => ?_, fun hd => ?_⟩, fun hv hi hd => ?_, fun j hj => ?_⟩,
    fun hv hi hd hbad => ?_, fun hv => ⟨?_, fun h6 => ⟨_, statusWord_vrFault _ n h6, rfl⟩⟩, fun h hi hlen hr hinv => ?_, fun he hl h => ?_, fun h => ?_,
    fun h => ⟨⟨_, ?_, rfl⟩, ⟨_, ?_, rfl⟩, hbm_phaseCtl _ _, hbm_phaseCtl _ _⟩⟩
  · exact (act_awake (f := fun t => if since t t.pwr.tickAt < 1000000 then t else tickAct (pwrCommit t)) hb).trans (by rw [if_pos h])
  · refine ⟨tickAct (arrive dt s), ?_, tickAct_due h⟩
    refine (act_awake (f := fun t => if since t t.pwr.tickAt < 1000000 then t else tickAct (pwrCommit t)) hb).trans ?_
    rw [if_neg (Nat.not_lt.2 h), pwrCommit_none hc]
  · obtain ⟨hat, hn, hr, he, hhbm⟩ := activityAct_due h acts
    have hsum := foldl_add_cast (fun x : Nat × Nat × List Nat => rawOf (arrive dt s) x.2.2) acts 0
    exact ⟨activityAct (arrive dt s) acts, act_awake (f := fun t => activityAct t acts) hb, hat, hn, hr,
      he.trans (congrArg (fun x : Int => (arrive dt s).pwr.estSum + (estOf (arrive dt s) x + (arrive dt s).pwr.offset)) hsum.symm), hhbm⟩
  · rw [hpoll, pmbusAct_pout hv hd h0]
    rfl
  · rw [hpoll, pmbusAct_other_fails hv hd h0]
    rfl
  · rw [hpoll, pmbusAct_vout hv hd hi]
    rfl
  · rw [hpoll, pmbusAct_notDue _ hj]
  · exact ⟨_, pollsLost (arrive dt s) code, hpoll 0 code none, pmbusAct_third hv hd hi hbad, rfl, rfl⟩
  · exact (act_awake (f := fun t => pmbusAlertAct t n word) hb).trans (by rw [pmbusAlertAct, if_pos hv])
  · obtain ⟨u, hmem, hmax, hsensed⟩ := thermalAct_due h hi hlen hr hinv
    obtain ⟨hat, htj, hno⟩ : _ ∧ _ ∧ _ := by simpa only [sensed, Prod.mk.injEq] using hsensed
    refine ⟨thermalAct (arrive dt s) temps, act_awake (f := fun t => thermalAct t temps) hb, hat, ?_, ?_, hno⟩
    · rw [htj]
      exact hmem
    · rw [htj]
      exact hmax
  · rw [← emergStepAct_due he hl h]
    exact act_awake (f := emergStepAct) hb
  · exact ⟨_, act_awake (f := shutdownAct) hb, shutdownAct_effect h⟩
  · exact (exec_of_writes rfl h).trans (by rw [regWrite_phaseCtl h, clearOne_bits]; rfl)
  · exact (exec_of_writes rfl h).trans (by rw [regWrite_phaseCtl h]; rfl)

end Sys2Proof.Machine
end

section
/-! Taster windows, the comparison of copies and the age monitor (R118, R527 to R540). -/

namespace Sys2Proof.Machine
open Sys2Proof

/-! ## What writes of memory and verdicts keep -/

section
variable {β : Type} (k : State → β) (hmem : ∀ (t : State) h e, k { t with hbm := h, hbmUe := e } = k t) (hhost : ∀ (t : State) h, k { t with host := h } = k t)
include hmem hhost

theorem physWrite_keeps (s : State) (a : Phys) (l : List Byte) : k (physWrite s a l).1 = k s := by
  unfold physWrite
  split
  · split
    · exact hmem _ _ _
    · exact hmem _ _ _
  · exact hhost _ _

theorem writePieces_keeps (p : Nat) (q : List (Nat × Nat)) (l : List Byte) (s : State) : k (writePieces p q l s).1 = k s := by
  induction q generalizing l s with
  | nil => rfl
  | cons x r ih =>
    obtain ⟨va, n⟩ := x
    unfold writePieces
    split
    · rfl
    next a _ =>
      have ha := physWrite_keeps k hmem hhost s a (l.take n)
      split
      next h => rwa [h] at ha
      next h =>
        rw [h] at ha
        rw [ih, ha]

theorem vaWriteAll_keeps {s t : State} {p va : Nat} {l : List Byte} (h : vaWriteAll s p va l = .ok t) : k t = k s := by
  have hw := writePieces_keeps k hmem hhost p (piecesOf va l.length) l s
  unfold vaWriteAll vaWrite at h
  split at h
  next heq =>
    cases h
    rwa [heq] at hw
  next => cases h

variable (hirq : ∀ t u, irqRest u = irqRest t → k u = k t) (hsafe : ∀ t d, k (setSafe t d) = k t)
include hirq hsafe

theorem vDrainList_keeps (l : List Verdict) (s : State) : k (vDrainList l s).2 = k s := by
  induction l generalizing s with
  | nil => rfl
  | cons v r ih =>
    unfold vDrainList
    split
    · rfl
    · split
      next t h =>
        rw [ih, hirq _ _ (irqRest_bump _ _ _)]
        exact (hsafe _ _).trans ((hirq t _ (irqRest_setReg _ _ _)).trans (vaWriteAll_keeps k hmem hhost h))
      next => exact (hirq _ _ (irqRest_raiseErr _ _ _ _ _)).trans (hsafe s _)

theorem vDrain_keeps (s : State) : k (vDrain s) = k s := by
  have h := vDrainList_keeps k hmem hhost hirq hsafe s.safe.vheld s
  simp only [vDrain]
  split
  · exact (hirq _ _ (irqRest_raiseIrq _ _ _ _ _)).trans ((hsafe _ _).trans h)
  · exact (hsafe _ _).trans h

theorem overdue_keeps (s : State) (a : AgeSlot) (h : Option Hamper) : k (overdue s a h) = k s := by
  have hfirst (ctx : Option Nat) : k (raiseIrq (bump s (safePg + 0x818) 1) .safe 0 10 ctx) = k s :=
    hirq _ _ ((irqRest_raiseIrq _ _ _ _ _).trans (irqRest_bump _ _ _))
  unfold overdue
  extract_lets s1
  split
  · exact (vDrain_keeps k hmem hhost hirq hsafe _).trans ((hsafe _ _).trans (hfirst _))
  · exact hfirst _

end

theorem ages_overdue (s : State) (a : AgeSlot) (h : Option Hamper) : (overdue s a h).ages = s.ages :=
  overdue_keeps State.ages (fun _ _ _ => rfl) (fun _ _ => rfl) (fun _ _ e => rest_keeps e State.ages) (fun _ _ => rfl) s a h

/-! ## Taster windows (R118, R529 to R534) -/

theorem tasterStart_begins {s : State} {x : Blk} {n : Nat} (hd : (unitAt s x n).tasterDue ≠ none) (ho : (unitAt s x n).tasterOn = none)
    (hr : (unitAt s x n).run = none) :
    tasterStart s x n = crumb (setUnit s x n { unitAt s x n with tasterOn := some s.time }) (ukey x n) 7 0xFF 0 0 0 := by
  have hsome : (unitAt s x n).tasterDue.isSome = true := Option.isSome_iff_ne_none.2 hd
  simp only [tasterStart, hsome, ho, hr, Option.isNone_none, Bool.and_self, if_true]

theorem tasterStart_waits {s : State} {x : Blk} {n : Nat} (hr : (unitAt s x n).run ≠ none) : tasterStart s x n = s := by
  have hsome : (unitAt s x n).run.isNone = false := by simpa [Option.isSome_iff_ne_none] using hr
  simp only [tasterStart, hsome, Bool.and_false, Bool.false_eq_true, if_false]

section
variable {s : State} (hw : twf (fun _ => ({} : UnitSt)) s.units = true) {x : Blk} {n i : Nat} (hx : tasterIdx x n = some i)
include hw hx

/-- The unit with its window due. -/
def withDue (s : State) (x : Blk) (n i : Nat) : State :=
  setUnit s x n { unitAt s x n with tasterDue := some (BitVec.ofNat 64 (tasterDueAt s i).1), tasterIvl := (tasterDueAt s i).2 }

omit hw in
theorem tasterDueAct_due (hp : present s x n = true) (hq : (unitAt s x n).quarantined = false) (hi : (unitAt s x n).tasterIvl ≠ (tasterDueAt s i).2)
    (ht : (tasterDueAt s i).1 ≤ now s) (hd : (unitAt s x n).tasterDue = none) : tasterDueAct s x n = tasterStart (withDue s x n i) x n := by
  have hgo : (!present s x n || (unitAt s x n).quarantined || (unitAt s x n).tasterIvl == (tasterDueAt s i).2 || decide (now s < (tasterDueAt s i).1) ||
      (unitAt s x n).tasterDue.isSome) = false := by
    simp [hp, hq, hi, ht, hd]
  simp only [tasterDueAct, hx, hgo, Bool.false_eq_true, if_false, withDue]

theorem tasterDueAct_effect (hp : present s x n = true) (hq : (unitAt s x n).quarantined = false) (hi : (unitAt s x n).tasterIvl ≠ (tasterDueAt s i).2)
    (ht : (tasterDueAt s i).1 ≤ now s) (hd : (unitAt s x n).tasterDue = none) (ho : (unitAt s x n).tasterOn = none) :
    (unitAt (tasterDueAct s x n) x n).tasterDue = some (BitVec.ofNat 64 (tasterDueAt s i).1) ∧
    (unitAt (tasterDueAct s x n) x n).tasterIvl = (tasterDueAt s i).2 ∧
    (unitAt (tasterDueAct s x n) x n).tasterOn = (if (unitAt s x n).run = none then some s.time else none) ∧
    (unitAt (tasterDueAct s x n) x n).run = (unitAt s x n).run ∧ (tasterDueAct s x n).regs = s.regs ∧ (tasterDueAct s x n).hbm = s.hbm := by
  have hunit : unitAt (withDue s x n i) x n =
      { unitAt s x n with tasterDue := some (BitVec.ofNat 64 (tasterDueAt s i).1), tasterIvl := (tasterDueAt s i).2 } := unitAt_setUnit_same hw _ _ _
  have hw' : twf (fun _ => ({} : UnitSt)) (withDue s x n i).units = true := twf_tset _ _ _ hw
  rw [tasterDueAct_due hx hp hq hi ht hd]
  by_cases hr : (unitAt s x n).run = none
  · rw [tasterStart_begins (by rw [hunit]; exact Option.some_ne_none _) (by rw [hunit]; exact ho) (by rw [hunit]; exact hr), if_pos hr]
    have hset : unitAt (crumb (setUnit (withDue s x n i) x n { unitAt (withDue s x n i) x n with tasterOn := some (withDue s x n i).time })
        (ukey x n) 7 0xFF 0 0 0) x n = { unitAt (withDue s x n i) x n with tasterOn := some (withDue s x n i).time } := unitAt_setUnit_same hw' _ _ _
    rw [hset, hunit]
    exact ⟨rfl, rfl, rfl, rfl, rfl, rfl⟩
  · rw [tasterStart_waits (by rw [hunit]; exact hr), hunit, if_neg hr]
    exact ⟨rfl, rfl, ho, rfl, rfl, rfl⟩

theorem tasterBeginAct_effect (hd : (unitAt s x n).tasterDue ≠ none) (ho : (unitAt s x n).tasterOn = none) (hr : (unitAt s x n).run = none) :
    (unitAt (tasterBeginAct s x n) x n).tasterOn = some s.time ∧ (tasterBeginAct s x n).regs = s.regs ∧ (tasterBeginAct s x n).hbm = s.hbm := by
  have hset : unitAt (crumb (setUnit s x n { unitAt s x n with tasterOn := some s.time }) (ukey x n) 7 0xFF 0 0 0) x n =
      { unitAt s x n with tasterOn := some s.time } := unitAt_setUnit_same hw _ _ _
  rw [tasterBeginAct, hx, Option.isSome_some, if_pos rfl, tasterStart_begins hd ho hr, hset]
  exact ⟨rfl, rfl, rfl⟩

end

theorem regs_tasterOver (s : State) (x : Blk) (n : Nat) : (tasterOver s x n).regs = s.regs := by
  unfold tasterOver
  dsimp only
  split <;> rfl

theorem unitAt_tasterOver {s : State} (hw : twf (fun _ => ({} : UnitSt)) s.units = true) (x : Blk) (n : Nat) :
    unitAt (tasterOver s x n) x n = { unitAt s x n with tasterDue := none, tasterOn := none } := by
  have hunits : (tasterOver s x n).units = (setUnit s x n { unitAt s x n with tasterDue := none, tasterOn := none }).units := by
    unfold tasterOver
    dsimp only
    split <;> rfl
  rw [unitAt, hunits]
  exact unitAt_setUnit_same hw x n _

theorem injArmed_congr {s t : State} (h : t.regs = s.regs) (b : Blk) (n bit : Nat) : injArmed t b n bit = injArmed s b n bit := by
  rw [injArmed, regN_congr h, injArmed]

/-- Windows of a unit that have run, as its status counts them after one more (R546). -/
def windowsRun (s : State) (x : Blk) (n i : Nat) : Nat := (fld (regN (tasterOver s x n) (tasterStat i)) 16 16 + 1) % 65536

section
variable {s : State} {x : Blk} {n i : Nat} {t : DWord} (hx : tasterIdx x n = some i) (ho : (unitAt s x n).tasterOn = some t)
  (ht : 40000 ≤ (s.time - t).toNat)
include hx ho ht

theorem tasterEndAct_unfinished (sig : Option Nat) : tasterEndAct s x n false sig =
    tasterFault (setRegN (bump (crumb (tasterOver s x n) (ukey x n) 8 0xFF 0 0 0) (safePg + 0x800) 1) (tasterStat i) (windowsRun s x n i * 2 ^ 16))
      x n 0x12 0 := by
  have hover : decide ((s.time - t).toNat < 40000) = false := by simpa using ht
  simp only [tasterEndAct, hx, ho, hover, Bool.false_eq_true, if_false, Bool.not_false, if_true, windowsRun]

variable (hi : injArmed s .safe 0 1 = false)
include hi

theorem tasterEndAct_agrees : tasterEndAct s x n true none =
    setRegN (crumb (bump (tasterOver s x n) (safePg + 0x800) 1) (ukey x n) 8 0xFF 1 0 0) (tasterStat i) (1 + windowsRun s x n i * 2 ^ 16) := by
  have hover : decide ((s.time - t).toNat < 40000) = false := by simpa using ht
  have hinj : injArmed (tasterOver s x n) .safe 0 1 = false := (injArmed_congr (regs_tasterOver s x n) _ _ _).trans hi
  simp only [tasterEndAct, hx, ho, hover, hinj, Bool.false_and, Bool.false_eq_true, if_false, Bool.not_true, Bool.not_false, Option.isNone_none, Bool.and_self,
    if_true, windowsRun]

theorem tasterEndAct_differs (g : Nat) : tasterEndAct s x n true (some g) =
    tasterFault (setRegN (crumb (bump (tasterOver s x n) (safePg + 0x800) 1) (ukey x n) 8 0xFF 0 0 0) (tasterStat i) (windowsRun s x n i * 2 ^ 16))
      x n 0x10 (g % 2 ^ 64) := by
  have hover : decide ((s.time - t).toNat < 40000) = false := by simpa using ht
  have hinj : injArmed (tasterOver s x n) .safe 0 1 = false := (injArmed_congr (regs_tasterOver s x n) _ _ _).trans hi
  simp only [tasterEndAct, hx, ho, hover, hinj, Bool.false_and, Bool.false_eq_true, if_false, Bool.not_true, Option.isNone_some, windowsRun]

end

theorem tasterWedgedAct_late {s : State} {x : Blk} {n i : Nat} {t : DWord} (hx : tasterIdx x n = some i) (hd : (unitAt s x n).tasterDue = some t)
    (ho : (unitAt s x n).tasterOn = none) (ht : regN s (safePg + 0x10C) * 1000 ≤ (s.time - t).toNat) :
    tasterWedgedAct s x n = tasterFault (setUnit s x n { unitAt s x n with tasterDue := none }) x n 0x11 0 := by
  have hlate : ((unitAt s x n).tasterOn.isSome || decide ((s.time - t).toNat < regN s (safePg + 0x10C) * 1000)) = false := by
    rw [ho, decide_eq_false (Nat.not_lt.2 ht)]
    rfl
  simp only [tasterWedgedAct, hx, hd, hlate, Bool.false_eq_true, if_false]

/-! ## The comparison of copies (R536 to R540) -/

theorem spreadAll_keeps {β : Type} (k : State → β) (h : ∀ (t : State) l, k { t with hampers := l } = k t) (s : State) : k (spreadAll s) = k s := by
  have hspread (n : Nat) (t : State) : k (spread n t) = k t := by
    induction n generalizing t with
    | zero => rfl
    | succ n ih =>
      unfold spread
      dsimp only
      split
      · rfl
      · exact (ih _).trans (h _ _)
  exact hspread _ s

/-- The state in which a pair counts as compared. -/
def compared (s : State) (d : DualPair) (good : Bool) : State :=
  let t := bump s (safePg + 0x808) 1
  { t with safe := { t.safe with pairs := t.safe.pairs.map (fun x => if x = d then { d with compared := true, agreed := good } else x) } }

theorem compared_effect (s : State) (d : DualPair) (good : Bool) : (compared s d good).hbm = s.hbm ∧ (compared s d good).safe.faults = s.safe.faults ∧
    (compared s d good).safe.pairs = s.safe.pairs.map (fun x => if x = d then { d with compared := true, agreed := good } else x) := by
  have hsafe : (bump s (safePg + 0x808) 1).safe = s.safe := bump_keeps State.safe (fun _ _ => rfl) _ _ _
  refine ⟨bump_keeps State.hbm (fun _ _ => rfl) _ _ _, ?_, ?_⟩
  · show (bump s (safePg + 0x808) 1).safe.faults = _
    rw [hsafe]
  · show (bump s (safePg + 0x808) 1).safe.pairs.map _ = _
    rw [hsafe]

section
variable {s : State} {d : DualPair} {g1 g2 : Nat} (hf : s.safe.pairs.find? (fun d => !d.compared && d.prim.isSome && d.chk.isSome) = some d)
  (hi : injArmed s .safe 0 0 = false) (hp : d.prim = some (0, g1)) (hc : d.chk = some (0, g2))
include hf hi hp hc

theorem dualCompareAct_agrees (h : g1 = g2) : dualCompareAct s = spreadAll (compared s d true) := by
  subst h
  simp only [dualCompareAct, hf, hp, hc, Option.getD_some, hi, Bool.false_eq_true, if_false, Bool.not_false, beq_self_eq_true, Bool.and_self, if_true, compared]

theorem dualCompareAct_differs (h : g1 ≠ g2) : dualCompareAct s = spreadAll (dualMismatch (compared s d false) d g1 g2) := by
  simp only [dualCompareAct, hf, hp, hc, Option.getD_some, hi, Bool.false_eq_true, if_false, Bool.not_false, beq_self_eq_true, Bool.and_self, Bool.true_and,
    beq_eq_false_iff_ne.2 h, compared]

end

/-! ## The age monitor (R527) -/

theorem ageAt_congr {s t : State} (h : t.ages = s.ages) (k : Nat) : ageAt t k = ageAt s k := by rw [ageAt, h, ageAt]

theorem examineSlot_invalid {s : State} {k : Nat} (h : (ageAt s k).valid = false) : examineSlot k s = s := by
  simp only [examineSlot, h, Bool.not_false, if_true]

theorem examineSlot_overdue {s : State} {k : Nat} {h : Hamper} (hv : (ageAt s k).valid = true)
    (ho : oldestHamper s (ageAt s k).graph (ageAt s k).flow = some h) (hb : (ageAt s k).bound < ageOf s h) (hq : (ageAt s k).overdueSeq ≠ some h.seq) :
    examineSlot k s = overdue (setAge s k { ageAt s k with overdueSeq := some h.seq }) (ageAt s k) (some h) := by
  have hgo : (decide (ageOf s h ≤ (ageAt s k).bound) || (ageAt s k).overdueSeq == some h.seq) = false := by simp [hb, hq]
  simp only [examineSlot, hv, Bool.not_true, Bool.false_eq_true, if_false, ho, hgo]

theorem forAll_examineSlot_invalid {s : State} {l : List Nat} (h : ∀ k ∈ l, (ageAt s k).valid = false) : forAll l examineSlot s = s :=
  forAll_induct (P := fun t => t = s) rfl fun k hk t ht => by
    subst ht
    exact examineSlot_invalid (h k hk)

theorem ageExamineAct_unforced {s : State} (h : injArmed s .safe 0 3 = false) : ageExamineAct s = forAll (List.range 256) examineSlot s := by
  simp only [ageExamineAct, h, Bool.false_eq_true, if_false]

/-- One slot of all can be overdue: the examination is that slot's. -/
theorem forAll_examineSlot_single {s : State} (hw : twf (fun _ => ({} : AgeSlot)) s.ages = true) {k : Nat} {h : Hamper} {l : List Nat} (hl : l.Nodup)
    (hk : k ∈ l) (hother : ∀ j ∈ l, j ≠ k → (ageAt s j).valid = false) (hv : (ageAt s k).valid = true)
    (ho : oldestHamper s (ageAt s k).graph (ageAt s k).flow = some h) (hb : (ageAt s k).bound < ageOf s h) (hq : (ageAt s k).overdueSeq ≠ some h.seq) :
    forAll l examineSlot s = overdue (setAge s k { ageAt s k with overdueSeq := some h.seq }) (ageAt s k) (some h) := by
  induction l with
  | nil => exact absurd hk List.not_mem_nil
  | cons j r ih =>
    obtain ⟨hnot, hnodup⟩ := List.nodup_cons.1 hl
    by_cases hj : j = k
    · subst hj
      show forAll r examineSlot (examineSlot j s) = _
      rw [examineSlot_overdue hv ho hb hq]
      refine forAll_examineSlot_invalid fun m hm => ?_
      have hne : m ≠ j := fun e => hnot (e ▸ hm)
      rw [ageAt_congr (ages_overdue _ _ _)]
      exact (congrArg AgeSlot.valid (tget_tset_other _ j m _ hne hw)).trans (hother m (List.mem_cons_of_mem _ hm) hne)
    · show forAll r examineSlot (examineSlot j s) = _
      rw [examineSlot_invalid (hother j List.mem_cons_self hj)]
      exact ih hnodup ((List.mem_cons.1 hk).resolve_left (Ne.symm hj)) fun m hm => hother m (List.mem_cons_of_mem _ hm)

/-- Settles O45: each command is the case of its act that the premises select. -/
theorem tastersAndComparisonsTakeEffect : Obligations.TastersAndComparisonsTakeEffect := by
  intro dt s x n i
  dsimp only
  intro hw
  have hunits : twf (fun _ => ({} : UnitSt)) (arrive dt s).units = true := tblOf_wf _ _
  have hrow (f : State → Blk → State) : actLive dt (fun t => match blkOfCode (blkCode x) with | some x => f t x | none => t) s =
      .next (closing s (f (arrive dt s) x)) := by
    rw [blkOfCode_blkCode]
    exact actLive_works (f := fun t => f t x) hw
  refine ⟨fun hx hp hq hi ht hd ho => ?_, fun hx hd ho hr => ?_, fun t hx ho ht => ⟨fun sig => ?_, fun hi => ⟨?_, fun g => ?_⟩, ?_, ?_⟩,
    fun t hx hd ho ht => ?_, fun d g1 g2 hf hi hp hc => ⟨fun h => ?_, fun h => ?_⟩, fun hi hall => ?_, fun k h hi hk hother hv ho hb hq => ?_⟩
  · exact ⟨_, hrow fun t x => tasterDueAct t x n, tasterDueAct_effect hunits hx hp hq hi ht hd ho⟩
  · exact ⟨_, hrow fun t x => tasterBeginAct t x n, tasterBeginAct_effect hunits hx hd ho hr⟩
  · exact (hrow fun t x => tasterEndAct t x n false sig).trans (by rw [tasterEndAct_unfinished hx ho ht]; rfl)
  · exact (hrow fun t x => tasterEndAct t x n true none).trans (by rw [tasterEndAct_agrees hx ho ht hi]; rfl)
  · exact (hrow fun t x => tasterEndAct t x n true (some g)).trans (by rw [tasterEndAct_differs hx ho ht hi]; rfl)
  · rw [unitAt_tasterOver hunits]
  · rw [unitAt_tasterOver hunits]
  · exact (hrow fun t x => tasterWedgedAct t x n).trans (by rw [tasterWedgedAct_late hx hd ho ht])
  · obtain ⟨hhbm, hfaults, hpairs⟩ := compared_effect (arrive dt s) d true
    refine ⟨spreadAll (compared (arrive dt s) d true), ?_, ?_, ?_, ?_⟩
    · rw [← dualCompareAct_agrees hf hi hp hc h]
      exact actLive_works (f := dualCompareAct) hw
    · exact (spreadAll_keeps State.hbm (fun _ _ => rfl) _).trans hhbm
    · exact (congrArg Safe.faults (spreadAll_keeps State.safe (fun _ _ => rfl) _)).trans hfaults
    · exact (congrArg Safe.pairs (spreadAll_keeps State.safe (fun _ _ => rfl) _)).trans hpairs
  · obtain ⟨-, hfaults, hpairs⟩ := compared_effect (arrive dt s) d false
    refine ⟨_, compared (arrive dt s) d false, ?_, rfl, hfaults, hpairs⟩
    rw [← dualCompareAct_differs hf hi hp hc h]
    exact actLive_works (f := dualCompareAct) hw
  · refine (actLive_works (f := ageExamineAct) hw).trans ?_
    rw [ageExamineAct_unforced hi, forAll_examineSlot_invalid fun k hk => hall k (List.mem_range.1 hk)]
  · refine ⟨_, actLive_works (f := ageExamineAct) hw, ?_⟩
    rw [ageExamineAct_unforced hi]
    exact forAll_examineSlot_single (tblOf_wf _ _) List.nodup_range (List.mem_range.2 hk) (fun j hj => hother j (List.mem_range.1 hj)) hv ho hb hq

end Sys2Proof.Machine
end

section
/-! Movers that halt, resume, are retried, stopped or paced (R438 to R449). -/

namespace Sys2Proof.Machine
open Sys2Proof

/-! ## What sending on a connection leaves (R484, R490) -/

theorem wireRest_fillWindow (n : Nat) (s : State) (i : Nat) : wireRest (fillWindow n s i) = wireRest s := by
  induction n generalizing s with
  | zero => rfl
  | succ n ih =>
    unfold fillWindow
    dsimp only
    split
    · rfl
    · split
      · rfl
      · rw [ih, wireRest_wirePkt, wireRest_setConn]

theorem wireRest_sendConn (s : State) (i ty parts spec : Nat) (pay : List Byte) (mov addr : Nat) :
    wireRest (sendConn s i ty parts spec pay mov addr).2 = wireRest s :=
  wireRest_fillWindow 1 _ i

theorem wireRest_lastFail (s : State) (peer reason : Nat) : wireRest (lastFail s peer reason) = wireRest s := rfl

theorem wireRest_remCheck (p a : Nat) (s : State) : wireRest (remCheck p a s).2 = wireRest s := by
  simp only [remCheck]
  split
  · rfl
  · split
    · rfl
    · split
      · rfl
      · split <;> rfl

/-! ## The mover of a key -/

/-- A mover that is not the one of a fresh table reads back, whatever the table. -/
theorem movAt_setMov_of_ne (s : State) (k : Nat) {m : Mov} (h : m ≠ {}) : movAt (setMov s k m) k = m := tget_tset_ne _ k m h s.movers

theorem movAt_congr {s t : State} (h : t.movers = s.movers) (k : Nat) : movAt t k = movAt s k := by rw [movAt, h, movAt]

theorem mov_ne_of_active {m : Mov} (h : m.active ≠ none) : m ≠ {} := fun e => h (by rw [e])

theorem mov_ne_of_halted {m : Mov} (h : m.halted = true) : m ≠ {} := fun e => by rw [e] at h; cases h

theorem mov_ne_of_final {m : Mov} (h : m.final = true) : m ≠ {} := fun e => by rw [e] at h; cases h

theorem movers_bump64 (s : State) (a n : Nat) : (bump64 s a n).movers = s.movers := bump64_keeps State.movers (fun _ _ _ => rfl) s a n

theorem discardBytes_keeps {β : Type} (k : State → β) (h : ∀ (t : State) r hi, k { t with regs := r, hi := hi } = k t) (s : State) (m : Mover) (n : Nat) :
    k (discardBytes s m n) = k s := by
  unfold discardBytes
  split <;> exact bump64_keeps k h _ _ _

/-- A slot of the buffer granted changes a mover's slot alone (R443). -/
theorem movAt_grantSlots {s : State} (h : twf (fun _ => {}) s.movers = true) (k : Nat) : ∃ b, movAt (grantSlots s) k = { movAt s k with slot := b } := by
  refine (forAll_induct (P := fun t => twf (fun _ => {}) t.movers = true ∧ ∃ b, movAt t k = { movAt s k with slot := b }) ⟨h, (movAt s k).slot, rfl⟩ ?_).2
  rintro c - t ⟨hw, b, hb⟩
  refine ⟨setMov_movers_wf hw _ _, ?_⟩
  by_cases hk : k = 256 + c
  · subst hk
    exact ⟨true, by rw [movAt_setMov_same hw, hb]⟩
  · exact ⟨b, by rw [movAt_setMov_other hw hk, hb]⟩

/-! ## A halt at an element (R439) -/

theorem faultHalt_idle {s : State} {m : Mover} (h : runCmd (advance s m (movAt s (movKey m)).descs.length) m = none) :
    faultHalt s m = advance s m (movAt s (movKey m)).descs.length := by
  simp only [faultHalt, h]

section
variable {s t : State} {m : Mover} (ht : t = advance s m (movAt s (movKey m)).descs.length) {c : MovCmd} (hc : runCmd t m = some c)
include ht hc

theorem faultHalt_waits (h : (movAt t (movKey m)).halted = true ∨ (movAt t (movKey m)).remW ≠ []) : faultHalt s m = t := by
  have hgo : ((movAt t (movKey m)).halted || !(movAt t (movKey m)).remW.isEmpty) = true := by
    rcases h with h | h
    · rw [h, Bool.true_or]
    · simp [h]
  subst ht
  simp only [faultHalt, hc, hgo, if_true]

variable (hh : (movAt t (movKey m)).halted = false) (hr : (movAt t (movKey m)).remW = [])
include hh hr

omit ht hc in
theorem halt_reached : ((movAt t (movKey m)).halted || !(movAt t (movKey m)).remW.isEmpty) = false := by
  rw [hh, hr]
  rfl

theorem faultHalt_err {f n : Nat} {wr : Bool} (he : (movAt t (movKey m)).err = some (f, wr, n)) :
    faultHalt s m = if retried t m f = true then t else haltAtPos t m c (movAt t (movKey m)).pair n f wr := by
  have hgo := halt_reached hh hr
  subst ht
  simp only [faultHalt, hc, hgo, Bool.false_eq_true, if_false, he]

theorem faultHalt_bad {i f o : Nat} (he : (movAt t (movKey m)).err = none) (hb : (movAt t (movKey m)).bad = some (i, f, o))
    (hp : (movAt t (movKey m)).pair = (movAt t (movKey m)).descs.length) : faultHalt s m = haltAtPos t m c i o f false := by
  have hgo := halt_reached hh hr
  subst ht
  simp only [faultHalt, hc, hgo, Bool.false_eq_true, if_false, he, hb, if_pos hp]

theorem faultHalt_sound (he : (movAt t (movKey m)).err = none) (hb : (movAt t (movKey m)).bad = none) : faultHalt s m = t := by
  have hgo := halt_reached hh hr
  subst ht
  simp only [faultHalt, hc, hgo, Bool.false_eq_true, if_false, he, hb]

end

/-- The mover of a halt at a position: what was read beyond it is dropped (R439). -/
def haltedMov (s : State) (m : Mover) (c : MovCmd) (pair elem cause : Nat) (write : Bool) : Mov :=
  let v := movAt s (movKey m)
  let side := (v.descs[pair]?).map (fun x => if write then x.2 else x.1)
  let a := match side with
    | some d => if d.space = 3 ∨ d.space = 4 then remAddr d (d.byteAt (elemAddr d elem).toNat) else (elemAddr d elem).toNat
    | none => c.list + 128 * pair
  let sp := match side with | some d => d.space | none => b2n c.listSp
  { v with
    halted := true, cause := shownCause cause, pair := pair, elem := elem, haltAt := s.time, fltAddr := a, bad := none, err := none, buf := none
    readBytes := v.wroteBytes, asks := [], remR := [], fltInfo := b2n write + 2 * sp + 256 * c.opId }

/-- The state that a halt leaves before it is reported. -/
def haltedAt (s : State) (m : Mover) (c : MovCmd) (pair elem cause : Nat) (write : Bool) : State :=
  let v := movAt s (movKey m)
  setMov (discardBytes s m (v.readBytes - v.wroteBytes + unusedRemote v)) (movKey m) (haltedMov s m c pair elem cause write)

/-- A resumable halt is a halted mover, and its report. -/
theorem haltAtPos_keeps {β : Type} (k : State → β) (hirq : ∀ t u, irqRest u = irqRest t → k u = k t) (hdbg : ∀ (t : State) d, k { t with dbg := d } = k t)
    {s : State} {m : Mover} (c : MovCmd) {f : Nat} (pair n : Nat) (wr : Bool) (hf : resumable f = true) (hfin : (movAt s (movKey m)).final = false) :
    k (haltAtPos s m c pair n f wr) = k (haltedAt s m c pair n f wr) := by
  have hres : (resumable f && !(movAt s (movKey m)).final) = true := by rw [hf, hfin]; rfl
  unfold haltAtPos
  generalize movBlk m = blk
  obtain ⟨b, n'⟩ := blk
  dsimp only
  rw [if_pos hres]
  refine (hdbg _ _).trans ((hirq _ _ (irqRest_raiseIrq _ _ _ _ _)).trans ?_)
  have herr (o : Option Nat) (t : State) (ctx : Option Nat) : k (match o with | some e => raiseErr t b n' e ctx | none => t) = k t := by
    cases o with
    | none => rfl
    | some e => exact hirq _ _ (irqRest_raiseErr _ _ _ _ _)
  cases m with
  | ch c => exact herr _ _ _
  | nc u j => exact (hirq _ _ (irqRest_bump _ _ _)).trans (herr _ _ _)
  | vs u j => exact (hirq _ _ (irqRest_bump _ _ _)).trans (herr _ _ _)

theorem haltAtPos_resumable {s : State} {m : Mover} (c : MovCmd) {f : Nat} (pair n : Nat) (wr : Bool) (hf : f = 0x20 ∨ f = 0x21)
    (hfin : (movAt s (movKey m)).final = false) :
    (movAt (haltAtPos s m c pair n f wr) (movKey m)).halted = true ∧ (movAt (haltAtPos s m c pair n f wr) (movKey m)).cause = f ∧
    (movAt (haltAtPos s m c pair n f wr) (movKey m)).elem = n ∧ (movAt (haltAtPos s m c pair n f wr) (movKey m)).pair = pair ∧
    (movAt (haltAtPos s m c pair n f wr) (movKey m)).active = (movAt s (movKey m)).active ∧ (haltAtPos s m c pair n f wr).hbm = s.hbm := by
  have hshown : shownCause f = f := by rcases hf with rfl | rfl <;> rfl
  have hres : resumable f = true := by rcases hf with rfl | rfl <;> rfl
  have hmov : movAt (haltAtPos s m c pair n f wr) (movKey m) = haltedMov s m c pair n f wr := by
    rw [haltAtPos_keeps (movAt · (movKey m)) (fun _ _ e => rest_keeps e (movAt · (movKey m))) (fun _ _ => rfl) c pair n wr hres hfin]
    exact movAt_setMov_of_ne _ _ (mov_ne_of_halted rfl)
  have hhbm : (haltAtPos s m c pair n f wr).hbm = s.hbm := by
    rw [haltAtPos_keeps State.hbm (fun _ _ e => rest_keeps e State.hbm) (fun _ _ => rfl) c pair n wr hres hfin]
    exact discardBytes_keeps State.hbm (fun _ _ _ => rfl) _ _ _
  rw [hmov]
  exact ⟨rfl, hshown, rfl, rfl, rfl, hhbm⟩

/-! ## Resuming (R441) -/

/-- What a request for remote data leaves of a mover: its halt, its position and its commands. -/
def movPos (v : Mov) : Bool × Nat × Nat × Nat × Option MovCmd := (v.halted, v.cause, v.pair, v.elem, v.active)

theorem active_of_movPos {v w : Mov} (h : movPos v = movPos w) (ha : w.active ≠ none) : v.active ≠ none := by
  have e : v.active = w.active := congrArg (fun x : Bool × Nat × Nat × Nat × Option MovCmd => x.2.2.2.2) h
  rwa [e]

/-- A mover with units of a remote window asked for. -/
def withAsk (t : State) (k a n : Nat) : State := setMov t k { movAt t k with asks := (movAt t k).asks ++ [(a, n)] }

theorem movPos_withAsk {t : State} {k : Nat} (a n : Nat) (h : (movAt t k).active ≠ none) : movPos (movAt (withAsk t k a n) k) = movPos (movAt t k) := by
  rw [withAsk, movAt_setMov_of_ne _ _ (mov_ne_of_active (by exact h))]
  rfl

theorem remAsk_keeps {k : Nat} (p a n : Nat) {s : State} (h : (movAt s k).active ≠ none) :
    movPos (movAt (remAsk k p a n s) k) = movPos (movAt s k) ∧ (remAsk k p a n s).hbm = s.hbm := by
  have hrest := wireRest_sendConn s (remPeer a) 2 (p + 4 * remPart a) (a % 2 ^ 32 + n * 2 ^ 32 + k % 65536 * 2 ^ 48) [] (k + 1) a
  have hmov := wireRest_keeps hrest (movAt · k)
  refine ⟨(movPos_withAsk a n ?_).trans (congrArg movPos hmov), wireRest_keeps hrest State.hbm⟩
  exact fun e => h (by rw [← hmov]; exact e)

theorem askRemote_keeps {k : Nat} (c : MovCmd) (i e : Nat) (l : List (Desc × Desc)) {s : State} (h : (movAt s k).active ≠ none) :
    movPos (movAt (askRemote k c i e l s).2 k) = movPos (movAt s k) ∧ (askRemote k c i e l s).2.hbm = s.hbm := by
  induction l generalizing i e s with
  | nil => exact ⟨rfl, rfl⟩
  | cons p r ih =>
    unfold askRemote
    split
    · exact ih (i + 1) 0 h
    · have hcheck := wireRest_remCheck c.part (if p.1.space = 4 then p.1.base else p.2.base) s
      split
      next ht =>
        rw [ht] at hcheck
        exact ⟨congrArg movPos (wireRest_keeps hcheck (movAt · k)), wireRest_keeps hcheck State.hbm⟩
      next t ht =>
        rw [ht] at hcheck
        have hk : movAt t k = movAt s k := wireRest_keeps hcheck (movAt · k)
        have hall (us : List Nat) : movPos (movAt (forAll us (fun u t => remAsk k c.part (u * 64) 1 t) t) k) = movPos (movAt s k) ∧
            (forAll us (fun u t => remAsk k c.part (u * 64) 1 t) t).hbm = s.hbm := by
          refine forAll_induct (P := fun x => movPos (movAt x k) = movPos (movAt s k) ∧ x.hbm = s.hbm)
            ⟨by rw [hk], wireRest_keeps hcheck State.hbm⟩ ?_
          rintro u - x ⟨hx, hb⟩
          obtain ⟨h1, h2⟩ := remAsk_keeps c.part (u * 64) 1 (active_of_movPos hx h)
          exact ⟨h1.trans hx, h2.trans hb⟩
        obtain ⟨hpos, hhbm⟩ := hall (pairUnits c p e)
        obtain ⟨h1, h2⟩ := ih (i + 1) 0 (active_of_movPos hpos h)
        exact ⟨h1.trans hpos, h2.trans hhbm⟩

/-- The element from which a mover goes on: a reshuffle that failed on its read side starts anew (R441, R448). -/
def resumeElem (v : Mov) (c : MovCmd) : Nat := if v.elem = 0xFFFFFFFF ∨ (c.mode ≠ 0 ∧ v.fltInfo % 2 = 0) then 0 else v.elem

/-- A mover whose remote data is asked for again, with the entry that was refused. -/
def askedAgain (k : Nat) (r : Option (Nat × Nat × Nat) × State) : State :=
  match r.1 with
  | some x => setMov r.2 k { movAt r.2 k with bad := some x }
  | none => r.2

theorem askedAgain_keeps {k : Nat} {r : Option (Nat × Nat × Nat) × State} (h : (movAt r.2 k).active ≠ none) :
    movPos (movAt (askedAgain k r) k) = movPos (movAt r.2 k) ∧ (askedAgain k r).hbm = r.2.hbm := by
  unfold askedAgain
  split
  · refine ⟨?_, rfl⟩
    rw [movAt_setMov_of_ne _ _ (mov_ne_of_active (by exact h))]
    rfl
  · exact ⟨rfl, rfl⟩

/-- The state in which a mover goes on, before its data is asked for. -/
def goingOn (s : State) (k : Nat) (c : MovCmd) : State :=
  setMov s k { movAt s k with halted := false, cause := 0, retries := 0, elem := resumeElem (movAt s k) c }

section
variable {s : State} {m : Mover} {c : MovCmd} (hc : (movAt s (movKey m)).active = some c) (hh : (movAt s (movKey m)).halted = true)
  (hf : (movAt s (movKey m)).final = false)
include hc hh hf

/-- What a resume leaves beside the count of resumes. -/
theorem resumeMov_keeps {β : Type} (k : State → β) (hirq : ∀ t u, irqRest u = irqRest t → k u = k t) :
    k (resumeMov s m) = k (askedAgain (movKey m) (askRemote (movKey m) c (movAt s (movKey m)).pair (resumeElem (movAt s (movKey m)) c)
      ((movAt s (movKey m)).descs.drop (movAt s (movKey m)).pair) (goingOn s (movKey m) c))) := by
  have hgo : ¬ (!(movAt s (movKey m)).halted || (movAt s (movKey m)).final) = true := by rw [hh, hf]; decide
  cases m with
  | ch j =>
    unfold resumeMov
    dsimp only
    split
    next h => cases h.symm.trans hc
    next h =>
      cases h.symm.trans hc
      rw [if_neg hgo]
      rfl
  | nc u j =>
    unfold resumeMov
    dsimp only
    split
    next h => cases h.symm.trans hc
    next h =>
      cases h.symm.trans hc
      rw [if_neg hgo]
      exact hirq _ _ (irqRest_bump _ _ _)
  | vs u j =>
    unfold resumeMov
    dsimp only
    split
    next h => cases h.symm.trans hc
    next h =>
      cases h.symm.trans hc
      rw [if_neg hgo]
      exact hirq _ _ (irqRest_bump _ _ _)

theorem resumeMov_effect : movPos (movAt (resumeMov s m) (movKey m)) =
    (false, 0, (movAt s (movKey m)).pair, resumeElem (movAt s (movKey m)) c, some c) ∧ (resumeMov s m).hbm = s.hbm := by
  have hmov : movAt (goingOn s (movKey m) c) (movKey m) =
      { movAt s (movKey m) with halted := false, cause := 0, retries := 0, elem := resumeElem (movAt s (movKey m)) c } :=
    movAt_setMov_of_ne _ _ (mov_ne_of_active (by exact fun e => Option.some_ne_none c (hc.symm.trans e)))
  have hne : (movAt (goingOn s (movKey m) c) (movKey m)).active ≠ none := by
    rw [hmov]
    exact fun e => Option.some_ne_none c (hc.symm.trans e)
  obtain ⟨hpos, hhbm⟩ := askRemote_keeps c (movAt s (movKey m)).pair (resumeElem (movAt s (movKey m)) c)
    ((movAt s (movKey m)).descs.drop (movAt s (movKey m)).pair) hne
  obtain ⟨hpos', hhbm'⟩ := askedAgain_keeps (active_of_movPos hpos hne)
  rw [resumeMov_keeps hc hh hf (fun t => movPos (movAt t (movKey m))) fun _ _ e => rest_keeps e fun t => movPos (movAt t (movKey m)),
    resumeMov_keeps hc hh hf State.hbm fun _ _ e => rest_keeps e State.hbm]
  refine ⟨hpos'.trans (hpos.trans ?_), hhbm'.trans hhbm⟩
  rw [hmov]
  show (false, 0, _, _, (movAt s (movKey m)).active) = _
  rw [hc]

end

/-! ## A fault that becomes final (R438, R441, R442) -/

/-- The mover of a final fault, before slots are granted anew. -/
def finalMov (v : Mov) : Mov :=
  { pair := v.pair, elem := v.elem, halted := v.halted, final := true, cause := v.cause, fltAddr := v.fltAddr, fltInfo := v.fltInfo }

/-- A mover whose fault is final holds no command. -/
def FinalMov (v : Mov) : Prop := v.final = true ∧ v.active = none ∧ v.shadow = none

theorem finalMov_cutTask {s : State} {k : Nat} (h : FinalMov (movAt s k)) (ch : Nat) (r : TRef) (st : Nat) (hk : k = 256 + ch) :
    FinalMov (movAt (cutTask s ch r st) k) := by
  subst hk
  unfold cutTask
  split
  · exact h
  · rw [movAt_setMov_of_ne _ _ (mov_ne_of_final (by exact h.1))]
    exact h

theorem finalFault_final {s : State} (hw : twf (fun _ => {}) s.movers = true) (m : Mover) (cause : Nat) :
    FinalMov (movAt (finalFault s m cause) (movKey m)) := by
  unfold finalFault
  generalize movBlk m = blk
  obtain ⟨b, n⟩ := blk
  dsimp -zeta only
  extract_lets k v p s1 s2 s3 s4
  have hw1 : twf (fun _ => {}) s1.movers = true := by
    rw [discardBytes_keeps State.movers fun _ _ _ => rfl]
    exact hw
  have h2 : FinalMov (movAt s2 k) := by
    obtain ⟨x, hx⟩ := movAt_grantSlots (s := setMov (closeFlight k s1) k (finalMov v)) (setMov_movers_wf (s := closeFlight k s1) hw1 _ _) k
    rw [movAt_setMov_of_ne _ _ (mov_ne_of_final rfl)] at hx
    exact (show movAt s2 k = _ from hx) ▸ ⟨rfl, rfl, rfl⟩
  have h3 : FinalMov (movAt s3 k) := by
    rw [show movAt s3 k = movAt s2 k from rest_keeps (irqRest_raiseIrq _ _ _ _ _) (movAt · k)]
    exact h2
  have h4 : FinalMov (movAt s4 k) := by
    have hbump (t : State) : movAt (bump t (movPg m + 0x814) 1) k = movAt t k := rest_keeps (irqRest_bump _ _ _) (movAt · k)
    simp only [s4]
    split
    · cases m with
      | ch c => exact (hbump s3) ▸ h3
      | nc u j => exact h3
      | vs u j => exact h3
    · exact h3
  refine forAll_induct (P := fun t => FinalMov (movAt t k)) h4 fun c _ t ht => ?_
  cases m with
  | ch ch =>
    dsimp only
    split
    · rw [logRest_keeps (logRest_pushFinal _ _ _ _) (movAt · k)]
      exact ht
    · exact finalMov_cutTask ht ch _ _ rfl
    · exact ht
  | nc u j =>
    dsimp only
    split <;> exact ht
  | vs u j =>
    dsimp only
    split <;> exact ht

/-- The µs that a halt may last (R441). -/
def resumeLimit (s : State) (m : Mover) : Nat :=
  match m with
  | .ch _ => fld (regN s (pg .dma 0 + 0x100)) 0 20
  | _ => fld (regN s (movPg m + 0x104)) 0 20

theorem resumeExpire_due {s : State} {m : Mover} (hh : (movAt s (movKey m)).halted = true) (hf : (movAt s (movKey m)).final = false) {lim : Nat}
    (hlim : lim = resumeLimit s m) (h0 : lim ≠ 0) (ht : lim * 1000 ≤ (s.time - (movAt s (movKey m)).haltAt).toNat) :
    resumeExpire s m = finalFault s m (movAt s (movKey m)).cause := by
  have hgo : ((movAt s (movKey m)).halted && !(movAt s (movKey m)).final && lim != 0 &&
      decide (lim * 1000 ≤ (s.time - (movAt s (movKey m)).haltAt).toNat)) = true := by
    rw [hh, hf, decide_eq_true ht, bne_iff_ne.2 h0]
    rfl
  unfold resumeExpire
  cases m <;> subst hlim <;> exact if_pos hgo

/-! ## A copy stopped, a transfer retried, a paced burst (R445, R446, R449) -/

theorem movAt_nextCmd {s : State} (hw : twf (fun _ => {}) s.movers = true) (m : Mover) (c : Option MovCmd) :
    (movAt (nextCmd s m c) (movKey m)).active = c ∧ (movAt (nextCmd s m c) (movKey m)).shadow = none := by
  cases c with
  | some c =>
    obtain ⟨hact, hsh⟩ := grantSlots_commands (withActive_movers_wf hw (movKey m) c) (movKey m)
    rw [movAt_withActive hw] at hact hsh
    rw [nextCmd_some]
    exact ⟨hact, hsh⟩
  | none =>
    have hw' : twf (fun _ => {}) (closeFlight (movKey m) s).movers = true := hw
    obtain ⟨hact, hsh⟩ := grantSlots_commands (setMov_movers_wf hw' (movKey m) { startCmd none with cut := (movAt s (movKey m)).cut }) (movKey m)
    rw [movAt_setMov_same hw'] at hact hsh
    exact ⟨hact, hsh⟩

theorem stopCh_effect {s : State} (hw : twf (fun _ => {}) s.movers = true) {ch : Nat} {d : MovCmd} (ha : (movAt s (256 + ch)).active = some d)
    (hc : d.copy ≠ none) : (movAt (stopCh s ch) (256 + ch)).active = (movAt s (256 + ch)).shadow ∧ (movAt (stopCh s ch) (256 + ch)).shadow = none := by
  have hcopy : ¬ d.copy.isNone = true := by simpa using hc
  have hstop : stopCh s ch = pushFinal (cancelCopy s ch) d.handle stCancelled (blkCode .dma) := by simp only [stopCh, ha, if_neg hcopy]
  have hdisc : (discardBytes s (.ch ch) (unwritten (movAt s (256 + ch)))).movers = s.movers := discardBytes_keeps State.movers (fun _ _ _ => rfl) _ _ _
  rw [hstop, logRest_keeps (logRest_pushFinal _ _ _ _) (movAt · (256 + ch))]
  exact movAt_nextCmd (by rw [hdisc]; exact hw) (.ch ch) _

section
variable {s t : State} {ch : Nat} (ht : t = advance s (.ch ch) (movAt s (256 + ch)).descs.length)
include ht

theorem dmaRetryAct_sound (h : (movAt t (256 + ch)).err = none) : dmaRetryAct s ch = t := by
  subst ht
  simp only [dmaRetryAct, h]

theorem dmaRetryAct_err {f n : Nat} {wr : Bool} (h : (movAt t (256 + ch)).err = some (f, wr, n)) : dmaRetryAct s ch =
    if ((movAt t (256 + ch)).halted || !retried t (.ch ch) f) = true then t
    else advance (bump (setMov t (256 + ch) { movAt t (256 + ch) with retries := (movAt t (256 + ch)).retries + 1, err := none }) (pg .dma 0 + 0x810) 1)
      (.ch ch) (movAt t (256 + ch)).descs.length := by
  subst ht
  unfold dmaRetryAct
  dsimp only
  split
  next h' => cases h'.symm.trans h; rfl
  next h' => cases h'.symm.trans h

theorem dmaRetryAct_stays {f n : Nat} {wr : Bool} (he : (movAt t (256 + ch)).err = some (f, wr, n))
    (h : (movAt t (256 + ch)).halted = true ∨ retried t (.ch ch) f = false) : dmaRetryAct s ch = t :=
  (dmaRetryAct_err ht he).trans (if_pos (by rcases h with h | h <;> simp [h]))

theorem dmaRetryAct_again {f n : Nat} {wr : Bool} (he : (movAt t (256 + ch)).err = some (f, wr, n)) (hh : (movAt t (256 + ch)).halted = false)
    (hr : retried t (.ch ch) f = true) : dmaRetryAct s ch =
      advance (bump (setMov t (256 + ch) { movAt t (256 + ch) with retries := (movAt t (256 + ch)).retries + 1, err := none }) (pg .dma 0 + 0x810) 1)
        (.ch ch) (movAt t (256 + ch)).descs.length :=
  (dmaRetryAct_err ht he).trans (if_neg (by simp [hh, hr]))

end

theorem burstAct_idle {s : State} {ch : Nat} (line : Bool)
    (h : movable s (.ch ch) = none ∨ pacedCh s (.ch ch) = false ∨ (movAt s (256 + ch)).descs.length ≤ (movAt s (256 + ch)).pair) : burstAct s ch line = s := by
  unfold burstAct
  dsimp only
  split
  · rfl
  next c hc =>
    refine if_pos ?_
    rcases h with h | h | h
    · rw [hc] at h
      cases h
    · rw [h]
      rfl
    · rw [decide_eq_true h, Bool.or_true]

section
variable {s : State} {ch : Nat} {d : MovCmd} (line : Bool) (hm : movable s (.ch ch) = some d) (hp : pacedCh s (.ch ch) = true)
  (hd : (movAt s (256 + ch)).pair < (movAt s (256 + ch)).descs.length)
include hm hp hd

omit hm in
theorem burst_due : (!pacedCh s (.ch ch) || decide ((movAt s (256 + ch)).descs.length ≤ (movAt s (256 + ch)).pair)) = false := by
  rw [hp, decide_eq_false (Nat.not_le.2 hd)]
  rfl

theorem burstAct_low (hr : reqLine s ch = false) : burstAct s ch line = setMov s (256 + ch) { movAt s (256 + ch) with reqWait := true } := by
  simp only [burstAct, hm, burst_due hp hd, Bool.false_eq_true, if_false, hr, Bool.not_false, if_true]

/-- The state after one burst of a channel. -/
def bursted (s : State) (ch : Nat) (d : MovCmd) : State :=
  let v := movAt s (256 + ch)
  runMov (.ch ch) d v.descs.length (v.descs.length + 1) (some (512 * max 1 (fld (app s (pg .dma 0 + 0x204 + 0x20 * ch)) 16 16))) s

theorem burstAct_high (hr : reqLine s ch = true) : burstAct s ch line = if (movAt (bursted s ch d) (256 + ch)).err.isSome = true then bursted s ch d
    else if line = true then setMov (bursted s ch d) (256 + ch) { movAt (bursted s ch d) (256 + ch) with reqWait := false }
    else bump (setMov (bursted s ch d) (256 + ch) { movAt (bursted s ch d) (256 + ch) with reqWait := false }) (pg .dma 0 + 0x818) 1 := by
  simp only [burstAct, hm, burst_due hp hd, Bool.false_eq_true, if_false, hr, Bool.not_true, bursted]
  rfl

theorem burstAct_fails (hr : reqLine s ch = true) (he : (movAt (bursted s ch d) (256 + ch)).err ≠ none) : burstAct s ch line = bursted s ch d :=
  (burstAct_high line hm hp hd hr).trans (if_pos (Option.isSome_iff_ne_none.2 he))

theorem burstAct_written (hr : reqLine s ch = true) (he : (movAt (bursted s ch d) (256 + ch)).err = none) : burstAct s ch line =
    if line = true then setMov (bursted s ch d) (256 + ch) { movAt (bursted s ch d) (256 + ch) with reqWait := false }
    else bump (setMov (bursted s ch d) (256 + ch) { movAt (bursted s ch d) (256 + ch) with reqWait := false }) (pg .dma 0 + 0x818) 1 :=
  (burstAct_high line hm hp hd hr).trans (if_neg (by rw [he]; decide))

end

/-! ## Control registers of movers (R441, R449) -/

theorem ofNat_and_streamMask {j : Nat} (h : j < 32) : (BitVec.ofNat 32 j &&& BitVec.ofNat 32 0x1F).toNat = j := by
  rw [BitVec.toNat_and, BitVec.toNat_ofNat, BitVec.toNat_ofNat, Nat.mod_eq_of_lt (a := j) (by omega)]
  exact (Nat.and_two_pow_sub_one_eq_mod j 5).trans (Nat.mod_eq_of_lt h)

theorem regWrite_ncseResume {s : State} {who : Who} {u j : Nat} (hu : u < 8) (hj : j < 16) (h : writes s who (pg .ncse u + 0x108)) :
    regWrite s who (pg .ncse u + 0x108) (BitVec.ofNat 32 j) = resumeMov s (.nc u j) := by
  rw [regWrite_eq_regEffect h hu (by decide) (show rowSpec .ncse 0x108 = some (.wo, 0x1F, 0) from rfl) (.inr rfl)]
  simp only [regEffect, if_true, ofNat_and_streamMask (show j < 32 by omega), Nat.mod_eq_of_lt hj]

theorem regWrite_vseResume {s : State} {who : Who} {u j : Nat} (hu : u < 4) (hj : j < 32) (h : writes s who (pg .vse u + 0x108)) :
    regWrite s who (pg .vse u + 0x108) (BitVec.ofNat 32 j) = resumeMov s (.vs u j) := by
  rw [regWrite_eq_regEffect h hu (by decide) (show rowSpec .vse 0x108 = some (.wo, 0x1F, 0) from rfl) (.inr rfl)]
  simp only [regEffect, if_true, ofNat_and_streamMask hj, Nat.mod_eq_of_lt hj]

theorem rowSpec_chCtl : ∀ c < 32, rowSpec .dma (0x21C + 0x20 * c) = some (.wo, 0x3, c) := by decide

/-- CHc_CTL written: RESUME is bit 0, STOP bit 1. -/
theorem regWrite_chCtl {s : State} {who : Who} {c : Nat} (hc : c < 32) (h : writes s who (pg .dma 0 + 0x21C + 0x20 * c)) (v : Word) :
    regWrite s who (pg .dma 0 + 0x21C + 0x20 * c) v = dmaReg s ⟨.dma, 0, 0x21C + 0x20 * c⟩ c (v &&& BitVec.ofNat 32 0x3) := by
  rw [Nat.add_assoc] at h ⊢
  exact regWrite_eq_regEffect h (by decide) (by simp only [blkPlace]; omega) (rowSpec_chCtl c hc) (.inr rfl) v

theorem dmaReg_ctl {s : State} {c : Nat} (v : Word) : dmaReg s ⟨.dma, 0, 0x21C + 0x20 * c⟩ c v =
    if bitOf v.toNat 1 then stopCh (if bitOf v.toNat 0 then resumeMov s (.ch c) else s) c else if bitOf v.toNat 0 then resumeMov s (.ch c) else s := by
  have h1 : ¬ 0x21C + 0x20 * c < 0x200 := by omega
  have h2 : ¬ (0x21C + 0x20 * c - 0x200) % 0x20 = 0 := by omega
  simp only [dmaReg, if_neg h1, if_neg h2]

theorem regWrite_chResume {s : State} {who : Who} {c : Nat} (hc : c < 32) (h : writes s who (pg .dma 0 + 0x21C + 0x20 * c)) :
    regWrite s who (pg .dma 0 + 0x21C + 0x20 * c) 1 = resumeMov s (.ch c) := by
  rw [regWrite_chCtl hc h, dmaReg_ctl]
  rfl

theorem regWrite_chStop {s : State} {who : Who} {c : Nat} (hc : c < 32) (h : writes s who (pg .dma 0 + 0x21C + 0x20 * c)) :
    regWrite s who (pg .dma 0 + 0x21C + 0x20 * c) 2 = stopCh s c := by
  rw [regWrite_chCtl hc h, dmaReg_ctl]
  rfl

/-- Operator of the command in a mover's active slot. -/
def movOp (v : Mov) : Nat := match v.active with | some c => c.opId | none => 0

/-- The state in which a mover acts on behalf of its command. -/
def asMover (m : Mover) (s : State) : State := asActor (movBlk m).1 (movBlk m).2 (movOp (movAt s (movKey m))) s

/-- A mover that is there runs its row as the actor of its command. -/
theorem actLive_onMover {dt : Nat} {s : State} {m : Mover} (f : State → State) (hw : Works (arrive dt s)) (h : movPresent (arrive dt s) m = true)
    {u : State} (hu : f (asMover m (arrive dt s)) = u) : actLive dt (fun t => onMover m f t) s = .next (closing s u) := by
  rw [actLive_works (f := fun t => onMover m f t) hw, ← hu]
  exact congrArg (fun x => Host.Outcome.next (closing s x)) (if_pos h)

theorem bursted_asMover (s : State) (m : Mover) (ch : Nat) (d : MovCmd) : bursted (asMover m s) ch d =
    runMov (.ch ch) d (movAt s (256 + ch)).descs.length ((movAt s (256 + ch)).descs.length + 1)
      (some (512 * max 1 (fld (app s (pg .dma 0 + 0x204 + 0x20 * ch)) 16 16))) (asMover m s) := rfl

theorem movPos_iff {v : Mov} {p e : Nat} {a : Option MovCmd} (h : movPos v = (false, 0, p, e, a)) :
    v.halted = false ∧ v.cause = 0 ∧ v.pair = p ∧ v.active = a ∧ v.elem = e := by
  simp only [movPos, Prod.mk.injEq] at h
  obtain ⟨h1, h2, h3, h4, h5⟩ := h
  exact ⟨h1, h2, h3, h5, h4⟩

/-- Settles O43: the cases of `faultHalt`, `resumeMov`, `resumeExpire`, `stopCh`, `dmaRetryAct` and `burstAct`. -/
theorem haltedMoversResumeOrEnd : Obligations.HaltedMoversResumeOrEnd := by
  intro dt s who m
  have hwf : twf (fun _ => ({} : Mov)) (arrive dt s).movers = true := tblOf_wf _ _
  dsimp only
  refine ⟨fun hw hp => ?_, fun hh hf ha => ?_, ?_, ?_⟩
  · have hrow {u : State} (hu : faultHalt (asMover m (arrive dt s)) m = u) : exec (.faultHalt dt m) s = .next (closing s u) :=
      actLive_onMover (fun x => faultHalt x m) hw hp hu
    generalize arrive dt s = b at *
    refine ⟨fun h => hrow (faultHalt_idle h), fun c hc => ⟨fun h => hrow (faultHalt_waits rfl hc h), fun hh hr => ⟨fun f wr n he =>
      ⟨fun h => hrow ((faultHalt_err rfl hc hh hr he).trans (if_pos h)), fun h => ⟨hrow ((faultHalt_err rfl hc hh hr he).trans (if_neg ?_)),
        fun hres hfin => haltAtPos_resumable c _ n wr hres hfin⟩⟩, fun he i f o hb hpair => hrow (faultHalt_bad rfl hc hh hr he hb hpair),
      fun he hb => hrow (faultHalt_sound rfl hc hh hr he hb)⟩⟩⟩
    exact Bool.eq_false_iff.1 h
  · obtain ⟨c, hc⟩ := Option.ne_none_iff_exists'.1 ha
    obtain ⟨hpos, hhbm⟩ := resumeMov_effect hc hh hf
    obtain ⟨h1, h2, h3, h4, h5⟩ := movPos_iff hpos
    refine ⟨fun u j hm hu hj hwr => ?_, fun u j hm hu hj hwr => ?_, fun j hm hj hwr => ?_, fun hw hp lim hlim h0 ht => ?_⟩
    · subst hm
      refine ⟨_, (exec_of_writes rfl hwr).trans (by rw [regWrite_ncseResume hu hj hwr]), h1, h2, h3, h4.trans hc.symm, fun d hd he hmode => ?_, hhbm⟩
      obtain rfl : d = c := Option.some.inj (hd.symm.trans hc)
      rw [h5, resumeElem, if_neg]
      rintro (h | ⟨hm, hi⟩)
      · exact he h
      · rcases hmode with hmode | hmode
        · exact hm hmode
        · omega
    · subst hm
      exact ⟨_, (exec_of_writes rfl hwr).trans (by rw [regWrite_vseResume hu hj hwr]), h1, h2, h3, h4.trans hc.symm, hhbm⟩
    · subst hm
      exact ⟨_, (exec_of_writes rfl hwr).trans (by rw [regWrite_chResume hj hwr]), h1, h2, h3, h4.trans hc.symm, hhbm⟩
    · exact ⟨actLive_onMover (fun x => resumeExpire x m) hw hp (resumeExpire_due hh hf hlim h0 ht),
        finalFault_final (s := asMover m (arrive dt s)) hwf m _⟩
  · rintro j d x rfl hj ha hcopy hwr
    refine ⟨(exec_of_writes rfl hwr).trans (by rw [regWrite_chStop hj hwr]), stopCh_effect hwf ha ?_⟩
    rw [hcopy]
    exact Option.some_ne_none x
  · rintro hw j rfl hp
    have hretry {u : State} (hu : dmaRetryAct (asMover (.ch j) (arrive dt s)) j = u) : exec (.dmaRetry dt j) s = .next (closing s u) :=
      actLive_onMover (fun x => dmaRetryAct x j) hw hp hu
    have hburst {u : State} (line : Bool) (hu : burstAct (asMover (.ch j) (arrive dt s)) j line = u) :
        exec (.dmaBurst dt j line) s = .next (closing s u) :=
      actLive_onMover (fun x => burstAct x j line) hw hp hu
    generalize arrive dt s = b at *
    refine ⟨fun he => hretry (dmaRetryAct_sound rfl he), fun f wr n he => ⟨fun h => hretry (dmaRetryAct_stays rfl he h),
      fun hh hr => hretry (dmaRetryAct_again rfl he hh hr)⟩, fun line h => hburst line (burstAct_idle line h),
      fun d line hm hpace hd => ⟨fun hr => hburst line (burstAct_low line hm hpace hd hr), fun hr =>
        ⟨fun he => hburst line ?_, fun he => hburst line ?_⟩⟩⟩
    · have he' : (movAt (bursted (asMover (.ch j) b) j d) (256 + j)).err ≠ none := by
        rw [bursted_asMover]
        exact he
      have h := burstAct_fails (s := asMover (.ch j) b) line hm hpace hd hr he'
      rw [bursted_asMover] at h
      exact h
    · have he' : (movAt (bursted (asMover (.ch j) b) j d) (256 + j)).err = none := by
        rw [bursted_asMover]
        exact he
      have h := burstAct_written (s := asMover (.ch j) b) line hm hpace hd hr he'
      rw [bursted_asMover] at h
      exact h

end Sys2Proof.Machine
end

section
/-! What reports, logs, verdicts and trace records leave unchanged, and triggers, formation and release (R101 to R128, R580 to R596). -/

namespace Sys2Proof.Machine
open Sys2Proof

/-! ## The state aside from what reports, logs, verdicts and trace records change -/

/-- The state with everything cleared that an interrupt, a counter, a log, a verdict, a fault record or a trace record may change. -/
def outRest (s : State) : State := { logRest s with safe := {}, dbg := {}, pwr := {}, hi := [] }

theorem outRest_of_logRest {s t : State} (h : logRest t = logRest s) : outRest t = outRest s :=
  congrArg (fun u : State => { u with safe := {}, dbg := {}, pwr := {}, hi := [] }) h

theorem outRest_of_rest {s t : State} (h : irqRest t = irqRest s) : outRest t = outRest s :=
  (congrArg outRest h : outRest (irqRest t) = outRest (irqRest s))

theorem outRest_of_resultRest {s t : State} (h : resultRest t = resultRest s) : outRest t = outRest s :=
  congrArg (fun u : State => { u with dbg := {}, pwr := {}, hi := [] }) h

theorem outRest_of_safeRest {s t : State} (h : safeRest t = safeRest s) : outRest t = outRest s :=
  (congrArg outRest h : outRest (safeRest t) = outRest (safeRest s))

theorem outRest_of_countRest {s t : State} (h : countRest t = countRest s) : outRest t = outRest s :=
  (congrArg outRest h : outRest (countRest t) = outRest (countRest s))

theorem outRest_keeps {α : Type} {s t : State} (h : outRest t = outRest s) (f : State → α) (hf : ∀ u, f (outRest u) = f u := by intro _; rfl) :
    f t = f s := by
  rw [← hf t, h, hf s]

@[simp] theorem outRest_setReg (s : State) (a : Nat) (v : Word) : outRest (setReg s a v) = outRest s := rfl
@[simp] theorem outRest_setRegN (s : State) (a n : Nat) : outRest (setRegN s a n) = outRest s := rfl
@[simp] theorem outRest_setReg64 (s : State) (lo hi v : Nat) : outRest (setReg64 s lo hi v) = outRest s := rfl
@[simp] theorem outRest_orReg (s : State) (a m : Nat) : outRest (orReg s a m) = outRest s := rfl
@[simp] theorem outRest_clrReg (s : State) (a m : Nat) : outRest (clrReg s a m) = outRest s := rfl
@[simp] theorem outRest_setSafe (s : State) (d : Safe) : outRest (setSafe s d) = outRest s := rfl
@[simp] theorem outRest_dbg (s : State) (d : Dbg) : outRest { s with dbg := d } = outRest s := rfl
@[simp] theorem outRest_pwr (s : State) (w : Pwr) : outRest { s with pwr := w } = outRest s := rfl
@[simp] theorem outRest_crumb (s : State) (key event part arg op seq : Nat) : outRest (crumb s key event part arg op seq) = outRest s := rfl
@[simp] theorem outRest_setAge (s : State) (n : Nat) (a : AgeSlot) : outRest (setAge s n a) = outRest s := rfl

@[simp] theorem outRest_raiseIrq (s : State) (b : Blk) (n bit : Nat) (ctx : Option Nat) : outRest (raiseIrq s b n bit ctx) = outRest s :=
  outRest_of_logRest (logRest_raiseIrq s b n bit ctx)

@[simp] theorem outRest_raiseErr (s : State) (b : Blk) (n bit : Nat) (ctx : Option Nat) : outRest (raiseErr s b n bit ctx) = outRest s :=
  outRest_of_logRest (logRest_raiseErr s b n bit ctx)

@[simp] theorem outRest_bump (s : State) (a n : Nat) : outRest (bump s a n) = outRest s := outRest_of_logRest (logRest_bump s a n)

@[simp] theorem outRest_fault (s : State) (cause : Nat) (b : Blk) (n : Nat) : outRest (fault s cause b n) = outRest s :=
  outRest_of_safeRest (safeRest_fault s cause b n)

@[simp] theorem outRest_pushCpl (s : State) (p : Nat) (r : Cpl) : outRest (pushCpl s p r) = outRest s := outRest_of_logRest (logRest_pushCpl s p r)

@[simp] theorem outRest_pushFinal (s : State) (h st src : Nat) : outRest (pushFinal s h st src) = outRest s :=
  outRest_of_logRest (logRest_pushFinal s h st src)

@[simp] theorem outRest_dlogPut (s : State) (p kind subj seq a0 a1 : Nat) : outRest (dlogPut s p kind subj seq a0 a1) = outRest s :=
  outRest_of_logRest (logRest_dlogPut s p kind subj seq a0 a1)

@[simp] theorem outRest_bump64 (s : State) (a n : Nat) : outRest (bump64 s a n) = outRest s := outRest_of_countRest (countRest_bump64 s a n)

theorem outRest_vaWriteAll {s t : State} {p va : Nat} {l : List Byte} (h : vaWriteAll s p va l = .ok t) : outRest t = outRest s :=
  outRest_of_logRest (logRest_vaWriteAll h)

@[simp] theorem outRest_gcCount (s : State) (ev : Nat) (b : Blk) (n p k : Nat) : outRest (gcCount s ev b n p k) = outRest s := by
  unfold gcCount
  refine forAll_keeps outRest (fun c _ t => ?_) s
  dsimp only
  split
  · exact outRest_bump64 ..
  · rfl

/-! ## Trace records -/

@[simp] theorem outRest_sinkLose (s : State) (k : Nat) : outRest (sinkLose s k) = outRest s := by
  simp only [sinkLose]
  rw [outRest_raiseIrq, outRest_dbg, outRest_bump]

@[simp] theorem outRest_sinkFault (s : State) (k : Nat) : outRest (sinkFault s k) = outRest s := by
  simp only [sinkFault]
  rw [outRest_raiseErr, outRest_dbg, outRest_sinkLose, outRest_clrReg]

@[simp] theorem outRest_sinkStore (s : State) (k : Nat) (r : Trace) : outRest (sinkStore s k r) = outRest s := by
  simp only [sinkStore]
  split
  next h => exact (outRest_setReg _ _ _).trans (outRest_vaWriteAll h)
  next => exact outRest_sinkFault s k

@[simp] theorem outRest_sinkOwed (s : State) (k : Nat) : outRest (sinkOwed s k) = outRest s := by
  simp only [sinkOwed]
  split
  · rfl
  · split
    · exact (outRest_dbg _ _).trans (outRest_sinkStore s k _)
    · exact outRest_sinkStore s k _

@[simp] theorem outRest_sinkPut (s : State) (k : Nat) (r : Trace) : outRest (sinkPut s k r) = outRest s := by
  simp only [sinkPut]
  split
  · exact (outRest_sinkLose _ k).trans (outRest_sinkOwed s k)
  · exact (outRest_sinkStore _ k r).trans (outRest_sinkOwed s k)

@[simp] theorem outRest_toSinks (s : State) (r : Trace) : outRest (toSinks s r) = outRest s := by
  refine forAll_keeps outRest (fun k _ t => ?_) s
  split
  · exact outRest_sinkPut t k r
  · split
    · exact outRest_sinkLose t k
    · rfl

@[simp] theorem outRest_haltAll (s : State) : outRest (haltAll s) = outRest s :=
  forAll_keeps outRest (fun _ _ t => forAll_keeps outRest (fun _ _ u => outRest_raiseIrq u _ _ _ _) t) s

@[simp] theorem outRest_takeStop (s : State) (src : Nat) : outRest (takeStop s src) = outRest s := by
  unfold takeStop
  split
  · rfl
  · split
    · exact outRest_raiseErr ..
    · extract_lets s1 s2 s3 s4
      rw [outRest_haltAll, outRest_pwr, outRest_raiseIrq, outRest_raiseIrq, outRest_setReg64, outRest_clrReg, outRest_orReg, outRest_dbg,
        outRest_setReg64, outRest_setRegN]

@[simp] theorem outRest_reqFreeze (s : State) (f : Bool) : outRest (reqFreeze s f) = outRest s := by
  simp only [reqFreeze]
  split
  · rfl
  · split
    · rw [outRest_setReg64, outRest_orReg, outRest_dbg]
    · rw [outRest_orReg, outRest_dbg]

@[simp] theorem outRest_trigFire (s : State) (r : Trace) : outRest (trigFire s r) = outRest s := by
  simp only [trigFire]
  have h (q : Trace) : outRest (toSinks (raiseIrq (setRegN (clrReg s (dbgPg + 0x120) (2 ^ 31)) (dbgPg + 0x128) 1) .dbg 0 9 none) q) = outRest s := by
    rw [outRest_toSinks, outRest_raiseIrq, outRest_setRegN, outRest_clrReg]
  split
  · exact (outRest_reqFreeze _ _).trans (h _)
  · exact (outRest_takeStop _ _).trans (h _)
  · exact (forAll_keeps outRest (fun _ _ t => outRest_clrReg t _ _) _).trans (h _)
  · exact h _

/-- A trace record reaches registers, memory and what DBG keeps, and may stop the device; it touches nothing else (R583 to R596). -/
@[simp] theorem outRest_emit (s : State) (r : Trace) : outRest (emit s r) = outRest s := by
  have h := (outRest_toSinks (bump s (dbgPg + 0xA00) 1) r).trans (outRest_bump s _ _)
  simp only [emit]
  split
  · exact (outRest_trigFire _ r).trans h
  · exact h

@[simp] theorem outRest_fgsTrace (s : State) (kind : Nat) (g : Graph) (f : Nat) (q : Word) (a0 a1 : Nat) :
    outRest (fgsTrace s kind g f q a0 a1) = outRest s := outRest_emit s _

end Sys2Proof.Machine
end

section
/-! Triggers, formation and release (R101 to R128). -/

namespace Sys2Proof.Machine
open Sys2Proof

/-- An interrupt's bit of BLK_IRQ_STAT reads 1 once it is raised, whether it stood before or not. -/
theorem bitOf_raiseIrq {s : State} (hs : twf regRst s.regs = true) {b : Blk} {n : Nat} (hn : n < blkCount b) {bit : Nat} (hb : bit < 32)
    (ctx : Option Nat) : bitOf (regN (raiseIrq s b n bit ctx) (pg b n + 0x10)) bit = true := by
  unfold raiseIrq
  extract_lets q s1 s2
  have ha : OffPba q := offPba_page hn (headerOffset_lt_window b (by decide))
  have h2 : bitOf (regN s2 q) bit = true := bitOf_orReg_same hs _ hb
  have hs2 : twf regRst s2.regs = true := setReg_wf hs q _
  clear_value s2
  split
  · assumption
  · split
    · rw [regN, reg_deliver hs2 ha]
      exact h2
    · exact h2

theorem reg_bump_same {s : State} (hs : twf regRst s.regs = true) (hf : frozen s = false) (a n : Nat) :
    reg (bump s a n) a = reg s a + BitVec.ofNat 32 n := by
  unfold bump
  rw [if_neg (by simp [hf])]
  exact reg_setReg_same hs a _

/-! ## TIMER_TRIGGER -/

section
variable {s : State} {g f : Nat}

/-- The state in which a timer's tick count has advanced. -/
def ticked (s : State) (g f : Nat) : State :=
  modFlow s g f (fun y => { y with ticks := (flowAt (graphAt s g) f).ticks + 1 })

/-- What follows the tick: a reservation where there is room, a missed instant where not (R101, R109). -/
theorem timerAct_due (hstat : (graphAt s g).stat = .started) (hkind : (trigOf (graphAt s g) f).kind = 2) (hstop : (flowAt (graphAt s g) f).stopped = false)
    (hdue : tickTime (graphAt s g) (trigOf (graphAt s g) f) (flowAt (graphAt s g) f).ticks ≤ now s) :
    timerAct s g f = if roomFor s g f then
        reserve (ticked s g f) g f { seq := BitVec.ofNat 32 (flowAt (graphAt s g) f).ticks
                                     stamp := BitVec.ofNat 64 (tickTime (graphAt s g) (trigOf (graphAt s g) f) (flowAt (graphAt s g) f).ticks) }
      else raiseIrq (bump (ticked s g f) (fgsCnt (graphAt s g).part 0x14) 1) .fgs 0 10 (some (graphAt s g).part) := by
  have hnow := decide_eq_false (Nat.not_lt.2 hdue)
  simp only [timerAct, hstat, hkind, hstop, hnow, bne_self_eq_false, Bool.or_self, Bool.false_eq_true, if_false]
  rfl

theorem flowAt_ticked (hs : twf (fun _ => ({} : Graph)) s.graphs = true) (hf : f < (graphAt s g).flows.length) :
    flowAt (graphAt (ticked s g f) g) f = { flowAt (graphAt s g) f with ticks := (flowAt (graphAt s g) f).ticks + 1 } :=
  (flowAt_modFlow hs hf _).1

theorem length_modNth {α : Type} (k : α → α) (i : Nat) (l : List α) : (modNth k i l).length = l.length := by
  induction l generalizing i with
  | nil => cases i <;> rfl
  | cons x l ih =>
    cases i with
    | zero => rfl
    | succ i => exact congrArg (· + 1) (ih i)

theorem flows_length_ticked (hs : twf (fun _ => ({} : Graph)) s.graphs = true) : (graphAt (ticked s g f) g).flows.length = (graphAt s g).flows.length := by
  rw [ticked, modFlow, graphAt_setGraph_same hs]
  exact length_modNth _ _ _

theorem flowAt_reserve (hs : twf (fun _ => ({} : Graph)) s.graphs = true) (hf : f < (graphAt s g).flows.length) (r : Resv) :
    flowAt (graphAt (reserve s g f r) g) f = { flowAt (graphAt s g) f with resv := (flowAt (graphAt s g) f).resv ++ [r], highResv := some r.seq } :=
  (flowAt_modFlow hs hf _).1

theorem ticked_graphs_wf (hs : twf (fun _ => ({} : Graph)) s.graphs = true) : twf (fun _ => ({} : Graph)) (ticked s g f).graphs = true :=
  twf_tset _ _ _ hs

/-- A missed instant is counted and raises TIMER_MISSED, and touches nothing that the tick did not (R109, R132). -/
theorem timerMissed_effect (hr : twf regRst s.regs = true) {p : Nat} (hp : p < 4) :
    let u := raiseIrq (bump s (fgsCnt p 0x14) 1) .fgs 0 10 (some p)
    u.graphs = s.graphs ∧ bitOf (regN u (fgsPg + 0x10)) 10 = true ∧ (frozen s = false → reg u (fgsCnt p 0x14) = reg s (fgsCnt p 0x14) + 1) ∧
      u.hbm = s.hbm := by
  intro u
  have hwf := bump_wf hr (fgsCnt p 0x14) 1
  have hrest : irqRest u = irqRest s := (irqRest_raiseIrq _ _ _ _ _).trans (irqRest_bump _ _ _)
  have hbit : bitOf (regN u (fgsPg + 0x10)) 10 = true := bitOf_raiseIrq hwf (b := .fgs) (n := 0) (by decide) (by decide) _
  refine ⟨rest_keeps hrest State.graphs, hbit, fun hf => ?_, rest_keeps hrest State.hbm⟩
  have ha : OffPba (fgsCnt p 0x14) := by
    rw [show fgsCnt p 0x14 = pg .fgs 0 + (0x800 + 0x20 * p + 0x14) by simp only [fgsCnt, fgsPg]; omega]
    exact offPba_page (by decide) (by rw [show (blkPlace .fgs).2.2.1 = 0x1000 from rfl]; omega)
  rw [reg_raiseIrq hwf ha (by simp only [fgsCnt, fgsPg]; omega)]
  exact reg_bump_same hr hf _ _

end

/-! ## HAMPER_FORM -/

/-- What formation fixes of a hamper, beside its tasks' progress. -/
def formedAs (h : Hamper) : Nat × Nat × Word × DWord × Nat × Bool × Nat :=
  (h.graph, h.flow, h.seq, h.stamp, h.handle, h.cancelled, h.tasks.length)

theorem formedAs_spreadAll (s : State) : (spreadAll s).hampers.map formedAs = s.hampers.map formedAs := by
  have hone (t : State) (l : List Hamper) : (l.map (spreadOne t)).map formedAs = l.map formedAs := by
    rw [List.map_map]
    refine List.map_congr_left (fun h _ => ?_)
    simp only [Function.comp_apply, formedAs, spreadOne, List.length_map]
  have hspread (n : Nat) (t : State) : (spread n t).hampers.map formedAs = t.hampers.map formedAs := by
    induction n generalizing t with
    | zero => rfl
    | succ n ih =>
      unfold spread
      dsimp only
      split
      · rfl
      · exact (ih _).trans (hone t _)
  exact hspread _ s

/-- The state aside from reports and from what a commit's end changes. -/
def commitRest (s : State) : State := { outRest s with applied := [], commits := [], tone := [], clearing := [] }

theorem commitRest_of_outRest {s t : State} (h : outRest t = outRest s) : commitRest t = commitRest s :=
  congrArg (fun u : State => { u with applied := [], commits := [], tone := [], clearing := [] }) h

theorem commitRest_keeps {α : Type} {s t : State} (h : commitRest t = commitRest s) (f : State → α) (hf : ∀ u, f (commitRest u) = f u := by intro _; rfl) :
    f t = f s := by
  rw [← hf t, h, hf s]

theorem commitRest_commitEnds (s : State) (b : Blk) (n : Nat) : commitRest (commitEnds s b n) = commitRest s := by
  simp only [commitEnds]
  split <;> rfl

theorem commitRest_applyShadow (s : State) (b : Blk) (n : Nat) : commitRest (applyShadow s b n) = commitRest s :=
  forAll_keeps commitRest (f := fun a t => setApp t a (reg s a)) (fun _ _ _ => rfl) s

theorem commitRest_commitDone (s : State) (b : Blk) (n : Nat) : commitRest (commitDone s b n) = commitRest s := by
  rw [commitDone, commitRest_of_outRest (outRest_crumb _ _ _ _ _ _ _), commitRest_of_outRest (outRest_raiseIrq _ _ _ _ _), commitRest_commitEnds,
    commitRest_applyShadow]

/-- A commit's end touches applied values, commits and what waits for a clear; only a port's commit reaches further (R71, R400, R480). -/
theorem commitRest_commitResolve (s : State) {b : Blk} (hb : b ≠ .fabp) (n : Nat) : commitRest (commitResolve s b n) = commitRest s := by
  unfold commitResolve
  split
  · rw [commitRest_of_outRest (outRest_crumb _ _ _ _ _ _ _), commitRest_of_outRest (outRest_raiseErr _ _ _ _ _), commitRest_commitEnds]
  · split
    · rfl
    · exact commitRest_commitDone s b n

theorem commitRest_toneApply (s : State) : commitRest (toneApply s) = commitRest s := by
  refine forAll_keeps commitRest (fun u _ t => ?_) s
  split
  · exact commitRest_commitResolve t (by decide) u
  · rfl

/-- The state aside from what a formation changes beside hampers and graphs. -/
def formRest (s : State) : State := { commitRest s with fms := {} }

theorem formRest_of_commitRest {s t : State} (h : commitRest t = commitRest s) : formRest t = formRest s :=
  congrArg (fun u : State => { u with fms := {} }) h

theorem formRest_keeps {α : Type} {s t : State} (h : formRest t = formRest s) (f : State → α) (hf : ∀ u, f (formRest u) = f u := by intro _; rfl) :
    f t = f s := by
  rw [← hf t, h, hf s]

theorem formRest_undefer (s : State) : formRest (undefer s) = formRest s := by
  unfold undefer
  extract_lets go f s1
  refine (forAll_keeps formRest (fun l _ t => ?_) s1).trans rfl
  split
  · exact formRest_of_commitRest (commitRest_of_outRest (outRest_setRegN _ _ _))
  · rfl

/-- The hamper that formation adds (R105 to R107). -/
def newHamper (s : State) (g f : Nat) (r : Resv) : Hamper :=
  let x := graphAt s g
  let tr := trigOf x f
  let bad := tr.kind == 3 && !vaOk s x.part r.table 64 .r
  ⟨g, f, r.seq, resvStamp tr r, resvFlags r, r.handle, r.table, false, false, bad,
    (tasksOf x f).map (fun t => if bad then { t with at_ := .removed } else t), crossOf x f⟩

/-- The state in which the new hamper stands in the tables, and its reservation does not. -/
def withHamper (s : State) (g f : Nat) (r : Resv) : State :=
  modFlow { s with hampers := s.hampers ++ [newHamper s g f r] } g f (fun x =>
    { x with resv := x.resv.filter (fun y => y.seq != r.seq), highForm := some r.seq })

theorem formHamper_eq (s : State) (g f : Nat) (r : Resv) : formHamper s g f r =
    fgsTrace (bump (spreadAll (withHamper s g f r)) (fgsCnt (graphAt s g).part 0) 1) 0x10 (graphAt s g) f r.seq (trigIdx (graphAt s g) f)
      (resvStamp (trigOf (graphAt s g) f) r).toNat := rfl

theorem formHamper_hampers (s : State) (g f : Nat) (r : Resv) :
    (formHamper s g f r).hampers.map formedAs = (s.hampers ++ [newHamper s g f r]).map formedAs := by
  have hout : (formHamper s g f r).hampers = (spreadAll (withHamper s g f r)).hampers := by
    rw [formHamper_eq]
    exact outRest_keeps ((outRest_fgsTrace _ _ _ _ _ _ _).trans (outRest_bump _ _ _)) State.hampers
  rw [hout]
  exact formedAs_spreadAll _

theorem formHamper_memory (s : State) (g f : Nat) (r : Resv) : (formHamper s g f r).spad = s.spad ∧ (formHamper s g f r).tile = s.tile := by
  have hout := (outRest_fgsTrace (bump (spreadAll (withHamper s g f r)) (fgsCnt (graphAt s g).part 0) 1) 0x10 (graphAt s g) f r.seq
    (trigIdx (graphAt s g) f) (resvStamp (trigOf (graphAt s g) f) r).toNat).trans (outRest_bump _ _ _)
  rw [formHamper_eq]
  exact ⟨(outRest_keeps hout State.spad).trans (spreadAll_keeps State.spad (fun _ _ => rfl) _),
    (outRest_keeps hout State.tile).trans (spreadAll_keeps State.tile (fun _ _ => rfl) _)⟩

/-- Formation adds one hamper, as its reservation and its graph describe it (R105). -/
theorem hamperFormAct_effect {s : State} {g f : Nat} {r : Resv}
    (h : (formOrder s).findSome? (fun y => (formable s y.1 y.2).map (fun r => (y.1, y.2, r))) = some (g, f, r)) :
    (hamperFormAct s).hampers.map formedAs = (s.hampers ++ [newHamper s g f r]).map formedAs ∧ (hamperFormAct s).spad = s.spad ∧
      (hamperFormAct s).tile = s.tile := by
  have hact : hamperFormAct s = toneApply (undefer (formHamper s g f r)) := by rw [hamperFormAct, h]
  obtain ⟨hspad, htile⟩ := formHamper_memory s g f r
  have hrest : formRest (toneApply (undefer (formHamper s g f r))) = formRest (formHamper s g f r) :=
    (formRest_of_commitRest (commitRest_toneApply _)).trans (formRest_undefer _)
  rw [hact]
  refine ⟨?_, ?_, ?_⟩
  · rw [formRest_keeps hrest State.hampers]
    exact formHamper_hampers s g f r
  · rw [formRest_keeps hrest State.spad, hspad]
  · rw [formRest_keeps hrest State.tile, htile]

/-- A list that spells what another spells with one hamper more ends with that hamper. -/
theorem exists_append_of_formedAs {l m : List Hamper} {x : Hamper} (h : l.map formedAs = (m ++ [x]).map formedAs) :
    ∃ k y, l = k ++ [y] ∧ k.map formedAs = m.map formedAs ∧ formedAs y = formedAs x := by
  rw [List.map_append, List.map_eq_append_iff] at h
  obtain ⟨k, y, rfl, hk, hy⟩ := h
  obtain ⟨z, rfl, hz⟩ := List.map_eq_singleton_iff.1 hy
  exact ⟨k, z, rfl, hk, hz⟩

/-! ## HAMPER_RELEASE -/

theorem lockEnds_hampers (s : State) : (lockEnds s).hampers = s.hampers :=
  forAll_keeps State.hampers (f := (setTone · 2)) (fun _ _ _ => rfl) _

theorem finishGraph_hampers (s : State) (g : Nat) : (finishGraph s g).hampers = s.hampers := by
  simp only [finishGraph]
  have hladles (l : List Nat) (t : State) : (forAll l (fun n t =>
      bump (setLadle t n { ladleAt t n with q := [], bound := none, aborted := [] }) (pg .ladle n + 0x818) (ladleAt t n).q.length) t).hampers = t.hampers := by
    refine forAll_keeps State.hampers (fun n _ t => ?_) t
    rw [outRest_keeps (outRest_bump _ _ _) State.hampers]
    rfl
  have hlog (k sub sq a0 a1 : Nat) : (dlogPut s (graphAt s g).part k sub sq a0 a1).hampers = s.hampers :=
    outRest_keeps (outRest_dlogPut s _ k sub sq a0 a1) State.hampers
  split
  · rfl
  · split
    · exact (lockEnds_hampers _).trans ((hladles _ _).trans (hlog _ _ _ _ _))
    · refine (outRest_keeps ((outRest_pushFinal _ _ _ _).trans (outRest_pushFinal _ _ _ _)) State.hampers).trans ?_
      exact (lockEnds_hampers _).trans ((hladles _ _).trans (hlog _ _ _ _ _))

theorem pushResult_hampers (s : State) (p : Nat) (r : Cpl) : (pushResult s p r).hampers = s.hampers := by
  simp only [pushResult]
  have hcpl := outRest_keeps (outRest_pushCpl s p r) State.hampers
  split
  · exact (vDrain_keeps State.hampers (fun _ _ _ => rfl) (fun _ _ => rfl) (fun _ _ h => rest_keeps h State.hampers) (fun _ _ => rfl) _).trans hcpl
  · exact hcpl

theorem ageRelease_hampers (s : State) (h : Hamper) : (ageRelease s h).hampers = s.hampers := by
  unfold ageRelease
  split <;> rfl

/-- Releasing a hamper takes it out of the tables; beside it only the cross-flow edges that wait on it learn of its faults (R121, R126). -/
theorem release_hampers (s : State) (h : Hamper) :
    (release s h).hampers = (noteCross (ageRelease s h) h).hampers.filter (fun o => !isHamper h.graph h.flow h.seq o) := by
  simp only [release]
  rw [finishGraph_hampers, outRest_keeps (outRest_fgsTrace _ _ _ _ _ _ _) State.hampers, pushResult_hampers]
  have hcount (t : State) (c : Prop) [Decidable c] (a bit p : Nat) :
      (if c then raiseIrq (bump t a 1) .fgs 0 bit (some p) else t).hampers = t.hampers := by
    split
    · exact outRest_keeps ((outRest_raiseIrq _ _ _ _ _).trans (outRest_bump _ _ _)) State.hampers
    · rfl
  rw [hcount, hcount, outRest_keeps (outRest_bump _ _ _) State.hampers]
  rfl

theorem noteCross_hampers_of_sound {s : State} {h : Hamper} (hf : faultyNodes h = []) : (noteCross s h).hampers = s.hampers := by
  simp [noteCross, hf]

/-- What a release leaves of the other hampers. -/
def releasedAs (o : Hamper) : Nat × Nat × Word × List Task := (o.graph, o.flow, o.seq, o.tasks)

theorem filter_map_of_agree {α : Type} (k : α → α) (p : α → Bool) (h : ∀ x, p (k x) = p x) (l : List α) : (l.map k).filter p = (l.filter p).map k := by
  rw [List.filter_map]
  exact congrArg (List.map k) (List.filter_congr (fun x _ => h x))

theorem noteCross_keeps_others (s : State) (h : Hamper) :
    ((noteCross s h).hampers.filter (fun o => !isHamper h.graph h.flow h.seq o)).map releasedAs =
      (s.hampers.filter (fun o => !isHamper h.graph h.flow h.seq o)).map releasedAs := by
  simp only [noteCross]
  split
  · rfl
  · simp only [modHampers]
    rw [filter_map_of_agree, List.map_map]
    · refine List.map_congr_left (fun o _ => ?_)
      simp only [Function.comp_apply]
      split <;> rfl
    · intro o
      split <;> rfl

theorem hamperReleaseAct_releases {s : State} {g f : Nat} {h : Hamper} (hf : (hampersOf s g f).find? (releasable s) = some h)
    (hm : mayRelease s (graphAt s g).part = true) : hamperReleaseAct s g f = release s h := by
  rw [hamperReleaseAct, hf]
  simp only [hm, if_true]

theorem hamperReleaseAct_waits {s : State} {g f : Nat}
    (h : (hampersOf s g f).find? (releasable s) = none ∨ mayRelease s (graphAt s g).part = false) : hamperReleaseAct s g f = s := by
  unfold hamperReleaseAct
  split
  next x hx =>
    rw [if_neg]
    rcases h with h | h
    · rw [hx] at h
      cases h
    · rw [h]
      decide
  next => rfl

/-- Settles O33: a tick reserves or is counted as missed, formation appends one hamper, release removes the one released. -/
theorem triggersAndFormationTakeEffect : Obligations.TriggersAndFormationTakeEffect := by
  unfold Obligations.TriggersAndFormationTakeEffect
  intro dt s g f b x hw
  have hgr : twf (fun _ => ({} : Graph)) b.graphs = true := tblOf_wf _ _
  have hr : twf regRst b.regs = true := arrive_regs_wf dt s
  have htimer : exec (.timerTrigger dt g f) s = .next (closing s (timerAct b g f)) := actLive_works (f := fun t => timerAct t g f) hw
  have hform : exec (.hamperForm dt) s = .next (closing s (hamperFormAct b)) := actLive_works (f := hamperFormAct) hw
  have hrel : exec (.hamperRelease dt g f) s = .next (closing s (hamperReleaseAct b g f)) := actLive_works (f := fun t => hamperReleaseAct t g f) hw
  clear_value b
  refine ⟨fun hstat hkind hstop hf hdue => ⟨fun hroom => ?_, fun hroom hp => ?_⟩, fun g f r h => ?_, fun h hfind hmay => ?_, fun h => ?_⟩
  · refine ⟨_, htimer, ?_⟩
    rw [timerAct_due hstat hkind hstop hdue, if_pos hroom,
      flowAt_reserve (ticked_graphs_wf hgr) (by rw [flows_length_ticked hgr]; exact hf), flowAt_ticked hgr hf]
    exact ⟨rfl, rfl, rfl, rfl, rfl⟩
  · refine ⟨_, htimer, ?_⟩
    rw [timerAct_due hstat hkind hstop hdue, if_neg (by simp [hroom])]
    obtain ⟨hgraphs, hbit, hcnt, hhbm⟩ := timerMissed_effect (s := ticked b g f) hr hp
    rw [graphAt_congr hgraphs, flowAt_ticked hgr hf]
    exact ⟨rfl, rfl, hbit, hcnt, hhbm⟩
  · obtain ⟨hham, hspad, htile⟩ := hamperFormAct_effect h
    obtain ⟨k, y, hk, hold, hy⟩ := exists_append_of_formedAs hham
    obtain ⟨hg, hf, hq, -, hh, hc, hl⟩ := (by simpa only [formedAs, Prod.mk.injEq] using hy :
      y.graph = (newHamper b g f r).graph ∧ y.flow = (newHamper b g f r).flow ∧ y.seq = (newHamper b g f r).seq ∧ y.stamp = (newHamper b g f r).stamp ∧
        y.handle = (newHamper b g f r).handle ∧ y.cancelled = (newHamper b g f r).cancelled ∧ y.tasks.length = (newHamper b g f r).tasks.length)
    have hold' := congrArg (List.map (fun o : Nat × Nat × Word × DWord × Nat × Bool × Nat => (o.1, o.2.1, o.2.2.1, o.2.2.2.1))) hold
    rw [List.map_map, List.map_map] at hold'
    refine ⟨_, k, y, hform, hk, hold', hg, hf, hq, hh, hc, hl.trans ?_, hspad, htile⟩
    exact List.length_map _
  · refine ⟨_, hrel, hamperReleaseAct_releases hfind hmay, ?_⟩
    rw [hamperReleaseAct_releases hfind hmay, release_hampers]
    refine ⟨?_, fun hsound => ?_⟩
    · exact (noteCross_keeps_others _ h).trans (by rw [ageRelease_hampers]; rfl)
    · rw [noteCross_hampers_of_sound hsound, ageRelease_hampers]
  · rw [hrel, hamperReleaseAct_waits h]

end Sys2Proof.Machine
end

section
/-! Tasks in their units: placement, end, collection, parking and resumption (R110 to R125, R339 to R341). -/

namespace Sys2Proof.Machine
open Sys2Proof

theorem unitAt_congr {s t : State} (h : t.units = s.units) (b : Blk) (n : Nat) : unitAt t b n = unitAt s b n := by rw [unitAt, h, unitAt]

theorem fifoOf_congr {s t : State} (h : t.fifos = s.fifos) (k : Nat) : fifoOf t k = fifoOf s k := by rw [fifoOf, h, fifoOf]

theorem unitAt_setUnit_of_ne (s : State) (b : Blk) (n : Nat) {u : UnitSt} (h : u ≠ {}) : unitAt (setUnit s b n u) b n = u := tget_tset_ne _ _ u h s.units

theorem coreAt_setCore_of_ne (s : State) (u : Nat) {c : Core} (h : c ≠ {}) : coreAt (setCore s u c) u = c := tget_tset_ne _ u c h s.cores

theorem fifoOf_setFifo_same {s : State} (h : twf (fun _ => ([] : List Fin)) s.fifos = true) (k : Nat) (l : List Fin) : fifoOf (setFifo s k l) k = l :=
  tget_tset_same _ k l h

/-! ## The state aside from what the end of a task changes beside its unit -/

/-- The state with everything cleared that the end of a task may change beside units, completion entries and cores. -/
def endRest (s : State) : State := { outRest s with hampers := [], graphs := [], ladles := [], tone := [], fms := {} }

theorem endRest_of_outRest {s t : State} (h : outRest t = outRest s) : endRest t = endRest s :=
  congrArg (fun u : State => { u with hampers := [], graphs := [], ladles := [], tone := [], fms := {} }) h

theorem endRest_keeps {α : Type} {s t : State} (h : endRest t = endRest s) (f : State → α) (hf : ∀ u, f (endRest u) = f u := by intro _; rfl) :
    f t = f s := by
  rw [← hf t, h, hf s]

theorem endRest_setLadle (s : State) (l : Nat) (x : Ladle) : endRest (setLadle s l x) = endRest s := rfl
theorem endRest_setUnit_congr {s t : State} (h : endRest t = endRest s) (b : Blk) (n : Nat) (u : UnitSt) :
    endRest (setUnit t b n u) = endRest (setUnit s b n u) :=
  (congrArg (fun x : State => setUnit x b n u) h : setUnit (endRest t) b n u = setUnit (endRest s) b n u)
theorem endRest_setGraph (s : State) (g : Nat) (x : Graph) : endRest (setGraph s g x) = endRest s := rfl
theorem endRest_modTask (s : State) (r : TRef) (k : Task → Task) : endRest (modTask s r k) = endRest s := rfl
theorem endRest_sweep (s : State) : endRest (sweep s) = endRest s := rfl
theorem endRest_setCnt (s : State) (b : Blk) (i : Nat) (c : CmdCnt) : endRest (setCnt s b i c) = endRest s := rfl
theorem endRest_bump (s : State) (a n : Nat) : endRest (bump s a n) = endRest s := endRest_of_outRest (outRest_bump s a n)
theorem endRest_raiseIrq (s : State) (b : Blk) (n bit : Nat) (ctx : Option Nat) : endRest (raiseIrq s b n bit ctx) = endRest s :=
  endRest_of_outRest (outRest_raiseIrq s b n bit ctx)
theorem endRest_gcCount (s : State) (ev : Nat) (b : Blk) (n p k : Nat) : endRest (gcCount s ev b n p k) = endRest s :=
  endRest_of_outRest (outRest_gcCount s ev b n p k)

theorem endRest_ladlePush (s : State) (l h : Nat) : endRest (ladlePush s l h) = endRest s := by
  simp only [ladlePush]
  have hb := (endRest_bump (setLadle s l { ladleAt s l with q := (ladleAt s l).q ++ [h] }) (pg .ladle l + 0x800) 1).trans (endRest_setLadle s l _)
  split
  · exact (endRest_of_outRest ((outRest_crumb _ _ _ _ _ _ _).trans (outRest_setRegN _ _ _))).trans hb
  · exact (endRest_of_outRest (outRest_crumb _ _ _ _ _ _ _)).trans hb

theorem endRest_ladleAbort (s : State) (l q : Nat) : endRest (ladleAbort s l q) = endRest s := by
  simp only [ladleAbort]
  rw [endRest_raiseIrq, endRest_of_outRest (outRest_setRegN _ _ _), endRest_setLadle]

theorem endRest_ladleClear (s : State) (l q : Nat) : endRest (ladleClear s l q) = endRest s := rfl

theorem endRest_noteDone (s : State) (r : TRef) : endRest (noteDone s r) = endRest s := by
  unfold noteDone
  split
  · split
    · exact endRest_setGraph _ _ _
    · rfl
  · rfl

theorem endRest_dualEnd (s : State) (r : TRef) (st sig core : Nat) : endRest (dualEnd s r st sig core) = endRest s := rfl

theorem endRest_counted (s : State) (c : Prop) [Decidable c] (a : Nat) (b : Blk) (i : Nat) :
    endRest (raiseIrq (if c then bump s a 1 else s) b i 8 none) = endRest s := by
  rw [endRest_raiseIrq]
  split
  · exact endRest_bump s a 1
  · rfl

theorem endRest_unitDone (s : State) (b : Blk) (i : Nat) (r : TRef) (hdr : Option Nat) (st : Nat) : endRest (unitDone s b i r hdr st) = endRest s := by
  simp only [unitDone]
  have hregs (a n c m : Nat) : endRest (setRegN (setRegN s a n) c m) = endRest s := rfl
  split
  · rfl
  · rfl
  · split
    · exact (endRest_bump _ _ _).trans (hregs _ _ _ _)
    · exact (endRest_counted _ _ _ _ _).trans (hregs _ _ _ _)
  · split
    · exact (endRest_bump _ _ _).trans (hregs _ _ _ _)
    · exact (endRest_counted _ _ _ _ _).trans (hregs _ _ _ _)

theorem endRest_unitCrumb (s : State) (ev : Nat) (b : Blk) (i : Nat) (r : TRef) (arg : Nat) : endRest (unitCrumb s ev b i r arg) = endRest s := rfl

theorem endRest_unitTrace (s : State) (kind : Nat) (b : Blk) (i : Nat) (r : TRef) (a0 a1 : Nat) : endRest (unitTrace s kind b i r a0 a1) = endRest s :=
  endRest_of_outRest (outRest_emit s _)

theorem endRest_cntLeave (s : State) (b : Blk) (i p : Nat) : endRest (cntLeave s b i p) = endRest s := by
  unfold cntLeave
  split
  · rfl
  · rfl
  · split
    · exact endRest_setCnt _ _ _ _
    · exact (endRest_gcCount _ _ _ _ _ _).trans (endRest_setCnt _ _ _ _)

theorem endRest_spreadAll (s : State) : endRest (spreadAll s) = endRest s := spreadAll_keeps endRest (fun _ _ => rfl) s

theorem endRest_lockEnds (s : State) : endRest (lockEnds s) = endRest s := forAll_keeps endRest (f := (setTone · 2)) (fun _ _ _ => rfl) _

theorem endRest_safe (s : State) (d : Safe) : endRest { s with safe := d } = endRest s := rfl

theorem endRest_ages (s : State) (d : Tbl AgeSlot) : endRest { s with ages := d } = endRest s := rfl

theorem endRest_finishGraph (s : State) (g : Nat) : endRest (finishGraph s g) = endRest s := by
  have hladles (l : List Nat) (t : State) : endRest (forAll l (fun n t =>
      bump (setLadle t n { ladleAt t n with q := [], bound := none, aborted := [] }) (pg .ladle n + 0x818) (ladleAt t n).q.length) t) = endRest t := by
    refine forAll_keeps endRest (fun n _ t => ?_) t
    rw [endRest_bump, endRest_setLadle]
  have hfinal (t : State) (h st src : Nat) : endRest (pushFinal t h st src) = endRest t := endRest_of_outRest (outRest_pushFinal t h st src)
  unfold finishGraph
  extract_lets x s1 s2 sf s3 s4
  have h3 : endRest s3 = endRest s := (endRest_safe s2 _).trans ((hladles _ s1).trans (endRest_of_outRest (outRest_dlogPut s _ _ _ _ _ _)))
  have h4 : endRest s4 = endRest s := (endRest_lockEnds _).trans ((endRest_setGraph s3 _ _).trans h3)
  split
  · rfl
  · split
    · exact (endRest_lockEnds _).trans ((endRest_setGraph _ _ _).trans ((endRest_ages s3 _).trans h3))
    · exact (hfinal _ _ _ _).trans ((hfinal _ _ _ _).trans h4)

/-! ## TASK_END -/

/-- The ladles after a task's handle or its abort has reached them (R119, R453). -/
def ladlesEnd (s : State) (r : TRef) (st : Nat) : State :=
  let g := graphAt s r.graph
  let s1 := if st = 0 then forAll (pushLadles g r.node) (fun l t => ladlePush t l (mkLadle r.seq.toNat (taskEnt g r.idx).tile)) s
    else forAll (pushLadles g r.node) (fun l t => ladleAbort t l r.seq.toNat) s
  forAll (popLadles g r.node) (fun l t => ladleClear t l r.seq.toNat) s1

theorem endRest_ladlesEnd (s : State) (r : TRef) (st : Nat) : endRest (ladlesEnd s r st) = endRest s := by
  have hpush (h : Nat) : endRest (forAll (pushLadles (graphAt s r.graph) r.node) (fun l t => ladlePush t l h) s) = endRest s :=
    forAll_keeps endRest (f := fun l t => ladlePush t l h) (fun l _ t => endRest_ladlePush t l h) s
  have habort : endRest (forAll (pushLadles (graphAt s r.graph) r.node) (fun l t => ladleAbort t l r.seq.toNat) s) = endRest s :=
    forAll_keeps endRest (f := fun l t => ladleAbort t l r.seq.toNat) (fun l _ t => endRest_ladleAbort t l _) s
  have hclear (l : List Nat) (t : State) : endRest (forAll l (fun l t => ladleClear t l r.seq.toNat) t) = endRest t :=
    forAll_keeps endRest (f := fun l t => ladleClear t l r.seq.toNat) (fun l _ t => endRest_ladleClear t l _) t
  rw [ladlesEnd, hclear]
  split
  · exact hpush _
  · exact habort

/-- The running slot empty and the completion entry in its FIFO (R111, R124). -/
def slotEnd (s : State) (b : Blk) (i : Nat) (r : TRef) (st : Nat) : State :=
  pushFin (setUnit s b i { unitAt s b i with run := none, done := none, src := none, prev := false, hdr := none }) (srcKey b i) ⟨r, st⟩

/-- Beside the slot and the completion entry the end of a task changes nothing that `endRest` shows. -/
theorem endRest_taskEnd (s : State) (b : Blk) (i : Nat) (r : TRef) (st sig : Nat) :
    endRest (taskEnd s b i r st sig) = endRest (slotEnd (ladlesEnd s r st) b i r st) := by
  unfold taskEnd
  extract_lets g n e s1 s2 u s3 s4 s5 s6 s7 s8
  have h3 : s3 = slotEnd (ladlesEnd s r st) b i r st := rfl
  rw [← h3]
  clear_value s3
  have h4 : endRest s4 = endRest s3 := (endRest_noteDone _ r).trans (endRest_modTask s3 r _)
  have h5 : endRest s5 = endRest s3 := by
    rw [← h4]
    unfold s5
    split
    · exact endRest_dualEnd s4 r st sig _
    · rfl
  have h6 : endRest s6 = endRest s3 :=
    (endRest_unitTrace _ 2 b i r st _).trans ((endRest_unitCrumb _ 2 b i r st).trans ((endRest_unitDone s5 b i r _ st).trans h5))
  have h7 : endRest s7 = endRest s3 := (endRest_cntLeave s6 b i _).trans h6
  have h8 : endRest s8 = endRest s3 := by
    refine (endRest_gcCount _ 2 b i _ 1).trans ?_
    split
    · exact h7
    · exact (endRest_gcCount s7 3 b i _ 1).trans h7
  exact (endRest_finishGraph _ _).trans ((endRest_sweep _).trans ((endRest_spreadAll s8).trans h8))

theorem collect_keeps {β : Type} (k : State → β) (h : ∀ (t : State) f c, k { t with fifos := f, collector := c } = k t) (s : State) : k (collect s) = k s := by
  unfold collect
  split
  · rfl
  · exact h s _ _

theorem makeRoom_keeps {β : Type} (k : State → β) (h : ∀ (t : State) f c, k { t with fifos := f, collector := c } = k t) (j n : Nat) (s : State) :
    k (makeRoom j n s) = k s := by
  induction n generalizing s with
  | zero => rfl
  | succ n ih =>
    unfold makeRoom
    split
    · rfl
    · exact (ih _).trans (collect_keeps k h s)

theorem slotEnd_units (s : State) (b : Blk) (i : Nat) (r : TRef) (st : Nat) :
    (slotEnd s b i r st).units = (setUnit s b i { unitAt s b i with run := none, done := none, src := none, prev := false, hdr := none }).units :=
  makeRoom_keeps State.units (fun _ _ _ => rfl) _ _ _

theorem slotEnd_cores (s : State) (b : Blk) (i : Nat) (r : TRef) (st : Nat) : (slotEnd s b i r st).cores = s.cores :=
  makeRoom_keeps State.cores (fun _ _ _ => rfl) _ _ _

theorem makeRoom_of_room {s : State} {k : Nat} (h : (fifoOf s k).length < fifoDepth k) (n : Nat) : makeRoom k (n + 1) s = s := by
  rw [makeRoom, if_pos h]

theorem pushFin_room {s : State} {k : Nat} (h : (fifoOf s k).length < fifoDepth k) (hwf : twf (fun _ => ([] : List Fin)) s.fifos = true) (x : Fin) :
    fifoOf (pushFin s k x) k = fifoOf s k ++ [x] := by
  have hroom : makeRoom k sources.length s = s := makeRoom_of_room h _
  rw [pushFin, hroom, fifoOf_setFifo_same hwf]

/-- The end of a task empties its running slot, and its completion entry stands last where its FIFO has room (R111, R124). -/
theorem taskEnd_effect {s : State} (hu : twf (fun _ => ({} : UnitSt)) s.units = true) (b : Blk) (i : Nat) (r : TRef) (st sig : Nat) :
    (unitAt (taskEnd s b i r st sig) b i).run = none ∧ (unitAt (taskEnd s b i r st sig) b i).done = none ∧ (taskEnd s b i r st sig).cores = s.cores ∧
      (twf (fun _ => ([] : List Fin)) s.fifos = true → (fifoOf s (srcKey b i)).length < fifoDepth (srcKey b i) →
        fifoOf (taskEnd s b i r st sig) (srcKey b i) = fifoOf s (srcKey b i) ++ [⟨r, st⟩]) := by
  have hrest := endRest_taskEnd s b i r st sig
  have hl := endRest_ladlesEnd s r st
  have hunits : (ladlesEnd s r st).units = s.units := endRest_keeps hl State.units
  have hunit : unitAt (taskEnd s b i r st sig) b i =
      { unitAt (ladlesEnd s r st) b i with run := none, done := none, src := none, prev := false, hdr := none } := by
    rw [unitAt_congr ((endRest_keeps hrest State.units).trans (slotEnd_units _ b i r st)), unitAt_setUnit_same (by rw [hunits]; exact hu)]
  refine ⟨by rw [hunit], by rw [hunit], ?_, fun hwf hroom => ?_⟩
  · exact (endRest_keeps hrest State.cores).trans ((slotEnd_cores _ b i r st).trans (endRest_keeps hl State.cores))
  · have hfifos : (ladlesEnd s r st).fifos = s.fifos := endRest_keeps hl State.fifos
    rw [fifoOf_congr (endRest_keeps hrest State.fifos), slotEnd, pushFin_room]
    · exact congrArg (· ++ _) (fifoOf_congr hfifos _)
    · show (fifoOf (ladlesEnd s r st) (srcKey b i)).length < _
      rw [fifoOf_congr hfifos]
      exact hroom
    · rw [show (setUnit (ladlesEnd s r st) b i _).fifos = s.fifos from hfifos]
      exact hwf

theorem taskEndAct_nc (s : State) (n : Nat) : taskEndAct s (blkCode .nc) n = ncTaskEnd s n := by rw [taskEndAct, blkOfCode_blkCode]

section
variable {s : State} {n : Nat} {x : Blk} {r : TRef} {st : Nat} (hx : x ∈ unitTypes) (hnc : x ≠ .nc) (hrun : (unitAt s x n).run = some r)
  (hdone : (unitAt s x n).done = some st)
include hx hnc hrun hdone

/-- The work of a unit's task is done: it leaves once its ladles have room (R111, R120). -/
theorem taskEndAct_done : taskEndAct s (blkCode x) n =
    if ladleRoom s (graphAt s r.graph) r.node st then taskEnd (if x = .ftr then fmsRelease s r else s) x n r st 0 else s := by
  rw [taskEndAct, blkOfCode_blkCode]
  have hmem : unitTypes.contains x = true := List.contains_iff_mem.2 hx
  simp only [hmem, Bool.not_true, Bool.false_eq_true, if_false, hrun, hdone]

end

theorem ringTaskEnd_cores_wf {s : State} (h : twf (fun _ => ({} : Core)) s.cores = true) (u : Nat) (x : Ctx) :
    twf (fun _ => ({} : Core)) (ringTaskEnd s u x).cores = true := by
  simp only [ringTaskEnd]
  split
  · exact h
  · exact twf_tset _ _ _ h

theorem ringTaskEnd_units (s : State) (u : Nat) (x : Ctx) : (ringTaskEnd s u x).units = s.units := by
  simp only [ringTaskEnd]
  split <;> rfl

/-- A context that was ended leaves its core once its started commands have run out (R119, R310, R320). -/
theorem ncTaskEnd_ended {s : State} {n : Nat} {r : TRef} {x : Ctx} {st : Nat} (hrun : (unitAt s .nc n).run = some r) (hdone : (unitAt s .nc n).done = none)
    (hctx : (coreAt s n).ctx = some x) (hkill : x.kill = some st) (hq : ncQuiet (pruneTask s n r) n r = true)
    (hl : ladleRoom (pruneTask s n r) (graphAt (pruneTask s n r) r.graph) r.node st = true) :
    let t := ringTaskEnd (pruneTask s n r) n x
    ncTaskEnd s n = taskEnd (setCore t n { coreAt t n with ctx := none }) .nc n r st x.sig := by
  intro t
  simp only [ncTaskEnd, hrun, hdone, hctx, hkill, hq, hl, Bool.not_true, Bool.or_self, Bool.false_eq_true, if_false]
  rfl

/-! ## PARK -/

section
variable {s : State} {n : Nat} {x : Ctx} (hp : parkable s n = true) (hctx : (coreAt s n).ctx = some x)
include hp hctx

theorem parkAct_failed {st : Nat} {v : State} (hs : saveFile n (freePark (coreAt s n)) s = (Except.error st, v)) : parkAct s n = endCtx v n st := by
  simp only [parkAct, hctx, hp, hs]

/-- The core after its task has left it (R339, R340). -/
def parkedCore (s v : State) (n : Nat) (x : Ctx) : Core :=
  let c := coreAt s n
  { coreAt v n with
    ctx := none, acc := [], tree := false, live := false, cover := []
    parked := (coreAt v n).parked ++ [⟨x, freePark c, c.live, c.tree, c.cover⟩] }

/-- Parking empties the core and its running slot; beside them it changes what `endRest` hides (R116, R340). -/
theorem parkAct_saved {v : State} (hs : saveFile n (freePark (coreAt s n)) s = (Except.ok (), v)) :
    ∃ w : UnitSt, w.run = none ∧ w.parks ≠ [] ∧ endRest (parkAct s n) = endRest (setUnit (setCore v n (parkedCore s v n x)) .nc n w) := by
  simp only [parkAct, hctx, hp, hs]
  rw [endRest_cntLeave, endRest_setCnt, endRest_gcCount, endRest_unitTrace, endRest_unitCrumb, endRest_bump, endRest_modTask]
  have hcount (t : State) (c : Bool) (a : Nat) (b : Nat) : endRest (bump (if c then bump t a 1 else t) b 1) = endRest t := by
    rw [endRest_bump]
    split
    · exact endRest_bump t a 1
    · rfl
  refine ⟨_, ?_, ?_, endRest_setUnit_congr (hcount _ _ _ _) .nc n _⟩
  · rfl
  · simp

/-- The core and the running slot are empty after a park, and a file that was not live stays unsaved (R116, R340). -/
theorem parkAct_effect {v : State} (hs : saveFile n (freePark (coreAt s n)) s = (Except.ok (), v)) :
    (coreAt (parkAct s n) n).ctx = none ∧ (coreAt (parkAct s n) n).acc = [] ∧ (unitAt (parkAct s n) .nc n).run = none ∧
      ((coreAt s n).live = false →
        (coreAt (parkAct s n) n).parked = (coreAt s n).parked ++ [⟨x, freePark (coreAt s n), false, (coreAt s n).tree, (coreAt s n).cover⟩] ∧
        (parkAct s n).spad = s.spad) := by
  obtain ⟨w, hrun, hparks, hrest⟩ := parkAct_saved hp hctx hs
  have hcore : coreAt (parkAct s n) n = parkedCore s v n x := by
    rw [coreAt_congr (endRest_keeps hrest State.cores)]
    refine coreAt_setCore_of_ne v n (fun h => ?_)
    have := congrArg Core.parked h
    simp [parkedCore] at this
  have hunit : unitAt (parkAct s n) .nc n = w := by
    rw [unitAt_congr (endRest_keeps hrest State.units)]
    exact unitAt_setUnit_of_ne _ .nc n (fun h => hparks (congrArg UnitSt.parks h))
  refine ⟨by rw [hcore]; rfl, by rw [hcore]; rfl, by rw [hunit, hrun], fun hlive => ?_⟩
  have hv : v = s := by
    rw [saveFile, hlive] at hs
    exact (Prod.mk.inj hs).2.symm
  rw [hcore, parkedCore, hlive, endRest_keeps hrest State.spad, hv]
  exact ⟨rfl, rfl⟩

end

/-! ## RESUME -/

theorem startMatrix_effect (s : State) (n : Nat) : (startMatrix s n).units = s.units ∧ (startMatrix s n).spad = s.spad ∧
    (coreAt (startMatrix s n) n).ctx = (coreAt s n).ctx ∧ (coreAt (startMatrix s n) n).parked = (coreAt s n).parked := by
  simp only [startMatrix]
  split
  · exact ⟨rfl, rfl, rfl, rfl⟩
  · split
    · exact ⟨rfl, rfl, rfl, rfl⟩
    next x hx =>
      split
      · exact ⟨rfl, rfl, rfl, rfl⟩
      · rw [coreAt_setCore_of_ne s n (fun h => by
          have hc := congrArg Core.ctx h
          exact Option.some_ne_none x (hx.symm.trans hc))]
        exact ⟨rfl, rfl, rfl, rfl⟩

theorem endRest_cntEnter (s : State) (b : Blk) (i : Nat) (c : CmdCnt) : endRest (cntEnter s b i c) = endRest s := by
  simp only [cntEnter]
  split
  · rfl
  · rfl

/-- The core on which a parked task without a saved file runs again (R341). -/
def resumedCore (s : State) (n : Nat) (r : TRef) (p : Parked) : Core :=
  { coreAt s n with
    ctx := some p.ctx
    parked := (coreAt s n).parked.filter (fun q => q.ctx.task != r)
    acc := [], tree := p.tree, live := p.saved, cover := p.cover }

section
variable {s : State} {n : Nat} {r : TRef} {k : Nat} {e : Bool} {p : Parked} (hrun : (unitAt (refreshParks s) .nc n).run = none)
  (hh : tasterHolds (refreshParks s) (unitAt (refreshParks s) .nc n) = false)
  (hf : (unitAt (refreshParks s) .nc n).parks.find? (fun q => q.2.2) = some (r, k, e))
  (hp : (coreAt (refreshParks s) n).parked.find? (fun q => q.ctx.task == r) = some p) (hs : p.saved = false)
include hrun hh hf hp hs

/-- The first eligible parked task takes the running slot and its core; then its matrix work starts (R117, R341). -/
theorem resumeAct_resumes : ∃ (y : State) (w : UnitSt), w.run = some r ∧ resumeAct s n = startMatrix y n ∧
    endRest y = endRest (setUnit (setCore (refreshParks s) n (resumedCore (refreshParks s) n r p)) .nc n w) := by
  simp only [resumeAct, hrun, hh, hf, hp, hs, Option.isSome_none, Bool.or_self, Bool.false_eq_true, if_false]
  refine ⟨_, { unitAt (refreshParks s) .nc n with
    run := some r, done := none, parks := (unitAt (refreshParks s) .nc n).parks.filter (fun q => q.1 != r) }, rfl, rfl, ?_⟩
  rw [endRest_unitTrace, endRest_unitCrumb, endRest_cntEnter, endRest_modTask, resumedCore, hs]
  rfl

theorem resumeAct_effect : (coreAt (resumeAct s n) n).ctx = some p.ctx ∧ (unitAt (resumeAct s n) .nc n).run = some r ∧
    (coreAt (resumeAct s n) n).parked = (coreAt s n).parked.filter (fun q => q.ctx.task != r) ∧ (resumeAct s n).spad = s.spad := by
  obtain ⟨y, w, hw, hy, hrest⟩ := resumeAct_resumes hrun hh hf hp hs
  obtain ⟨hunits, hspad, hctx, hparked⟩ := startMatrix_effect y n
  have hcore : coreAt y n = resumedCore (refreshParks s) n r p := by
    rw [coreAt_congr (endRest_keeps hrest State.cores)]
    exact coreAt_setCore_of_ne _ n (fun h => by
      have hc := congrArg Core.ctx h
      cases hc)
  have hunit : unitAt y .nc n = w := by
    rw [unitAt_congr (endRest_keeps hrest State.units)]
    exact unitAt_setUnit_of_ne _ .nc n (fun h => by
      have hr := congrArg UnitSt.run h
      rw [hw] at hr
      cases hr)
  rw [hy, hctx, hparked, hspad, unitAt_congr hunits, hcore, hunit, endRest_keeps hrest State.spad]
  exact ⟨rfl, hw, rfl, rfl⟩

end

theorem prefetchOne_placed {s : State} {c : Cand} {x : Blk} {i : Nat} (h : pick s (candidates s) = some (c, some (x, i))) :
    prefetchOne s = place s c.h c.t x i := by rw [prefetchOne, h]

theorem place_effect {s : State} (hu : twf (fun _ => ({} : UnitSt)) s.units = true) (h : Hamper) (t : Task) (x : Blk) (i : Nat) :
    (unitAt (place s h t x i) x i).pre = some (refOf h t) ∧ (unitAt (place s h t x i) x i).run = (unitAt s x i).run := by
  have hunit : unitAt (place s h t x i) x i = { unitAt s x i with pre := some (refOf h t) } := unitAt_setUnit_same hu x i _
  rw [hunit]
  exact ⟨rfl, rfl⟩

theorem collect_next {s : State} (hf : twf (fun _ => ([] : List Fin)) s.fifos = true) {j : Nat} (h : nextSource s = some j) :
    (collect s).collector = (j + 1) % sources.length ∧ fifoOf (collect s) (nth 0 sources j) = (fifoOf s (nth 0 sources j)).drop 1 ∧
      (collect s).regs = s.regs ∧ (collect s).hbm = s.hbm ∧ (collect s).graphs = s.graphs := by
  rw [collect, h]
  exact ⟨rfl, fifoOf_setFifo_same hf _ _, rfl, rfl, rfl⟩

/-- Settles O34: each row's effect on the slots of the unit, the core and the completion FIFO it names. -/
theorem tasksMoveThroughTheirUnits : Obligations.TasksMoveThroughTheirUnits := by
  unfold Obligations.TasksMoveThroughTheirUnits
  intro dt s n b hw
  have hunits : twf (fun _ => ({} : UnitSt)) b.units = true := tblOf_wf _ _
  have hfifos : twf (fun _ => ([] : List Fin)) b.fifos = true := tblOf_wf _ _
  have hcores : twf (fun _ => ({} : Core)) b.cores = true := tblOf_wf _ _
  have hpre : exec (.taskPrefetch dt) s = .next (closing s (prefetchOne b)) := actLive_works (f := prefetchOne) hw
  have hend (x : Blk) : exec (.taskEnd dt (blkCode x) n) s = .next (closing s (taskEndAct b (blkCode x) n)) :=
    actLive_works (f := fun t => taskEndAct t (blkCode x) n) hw
  have hcol : exec (.collectorEntry dt) s = .next (closing s (collect b)) := actLive_works (f := collect) hw
  have hpark : exec (.park dt n) s = .next (closing s (onCore n (fun t => parkAct t n) b)) := actLive_works (f := onCore n (fun t => parkAct t n)) hw
  have hres : exec (.resume dt n) s = .next (closing s (onCore n (fun t => resumeAct t n) b)) :=
    actLive_works (f := onCore n (fun t => resumeAct t n)) hw
  clear_value b
  refine ⟨fun c x i h => ?_, fun x r st hx hnc hrun hdone => ⟨fun hl => ?_, fun hl => ?_⟩, fun r x st hrun hdone hctx hkill hq hl => ?_,
    fun j hj => ⟨_, hcol, collect_next hfifos hj⟩, ?_, ?_⟩
  · obtain ⟨h1, h2⟩ := place_effect hunits c.h c.t x i
    rw [prefetchOne_placed h] at hpre
    exact ⟨_, hpre, rfl, h1, h2, rfl, rfl⟩
  · rw [hend, taskEndAct_done hx hnc hrun hdone, hl]
    rfl
  · have hact : taskEndAct b (blkCode x) n = taskEnd (if x = .ftr then fmsRelease b r else b) x n r st 0 := by
      rw [taskEndAct_done hx hnc hrun hdone, hl]
      rfl
    have hkeep {α : Type} (k : State → α) (hk : k (fmsRelease b r) = k b) : k (if x = .ftr then fmsRelease b r else b) = k b := by
      split
      · exact hk
      · rfl
    have hu := hkeep State.units rfl
    have hfi := hkeep State.fifos rfl
    obtain ⟨h1, h2, -, h3⟩ := taskEnd_effect (s := if x = .ftr then fmsRelease b r else b) (by rw [hu]; exact hunits) x n r st 0
    refine ⟨_, (hend x).trans (by rw [hact]), rfl, h1, h2, fun hroom => ?_⟩
    rw [h3 (by rw [hfi]; exact hfifos) (by rw [fifoOf_congr hfi]; exact hroom), fifoOf_congr hfi]
  · have hact := (taskEndAct_nc b n).trans (ncTaskEnd_ended hrun hdone hctx hkill hq hl)
    have hcwf : twf (fun _ => ({} : Core)) (ringTaskEnd (pruneTask b n r) n x).cores = true := ringTaskEnd_cores_wf (twf_tset _ _ _ hcores) n x
    have hunits' : (ringTaskEnd (pruneTask b n r) n x).units = b.units := ringTaskEnd_units (pruneTask b n r) n x
    obtain ⟨h1, -, h2, -⟩ := taskEnd_effect (s := setCore (ringTaskEnd (pruneTask b n r) n x) n
      { coreAt (ringTaskEnd (pruneTask b n r) n x) n with ctx := none }) (by
        show twf _ (ringTaskEnd (pruneTask b n r) n x).units = true
        rw [hunits']
        exact hunits) .nc n r st x.sig
    refine ⟨_, (hend .nc).trans (by rw [hact]), h1, ?_⟩
    rw [coreAt_congr h2, coreAt_setCore_same hcwf]
  · intro x e hp hpk hctx
    rw [onCore_present _ hp] at hpark
    exact ⟨fun st v hs => hpark.trans (by rw [parkAct_failed hpk hctx hs]), fun v hs => ⟨_, hpark, parkAct_effect hpk hctx hs⟩⟩
  · intro r k e p t hp hrun hh hf hpar hsv
    rw [onCore_present _ hp] at hres
    exact ⟨_, hres, resumeAct_effect hrun hh hf hpar hsv⟩

end Sys2Proof.Machine
end

section
/-! A core's task starts, its matrix work completes, ring signals arrive (R309 to R314, R343, R344). -/

namespace Sys2Proof.Machine
open Sys2Proof

/-! ## NC_RUN -/

theorem commitRest_boundary_nc (s : State) {u : Nat} (hu : u < blkCount .nc) : commitRest (boundary .nc u s) = commitRest s := by
  have hloc : locate (pg .nc u) = some ⟨.nc, u, 0⟩ := locate_pg (o := 0) hu (by decide)
  have happ : commitRest (commitApplied s (pg .nc u)) = commitRest s := by
    simp only [commitApplied, hloc]
    split
    · exact commitRest_commitResolve s (by decide) u
    · rfl
  unfold boundary
  split
  · exact happ
  · rfl

theorem endRest_cntStart (s : State) (b : Blk) (i : Nat) (n : GNode) : endRest (cntStart s b i n) = endRest s := by
  unfold cntStart
  split
  · exact Eq.refl _
  · exact Eq.refl _
  · exact endRest_cntEnter s b i _

/-- The slots of a unit once its prefetched task has entered the running slot (R112). -/
def entered (s : State) (b : Blk) (j i : Nat) (r : TRef) : State :=
  let s0 := setUnit s b j { unitAt s b j with pre := none }
  setUnit s0 b i { unitAt s0 b i with
    run := some r, done := none, src := some (inSeq s r), prev := ranBefore s r (if b = .isp then inSeq s r else r.seq), hdr := none }

theorem endRest_enterRun (s : State) (b : Blk) (j i : Nat) (r : TRef) : endRest (enterRun s b j i r) = endRest (entered s b j i r) := by
  unfold enterRun
  rw [endRest_unitTrace, endRest_unitCrumb, endRest_cntStart, endRest_modTask]
  rfl

theorem enterRun_cores (s : State) (b : Blk) (j i : Nat) (r : TRef) : (enterRun s b j i r).cores = s.cores :=
  endRest_keeps (endRest_enterRun s b j i r) State.cores

theorem itraceSync_cores (s : State) (b : Blk) (u k : Nat) : (itraceSync (asActor b u k s) u).cores = s.cores := rfl

/-- A task that enters a core's running slot leaves the cores as they were; its context starts with NC_RUN (R312). -/
theorem startTask_nc_cores (s : State) {u : Nat} (hu : u < blkCount .nc) : (startTask s .nc u).cores = s.cores := by
  unfold startTask
  split
  · simp only [if_neg (show Blk.nc ≠ .ftr by decide)]
    exact (enterRun_cores _ _ _ _ _).trans (commitRest_keeps (commitRest_boundary_nc s hu) State.cores)
  · rfl

/-- What a bad command of a core's task leaves (R311). -/
def badRun (s : State) (u : Nat) : State := finishRun (raiseErr s .nc u 9 none) .nc u 0x0701

theorem badRun_cores (s : State) (u : Nat) : (badRun s u).cores = s.cores := outRest_keeps (outRest_raiseErr s .nc u 9 none) State.cores

section
variable {s : State} {u : Nat} {v : VTask} (hv : vtask s .nc u = some v) (hc : (coreAt s u).ctx = none)
include hv hc

theorem ncRunAct_unread (h : v.ent.cmdLen ≠ 64 ∨ (∃ x, vaRead s v.part v.ent.cmdAddr 64 = .error x) ∨
    ∃ c, vaRead s v.part v.ent.cmdAddr 64 = .ok c ∧ readRun c = none) : ncRunAct s u = badRun s u := by
  simp only [ncRunAct, hv, hc, Option.isSome_none, Bool.false_eq_true, if_false]
  split
  · rfl
  next hlen =>
    have hlen' : v.ent.cmdLen = 64 := by simpa using hlen
    rcases h with h | ⟨x, hx⟩ | ⟨c, hx, hr⟩
    · exact absurd hlen' h
    · rw [hx]
      rfl
    · simp only [hx, hr]
      rfl

variable {c : List Byte} {k : NcRun} (hlen : v.ent.cmdLen = 64) (hr : vaRead s v.part v.ent.cmdAddr 64 = .ok c) (hk : readRun c = some k)
include hlen hr hk

theorem ncRunAct_read : ncRunAct s u = if runOk s u v k then
      setCore s u { coreAt s u with ctx := some (freshCtx s v k), acc := [], tree := false, live := false, cover := [] }
    else setCore (badRun s u) u { coreAt (badRun s u) u with badRing := k.ring.map (·.1) } := by
  simp only [ncRunAct, hv, hc, hlen, hr, hk, Option.isSome_none, bne_self_eq_false, Bool.false_eq_true, if_false, badRun]

end

/-- The registers of a context that starts (R313, R314). -/
theorem freshCtx_regs (s : State) (v : VTask) (k : NcRun) : tget (fun _ => 0) (freshCtx s v k).x 2 = BitVec.ofNat 64 (2 ^ 63 + k.init) ∧
    tget (fun _ => 0) (freshCtx s v k).x 10 = BitVec.ofNat 64 k.a0 ∧ tget (fun _ => 0) (freshCtx s v k).x 11 = BitVec.ofNat 64 k.a1 ∧
    ∀ i, i ≠ 2 → i ≠ 10 → i ≠ 11 → tget (fun _ => (0 : DWord)) (freshCtx s v k).x i = 0 := by
  have h0 : twf (fun _ => (0 : DWord)) [] = true := rfl
  have h2 := twf_tset (fun _ => (0 : DWord)) 2 (BitVec.ofNat 64 (2 ^ 63 + k.init)) h0
  have h10 := twf_tset (fun _ => (0 : DWord)) 10 (BitVec.ofNat 64 k.a0) h2
  refine ⟨?_, ?_, tget_tset_same _ 11 _ h10, fun i hi2 hi10 hi11 => ?_⟩
  · exact (tget_tset_other _ 11 2 _ (by decide) h10).trans ((tget_tset_other _ 10 2 _ (by decide) h2).trans (tget_tset_same _ 2 _ h0))
  · exact (tget_tset_other _ 11 10 _ (by decide) h10).trans (tget_tset_same _ 10 _ h2)
  · exact (tget_tset_other _ 11 i _ hi11 h10).trans ((tget_tset_other _ 10 i _ hi10 h2).trans (tget_tset_other _ 2 i _ hi2 h0))

theorem xr_of_ctx {s : State} {u i : Nat} {x : Ctx} (h : (coreAt s u).ctx = some x) (hi : i ≠ 0) : xr s u i = tget (fun _ => 0) x.x i := by
  rw [xr, if_neg hi, cx, h]
  rfl

/-- The state in which a core's task has started. -/
def runStarted (s : State) (u : Nat) (v : VTask) (k : NcRun) : State :=
  setCore s u { coreAt s u with ctx := some (freshCtx s v k), acc := [], tree := false, live := false, cover := [] }

theorem coreAt_runStarted (s : State) (u : Nat) (v : VTask) (k : NcRun) : coreAt (runStarted s u v k) u =
    { coreAt s u with ctx := some (freshCtx s v k), acc := [], tree := false, live := false, cover := [] } :=
  coreAt_setCore_of_ne s u (fun h => Option.some_ne_none _ (congrArg Core.ctx h))

theorem runStarted_effect (s : State) (u : Nat) (v : VTask) (k : NcRun) :
    let y := runStarted s u v k
    (coreAt y u).ctx = some (freshCtx s v k) ∧ (coreAt y u).acc = [] ∧ (coreAt y u).live = false ∧
      (freshCtx s v k).pc = BitVec.ofNat 64 k.entry ∧ xr y u 2 = BitVec.ofNat 64 (2 ^ 63 + k.init) ∧ xr y u 10 = BitVec.ofNat 64 k.a0 ∧
      xr y u 11 = BitVec.ofNat 64 k.a1 ∧ (∀ i, i ≠ 2 → i ≠ 10 → i ≠ 11 → xr y u i = 0) ∧ y.spad = s.spad ∧ y.hbm = s.hbm := by
  intro y
  have hcore := coreAt_runStarted s u v k
  have hctx : (coreAt y u).ctx = some (freshCtx s v k) := by rw [hcore]
  obtain ⟨h2, h10, h11, hi⟩ := freshCtx_regs s v k
  refine ⟨hctx, by rw [hcore], by rw [hcore], rfl, (xr_of_ctx hctx (by decide)).trans h2, (xr_of_ctx hctx (by decide)).trans h10,
    (xr_of_ctx hctx (by decide)).trans h11, fun i a b c => ?_, rfl, rfl⟩
  by_cases h0 : i = 0
  · rw [xr, if_pos h0]
  · exact (xr_of_ctx hctx h0).trans (hi i a b c)

/-! ## MATRIX_COMMAND_COMPLETE -/

theorem matrixAct_idle {s : State} {u : Nat} (h : (coreAt (startMatrix s u) u).mq.find? (·.started) = none) : matrixAct s u = startMatrix s u := by
  simp only [matrixAct, h]

/-- The work of a matrix command, by its kind (R325 to R330). -/
def matRun (c : MCmd) : Nat → Ctx → List Byte → Eng Unit := match c.kind with | 0 => mmaRun | 1 => drainRun | 2 => rawStoreRun | _ => rawAddRun

/-- What a matrix command leaves that has run: its ticket is done and traced, or its task ends (R309, R320, R332). -/
def matEnd (u : Nat) (c : MCmd) (x : Ctx) (r : Except Nat Unit × State) : State :=
  match r with
  | (.ok _, s2) =>
    let s3 := modCtx s2 u c.task (fun y => { y with mDone := y.mDone ++ [c.ticket] })
    startMatrix (emit s3 ⟨s3.time, 5, (cntAt s3 .nc u).isPartial, u, blkCode .nc, x.flow, fld c.ids 24 16, fld c.ids 0 24, fld c.ids 40 8,
      c.task.seq.toNat, c.ticket % 65536, 0x0B, x.part, []⟩) u
  | (.error e, s2) => pruneTask (endsWith s2 u c.task (matStatus e)) u c.task

/-- The matrix queue without a command. -/
def withoutMat (s : State) (u : Nat) (c : MCmd) : State := setCore s u { coreAt s u with mq := (coreAt s u).mq.erase c }

theorem matrixAct_started {s : State} {u : Nat} {c : MCmd} {x : Ctx} (hm : (coreAt (startMatrix s u) u).mq.find? (·.started) = some c)
    (hx : taskCtx (startMatrix s u) u c.task = some x) :
    matrixAct s u = matEnd u c x (matRun c u x c.blk (withoutMat (startMatrix s u) u c)) := by
  simp only [matrixAct, hm, hx]
  rfl

theorem matEnd_fails {u : Nat} {c : MCmd} {x : Ctx} {r : Except Nat Unit × State} {k : Nat} (h : r.1 = Except.error k) :
    matEnd u c x r = pruneTask (endsWith r.2 u c.task (matStatus k)) u c.task := by
  obtain ⟨a, v⟩ := r
  cases h
  rfl

theorem matEnd_done {u : Nat} {c : MCmd} {x : Ctx} {r : Except Nat Unit × State} (h : r.1 = Except.ok ()) :
    ∃ z, matEnd u c x r = startMatrix z u ∧ z.cores = (modCtx r.2 u c.task (fun d => { d with mDone := d.mDone ++ [c.ticket] })).cores ∧
      z.spad = r.2.spad ∧ z.lane = r.2.lane := by
  obtain ⟨a, v⟩ := r
  cases h
  exact ⟨_, rfl, outRest_keeps (outRest_emit _ _) State.cores, outRest_keeps (outRest_emit _ _) State.spad, outRest_keeps (outRest_emit _ _) State.lane⟩

theorem startMatrix_cores_wf {s : State} (h : twf (fun _ => ({} : Core)) s.cores = true) (u : Nat) :
    twf (fun _ => ({} : Core)) (startMatrix s u).cores = true := by
  simp only [startMatrix]
  split
  · exact h
  · split
    · exact h
    · split
      · exact h
      · exact twf_tset _ _ _ h

theorem taskCtx_withoutMat {s : State} (h : twf (fun _ => ({} : Core)) s.cores = true) (u : Nat) (c : MCmd) (r : TRef) :
    taskCtx (withoutMat s u c) u r = taskCtx s u r := by
  rw [taskCtx, withoutMat, coreAt_setCore_same h]
  rfl

/-! ## RING_SIGNAL_ARRIVE -/

/-- A signal that arrives is counted (R343). -/
theorem ringArrive_counts {s : State} (hs : twf regRst s.regs = true) {g : RingSig} (hg : g.dst < blkCount .nc) (hf : frozen s = false) :
    reg (ringArrive s g) (ncPg g.dst + 0x81C) = reg s (ncPg g.dst + 0x81C) + 1 := by
  have hbump := reg_bump_same hs hf (ncPg g.dst + 0x81C) 1
  have hwf := bump_wf hs (ncPg g.dst + 0x81C) 1
  have hclaim (t : State) (id : Nat) (q : Word) : (ringClaim t g.dst id q).2.regs = t.regs := by
    simp only [ringClaim]
    split
    · rfl
    · split <;> rfl
  have ha : OffPba (ncPg g.dst + 0x81C) := offPba_page hg (by decide)
  unfold ringArrive
  extract_lets u s1 stale
  split
  · exact hbump
  · have hc := hclaim s1 g.ring g.seq
    split
    next t ht =>
      rw [ht] at hc
      exact (congrArg (fun r => tget regRst r (ncPg g.dst + 0x81C)) hc).trans hbump
    next t ht =>
      rw [ht] at hc
      have hreg : reg t (ncPg g.dst + 0x81C) = reg s1 (ncPg g.dst + 0x81C) := congrArg (fun r => tget regRst r (ncPg g.dst + 0x81C)) hc
      have htwf : twf regRst t.regs = true := by
        rw [hc]
        exact hwf
      have herr (k : Core) : reg (raiseErr (setCore t g.dst k) .nc g.dst 10 none) (ncPg g.dst + 0x81C) = reg t (ncPg g.dst + 0x81C) :=
        reg_raiseErr (s := setCore t g.dst k) htwf ha (by simp only [ncPg]; omega) (by simp only [ncPg]; omega) _ _
      exact (herr _).trans (hreg.trans hbump)

theorem ncRun_row {dt u : Nat} {s e : State} (hw : Works (arrive dt s)) (hp : unitThere (arrive dt s) .nc u = true)
    (he : e = itraceSync (asActor .nc u (opOf (startTask (arrive dt s) .nc u) .nc u) (startTask (arrive dt s) .nc u)) u) :
    exec (.ncRun dt u) s = .next (closing s (ncRunAct e u)) := by
  have h : actLive dt (onUnit .nc u (fun t => ncRunAct (itraceSync t u) u)) s = .next (closing s (ncRunAct e u)) := by
    rw [actLive_works hw, onUnit_there _ (by decide) hp, he]
  exact h

theorem matrix_row {dt u : Nat} {s m : State} (hw : Works (arrive dt s)) (hp : present (arrive dt s) .nc u = true)
    (hm : m = asActor .nc u (opOf (arrive dt s) .nc u) (arrive dt s)) :
    exec (.matrixCommandComplete dt u) s = .next (closing s (matrixAct m u)) := by
  have h : actLive dt (onCore u (fun t => matrixAct t u)) s = .next (closing s (matrixAct m u)) := by
    rw [actLive_works hw, onCore_present _ hp, hm]
  exact h

/-- Settles O41: NC_RUN by its command, the matrix unit by what its command answers, a ring signal by `ringArrive`. -/
theorem coreTasksStartAndWorkCompletes : Obligations.CoreTasksStartAndWorkCompletes := by
  unfold Obligations.CoreTasksStartAndWorkCompletes
  intro dt s u b t e m hw hp
  have hu : u < blkCount .nc := by
    have := (Bool.and_eq_true_iff.1 hp).1
    exact of_decide_eq_true this
  have hthere : unitThere b .nc u = true := hp
  have hcores : twf (fun _ => ({} : Core)) b.cores = true := tblOf_wf _ _
  have hregs : twf regRst b.regs = true := arrive_regs_wf dt s
  have hrun : exec (.ncRun dt u) s = .next (closing s (ncRunAct e u)) := ncRun_row hw hthere rfl
  have hmat : exec (.matrixCommandComplete dt u) s = .next (closing s (matrixAct m u)) := matrix_row hw hp rfl
  have hring : exec (.ringSignalArrive dt u) s = .next (closing s (ringSignalAct b u)) := actLive_works (f := fun t => ringSignalAct t u) hw
  have hecores : e.cores = b.cores := (itraceSync_cores t .nc u _).trans (startTask_nc_cores b hu)
  have hmcores : twf (fun _ => ({} : Core)) m.cores = true := hcores
  clear_value e m b
  refine ⟨fun v hv hc => ⟨fun c k hlen hr hk hok => ?_, fun h => ?_, fun c k hlen hr hk hok => ?_⟩, ?_, ?_⟩
  · have hact : ncRunAct e u = runStarted e u v k := (ncRunAct_read hv hc hlen hr hk).trans (if_pos hok)
    exact ⟨runStarted e u v k, by rw [hrun, hact], runStarted_effect e u v k⟩
  · rw [hrun, ncRunAct_unread hv hc h, badRun]
  · rw [ncRunAct_read hv hc hlen hr hk, if_neg (by rw [hok]; decide)] at hrun
    have hwf : twf (fun _ => ({} : Core)) (badRun e u).cores = true := by
      rw [badRun_cores, hecores]
      exact hcores
    refine ⟨_, hrun, ?_, ?_⟩
    · show (unitAt (badRun e u) .nc u).done = some 0x0701
      rw [badRun, finishRun, unitAt_setUnit_of_ne _ _ _ (fun h => Option.some_ne_none _ (congrArg UnitSt.done h))]
    · refine (congrArg Core.ctx (coreAt_setCore_same hwf u _)).trans ?_
      exact (congrArg Core.ctx (coreAt_congr (badRun_cores e u) u)).trans hc
  · intro h
    have hh : twf (fun _ => ({} : Core)) h.cores = true := startMatrix_cores_wf hmcores u
    have hidle (hnone : (coreAt h u).mq.find? (·.started) = none) : matrixAct m u = h := matrixAct_idle hnone
    have hstarted {c : MCmd} {x : Ctx} (hsome : (coreAt h u).mq.find? (·.started) = some c) (hx : taskCtx (withoutMat h u c) u c.task = some x) :
        matrixAct m u = matEnd u c x (matRun c u x c.blk (withoutMat h u c)) :=
      matrixAct_started hsome ((taskCtx_withoutMat hh u c c.task).symm.trans hx)
    clear_value h
    refine ⟨fun hnone => by rw [hmat, hidle hnone], ?_⟩
    intro c x hsome q hx r
    have hact : matrixAct m u = matEnd u c x r := hstarted hsome hx
    clear_value r
    rw [hmat, hact]
    refine ⟨fun hr => ?_, fun k hr => by rw [matEnd_fails hr]⟩
    obtain ⟨z, hz, hrest⟩ := matEnd_done (u := u) (c := c) (x := x) hr
    exact ⟨z, by rw [hz], hrest⟩
  · intro i g hi hg
    have hact : ringSignalAct b u = ringArrive { b with ringSigs := b.ringSigs.eraseIdx i } g := by
      unfold ringSignalAct
      dsimp only
      split
      next hnone => cases hi.symm.trans hnone
      next j hj =>
        cases hi.symm.trans hj
        rw [hg]
    refine ⟨_, hring, hact, fun hf => ?_⟩
    have hdst : g.dst = u := by
      have h := List.find?_some hi
      rw [hg] at h
      simp only [Bool.and_eq_true, beq_iff_eq] at h
      exact h.1.1
    rw [hact, ← hdst]
    exact ringArrive_counts (s := { b with ringSigs := b.ringSigs.eraseIdx i }) hregs (by rw [hdst]; exact hu) hf

end Sys2Proof.Machine
end

section
/-! The custom instructions queue work, wait for it and end the task (R309, R310, R320 to R323). -/

namespace Sys2Proof.Machine
open Sys2Proof

/-! ## Sequencing in task code -/

theorem nx_bind_ok {α β : Type} {m : Nx α} {s t : State} {a : α} (h : m s = (Except.ok a, t)) (g : α → Nx β) : (m >>= g) s = g a t := by
  show (ExceptT.bind m g : StateM State _) s = _
  simp only [ExceptT.bind, ExceptT.mk, bind, StateT.bind, h, ExceptT.bindCont]

theorem nx_bind_error {α β : Type} {m : Nx α} {s t : State} {e : Stop} (h : m s = (Except.error e, t)) (g : α → Nx β) :
    (m >>= g) s = (Except.error e, t) := by
  show (ExceptT.bind m g : StateM State _) s = _
  simp only [ExceptT.bind, ExceptT.mk, bind, StateT.bind, h, ExceptT.bindCont]
  rfl

theorem nx_need_met {c : Bool} (h : c = true) (e : Stop) (s : State) : Nx.need c e s = (Except.ok (), s) := by rw [h]; rfl

theorem nx_need_failed {c : Bool} (h : c = false) (e : Stop) (s : State) : Nx.need c e s = (Except.error e, s) := by rw [h]; rfl

theorem nx_legal_met {c : Bool} (h : c = true) (w : Nat) (s : State) : Nx.legal w c s = (Except.ok (), s) := nx_need_met h _ s

theorem nx_get_eq {α : Type} (f : State → α) (s : State) : Nx.get f s = (Except.ok (f s), s) := rfl

theorem nx_x_eq (u i : Nat) (s : State) : Nx.x u i s = (Except.ok (xr s u i), s) := rfl

theorem nx_modify_eq (f : State → State) (s : State) : Nx.modify f s = (Except.ok (), f s) := rfl

theorem nx_lift_ok {α : Type} {m : Eng α} {s t : State} {a : α} (h : m s = (Except.ok a, t)) (f : Nat → Stop) : Nx.lift m f s = (Except.ok a, t) := by
  rw [Nx.lift, h]

theorem needWindow_met {s : State} {u o n : Nat} (h : inWindow s u o n = true) (cause tval : Nat) :
    needWindow u o n cause tval s = (Except.ok (), s) := if_pos h

theorem nextPc_of_ctx {s : State} {u : Nat} {x : Ctx} (h : (coreAt s u).ctx = some x) : nextPc u 4 s = (Except.ok (x.pc + 4), s) := by
  rw [nextPc_eq, cx_eq h]
  rfl

/-! ## The matrix queue -/

/-- What queuing fixes of a matrix command, beside whether it has started. -/
def queuedAs (m : MCmd) : Nat × List Byte × Nat × TRef × Nat := (m.kind, m.blk, m.ticket, m.task, m.ids)

theorem startMatrix_queue {s : State} (u : Nat) : (coreAt (startMatrix s u) u).mq.map queuedAs = (coreAt s u).mq.map queuedAs := by
  simp only [startMatrix]
  split
  · rfl
  · split
    · rfl
    next x hx =>
      split
      · rfl
      next i _ =>
        rw [coreAt_setCore_of_ne s u (c := { coreAt s u with mq := (coreAt s u).mq.zipIdx.map (fun y => if y.2 = i then { y.1 with started := true } else y.1) })
          (fun h => Option.some_ne_none x (hx.symm.trans (congrArg Core.ctx h)))]
        have hstart (i : Nat) (l : List MCmd) (k : Nat) :
            ((l.zipIdx k).map (fun y => if y.2 = i then { y.1 with started := true } else y.1)).map queuedAs = l.map queuedAs := by
          induction l generalizing k with
          | nil => rfl
          | cons m l ih =>
            simp only [List.zipIdx_cons, List.map_cons, ih, List.cons.injEq, and_true]
            split <;> rfl
        exact hstart i _ 0

/-- The context after a matrix command was issued: its ticket is in the register (R309). -/
def matIssued (w : Nat) (y : Ctx) : Ctx := setX (fld w 7 5) (BitVec.ofNat 64 (y.mIssued + 1)) { y with mIssued := y.mIssued + 1 }

/-- The context after a stream command was issued: its ticket is in the register (R309). -/
def seIssued (w : Nat) (y : Ctx) : Ctx := setX (fld w 7 5) (BitVec.ofNat 64 (y.sIssued + 1)) { y with sIssued := y.sIssued + 1 }

/-- The state in which a matrix command stands last in its queue, its ticket in the register (R309, R310). -/
def matQueued (s : State) (u kind w : Nat) (b : List Byte) : State :=
  let x := cx s u
  let s1 := modCx s u (matIssued w)
  startMatrix (setCore s1 u { coreAt s1 u with mq := (coreAt s1 u).mq ++ [⟨kind, b, x.mIssued + 1, x.task, x.ids, false⟩] }) u

theorem modCx_cores_wf {s : State} (h : twf (fun _ => ({} : Core)) s.cores = true) (u : Nat) (f : Ctx → Ctx) :
    twf (fun _ => ({} : Core)) (modCx s u f).cores = true := twf_tset _ _ _ h

theorem coreAt_modCx {s : State} (h : twf (fun _ => ({} : Core)) s.cores = true) (u : Nat) (f : Ctx → Ctx) :
    coreAt (modCx s u f) u = { coreAt s u with ctx := (coreAt s u).ctx.map f } := coreAt_setCore_same h u _

section
variable {s : State} {u : Nat} {x : Ctx} (hx : (coreAt s u).ctx = some x) (hwf : twf (fun _ => ({} : Core)) s.cores = true)
include hx hwf

theorem matQueued_effect (kind w : Nat) (b : List Byte) :
    (coreAt (matQueued s u kind w b) u).mq.map queuedAs = (coreAt s u).mq.map queuedAs ++ [(kind, b, x.mIssued + 1, x.task, x.ids)] ∧
      (coreAt (matQueued s u kind w b) u).ctx = some (matIssued w x) ∧
      (matQueued s u kind w b).spad = s.spad := by
  unfold matQueued
  extract_lets y s1
  have hy : y = x := cx_eq hx
  have h1 : coreAt s1 u = { coreAt s u with ctx := (coreAt s u).ctx.map (matIssued w) } := coreAt_modCx hwf u _
  have hs1 : twf (fun _ => ({} : Core)) s1.cores = true := modCx_cores_wf hwf u _
  have hspad : s1.spad = s.spad := rfl
  clear_value s1
  obtain ⟨-, h2, h3, -⟩ := startMatrix_effect (setCore s1 u { coreAt s1 u with mq := (coreAt s1 u).mq ++ [⟨kind, b, y.mIssued + 1, y.task, y.ids, false⟩] }) u
  refine ⟨?_, ?_, h2.trans hspad⟩
  · rw [startMatrix_queue, coreAt_setCore_same hs1, h1, hy, List.map_append]
    rfl
  · rw [h3, coreAt_setCore_same hs1, h1, hx]
    rfl

end

theorem matrixIssue_full {s : State} {u k w : Nat} (hw : fld w 20 5 = 0) (h : 16 ≤ (coreAt s u).mq.length) :
    matrixIssue u k w 4 s = (Except.error .stall, s) := by
  unfold matrixIssue
  refine (nx_bind_ok (nx_legal_met (beq_iff_eq.2 hw) w s) _).trans ((nx_bind_ok (nx_get_eq _ s) _).trans (nx_bind_error (nx_need_failed ?_ _ s) _))
  rw [decide_eq_true h]
  rfl

theorem matrixIssue_queues {s r : State} {u k w o : Nat} {b : List Byte} (hw : fld w 20 5 = 0) (h : (coreAt s u).mq.length < 16)
    (ha : codeAddr (xr s u (fld w 15 5)).toNat = .sp o) (hi : inWindow s u o 32 = true) (hr : spRead u o 32 s = (Except.ok b, r)) :
    matrixIssue u k w 4 s = nextPc u 4 (matQueued r u k w b) := by
  unfold matrixIssue
  refine (nx_bind_ok (nx_legal_met (beq_iff_eq.2 hw) w s) _).trans ((nx_bind_ok (nx_get_eq _ s) _).trans
    ((nx_bind_ok (nx_need_met ?_ _ s) _).trans ((nx_bind_ok (nx_x_eq _ _ s) _).trans ?_)))
  · rw [decide_eq_false (Nat.not_le.2 h)]
    rfl
  · rw [ha]
    exact (nx_bind_ok (needWindow_met hi _ _) _).trans ((nx_bind_ok (nx_lift_ok hr _) _).trans (nx_bind_ok (nx_modify_eq _ r) _))

theorem customInsn_matrix {k : Nat} (hk : k < 4) (u w : Nat) : customInsn u k w 4 = matrixIssue u k w 4 := by
  rcases k with _ | _ | _ | _ | k
  · rfl
  · rfl
  · rfl
  · rfl
  · omega

/-! ## Streams, waits, signals and the end -/

/-- The state in which a stream command stands last in its queue, its ticket in the register (R309, R426). -/
def seQueued (s : State) (u k w : Nat) (b : List Byte) : State :=
  let x := cx s u
  let s1 := modCx s u (seIssued w)
  setCore s1 u { coreAt s1 u with sq := (coreAt s1 u).sq ++ [⟨b, k, x.sIssued + 1, x.ids, x.task⟩] }

theorem seQueued_effect {s : State} {u : Nat} {x : Ctx} (hx : (coreAt s u).ctx = some x) (hwf : twf (fun _ => ({} : Core)) s.cores = true) (k w : Nat)
    (b : List Byte) : (coreAt (seQueued s u k w b) u).sq = (coreAt s u).sq ++ [⟨b, k, x.sIssued + 1, x.ids, x.task⟩] ∧
      (coreAt (seQueued s u k w b) u).ctx = some (seIssued w x) := by
  unfold seQueued
  extract_lets y s1
  have hy : y = x := cx_eq hx
  have h1 : coreAt s1 u = { coreAt s u with ctx := (coreAt s u).ctx.map (seIssued w) } := coreAt_modCx hwf u _
  have hs1 : twf (fun _ => ({} : Core)) s1.cores = true := modCx_cores_wf hwf u _
  clear_value s1
  rw [coreAt_setCore_same hs1]
  refine ⟨?_, ?_⟩
  · rw [h1, hy]
  · show (coreAt s1 u).ctx = _
    rw [h1, hx]
    rfl

theorem seIssue_queues {s r : State} {u w : Nat} {b : List Byte} (hk : (xr s u (fld w 20 5)).toNat < 32) (h : (coreAt s u).sq.length < 16)
    (hr : rawLoad u (xr s u (fld w 15 5)).toNat 32 s = (Except.ok b, r)) :
    seIssue u w 4 s = nextPc u 4 (seQueued r u (xr s u (fld w 20 5)).toNat w b) := by
  unfold seIssue
  refine (nx_bind_ok (nx_x_eq _ _ s) _).trans ((nx_bind_ok (nx_legal_met (decide_eq_true hk) w s) _).trans ((nx_bind_ok (nx_get_eq _ s) _).trans
    ((nx_bind_ok (nx_need_met ?_ _ s) _).trans ((nx_bind_ok (nx_x_eq _ _ s) _).trans ((nx_bind_ok hr _).trans (nx_bind_ok (nx_modify_eq _ r) _))))))
  rw [decide_eq_false (Nat.not_le.2 h)]
  rfl

section
variable {s : State} {u w : Nat} {x : Ctx} (hx : (coreAt s u).ctx = some x)
include hx

theorem waitInsn_matrix (h7 : fld w 7 5 = 0) (ha : xr s u (fld w 15 5) = 0) (hc : (xr s u (fld w 20 5)).toNat ≤ x.mIssued) :
    ((xr s u (fld w 20 5)).toNat ≤ mDoneCount x → waitInsn u w 4 s = (Except.ok (x.pc + 4), s)) ∧
      (mDoneCount x < (xr s u (fld w 20 5)).toNat → waitInsn u w 4 s = (Except.error .stall, s)) := by
  have hcx := cx_eq hx
  have hlegal : (fld w 7 5 == 0 && decide ((xr s u (fld w 15 5)).toNat ≤ 1) &&
      decide ((xr s u (fld w 20 5)).toNat ≤ if xr s u (fld w 15 5) = 0 then (cx s u).mIssued else (cx s u).sIssued)) = true := by
    rw [h7, ha, hcx, if_pos rfl, decide_eq_true hc]
    rfl
  unfold waitInsn
  refine ⟨fun h => ?_, fun h => ?_⟩
  · refine (nx_bind_ok (nx_x_eq _ _ s) _).trans ((nx_bind_ok (nx_x_eq _ _ s) _).trans ((nx_bind_ok (nx_get_eq _ s) _).trans
      ((nx_bind_ok (nx_legal_met hlegal w s) _).trans ?_)))
    rw [if_pos ha, hcx]
    exact (nx_bind_ok (nx_need_met (decide_eq_true h) _ s) _).trans (nextPc_of_ctx hx)
  · refine (nx_bind_ok (nx_x_eq _ _ s) _).trans ((nx_bind_ok (nx_x_eq _ _ s) _).trans ((nx_bind_ok (nx_get_eq _ s) _).trans
      ((nx_bind_ok (nx_legal_met hlegal w s) _).trans ?_)))
    rw [if_pos ha, hcx]
    exact nx_bind_error (nx_need_failed (decide_eq_false (Nat.not_le.2 h)) _ s) _

theorem rsigInsn_sends (h7 : fld w 7 5 = 0) (h20 : fld w 20 5 = 0) (ha : (xr s u (fld w 15 5)).toNat < 4) {id st n d : Nat} (hr : x.ring = some (id, st, n))
    (hd : boundTo (graphAt s x.task.graph) .nc (if bitOf (xr s u (fld w 15 5)).toNat 0 then (st + n - 1) % n else (st + 1) % n) = some d) :
    rsigInsn u w 4 s = (Except.ok (x.pc + 4),
      { s with ringSigs := s.ringSigs ++ [⟨u, d, id, x.task.seq, fld (xr s u (fld w 15 5)).toNat 1 1, x.sIssued, x.task⟩] }) := by
  have hcx := cx_eq hx
  have hlegal : (fld w 7 5 == 0 && fld w 20 5 == 0 && decide ((xr s u (fld w 15 5)).toNat < 4) && (cx s u).ring.isSome) = true := by
    rw [h7, h20, decide_eq_true ha, hcx, hr]
    rfl
  unfold rsigInsn
  refine (nx_bind_ok (nx_x_eq _ _ s) _).trans ((nx_bind_ok (nx_get_eq _ s) _).trans ((nx_bind_ok (nx_legal_met hlegal w s) _).trans ?_))
  rw [hcx, hr]
  refine (nx_bind_ok (nx_modify_eq _ s) _).trans ?_
  rw [hd]
  exact nextPc_of_ctx (s := { s with ringSigs := _ }) hx

theorem fenceInsn_checks (h7 : fld w 7 5 = 0) (h20 : fld w 20 5 = 0) (ha : (xr s u (fld w 15 5)).toNat < 8) :
    ((bitOf (xr s u (fld w 15 5)).toNat 0 = true → mDoneCount x = x.mIssued) ∧ (bitOf (xr s u (fld w 15 5)).toNat 1 = true → sDoneCount x = x.sIssued) →
      fenceInsn u w 4 s = (Except.ok (x.pc + 4), s)) ∧
    (bitOf (xr s u (fld w 15 5)).toNat 0 = true ∧ mDoneCount x ≠ x.mIssued → fenceInsn u w 4 s = (Except.error .stall, s)) := by
  have hcx := cx_eq hx
  have hlegal : (fld w 7 5 == 0 && fld w 20 5 == 0 && decide ((xr s u (fld w 15 5)).toNat < 8)) = true := by
    rw [h7, h20, decide_eq_true ha]
    rfl
  unfold fenceInsn
  refine ⟨fun ⟨hm, hs⟩ => ?_, fun ⟨hb, hm⟩ => ?_⟩
  · refine (nx_bind_ok (nx_x_eq _ _ s) _).trans ((nx_bind_ok (nx_get_eq _ s) _).trans ((nx_bind_ok (nx_legal_met hlegal w s) _).trans
      ((nx_bind_ok (nx_need_met ?_ _ s) _).trans (nextPc_of_ctx hx))))
    rw [hcx, Bool.and_eq_true, Bool.or_eq_true, Bool.or_eq_true, beq_iff_eq, beq_iff_eq, Bool.not_eq_true', Bool.not_eq_true']
    exact ⟨(Bool.eq_false_or_eq_true _).symm.imp_right hm, (Bool.eq_false_or_eq_true _).symm.imp_right hs⟩
  · refine (nx_bind_ok (nx_x_eq _ _ s) _).trans ((nx_bind_ok (nx_get_eq _ s) _).trans ((nx_bind_ok (nx_legal_met hlegal w s) _).trans
      (nx_bind_error (nx_need_failed ?_ _ s) _)))
    rw [hcx, hb, beq_eq_false_iff_ne.2 hm]
    rfl

end

/-- The end of a running task with a status: the context keeps its pc and takes the status, and no stream command of it waits (R320). -/
theorem endCtx_effect {s : State} {u : Nat} {x : Ctx} (hx : (coreAt s u).ctx = some x) (hwf : twf (fun _ => ({} : Core)) s.cores = true)
    (hk : x.kill = none) (st : Nat) : (coreAt (endCtx s u st) u).ctx = some { x with kill := some st } ∧
      ∀ q ∈ (coreAt (endCtx s u st) u).sq, q.task ≠ x.task := by
  have hcx := cx_eq hx
  have hends : (coreAt (endsWith s u x.task st) u).ctx = some { x with kill := some st } := by
    rw [endsWith, modCtx]
    refine (congrArg Core.ctx (tget_tset_same _ u _ hwf)).trans ?_
    show (coreAt s u).ctx.map _ = _
    rw [hx]
    simp only [Option.map_some, if_true, hk]
  have hewf : twf (fun _ => ({} : Core)) (endsWith s u x.task st).cores = true := twf_tset _ _ _ hwf
  rw [endCtx, hcx, pruneTask, coreAt_setCore_same hewf]
  refine ⟨hends, fun q hq => ?_⟩
  simpa using (List.mem_filter.1 hq).2

theorem endInsn_ends {s : State} {u w : Nat} (h7 : fld w 7 5 = 0) (h20 : fld w 20 5 = 0) :
    endInsn u w 4 s = nextPc u 4 (endCtx (if xr s u (fld w 15 5) = 0 then s
      else setReg64 s (ncPg u + 0x198) (ncPg u + 0x19C) (xr s u (fld w 15 5)).toNat) u (if xr s u (fld w 15 5) = 0 then 0 else 0x0707)) := by
  have hlegal : (fld w 7 5 == 0 && fld w 20 5 == 0) = true := by
    rw [h7, h20]
    rfl
  unfold endInsn
  refine (nx_bind_ok (nx_x_eq _ _ s) _).trans ((nx_bind_ok (nx_legal_met hlegal w s) _).trans ?_)
  by_cases h : xr s u (fld w 15 5) = 0
  · simp only [if_pos h]
    exact nx_bind_ok (nx_modify_eq _ s) _
  · simp only [if_neg h]
    exact nx_bind_ok (nx_modify_eq _ s) _

/-- Settles O40: each custom instruction by the conditions it meets in turn. -/
theorem coreCommandsQueueWaitAndEnd : Obligations.CoreCommandsQueueWaitAndEnd := by
  intro s u w k x hx hwf
  dsimp only
  refine ⟨fun hk hw => ⟨fun h => ?_, fun o bk r h ha hi hr hc => ?_⟩, fun hk h bk r hr hc => ?_, fun h7 ha hc => waitInsn_matrix hx h7 ha hc,
    fun h7 h20 ha id st n d hring hd => rsigInsn_sends hx h7 h20 ha hring hd, fun h7 h20 ha => fenceInsn_checks hx h7 h20 ha, fun h7 h20 hk => ?_⟩
  · rw [customInsn_matrix hk]
    exact matrixIssue_full hw h
  · have hxr : (coreAt r u).ctx = some x := (congrArg Core.ctx (coreAt_congr hc u)).trans hx
    obtain ⟨h1, h2, h3⟩ := matQueued_effect hxr (by rw [hc]; exact hwf) k w bk
    refine ⟨matQueued r u k w bk, ?_, ?_, h2, h3⟩
    · rw [customInsn_matrix hk, matrixIssue_queues hw h ha hi hr, nextPc_of_ctx h2, matIssued, setX_pc]
    · rw [coreAt_congr hc] at h1
      exact h1
  · have hxr : (coreAt r u).ctx = some x := (congrArg Core.ctx (coreAt_congr hc u)).trans hx
    obtain ⟨h1, h2⟩ := seQueued_effect hxr (by rw [hc]; exact hwf) (xr s u (fld w 20 5)).toNat w bk
    refine ⟨seQueued r u (xr s u (fld w 20 5)).toNat w bk, ?_, ?_, h2⟩
    · refine (seIssue_queues hk h hr).trans ?_
      rw [nextPc_of_ctx h2, seIssued, setX_pc]
    · rw [coreAt_congr hc] at h1
      exact h1
  · have hend := endInsn_ends (s := s) (u := u) (w := w) h7 h20
    by_cases ha : xr s u (fld w 15 5) = 0
    · simp only [if_pos ha] at hend ⊢
      obtain ⟨h1, h2⟩ := endCtx_effect hx hwf hk 0
      exact ⟨_, _, hend, h1, rfl, rfl, h2⟩
    · simp only [if_neg ha] at hend ⊢
      obtain ⟨h1, h2⟩ := endCtx_effect (s := setReg64 s (ncPg u + 0x198) (ncPg u + 0x19C) (xr s u (fld w 15 5)).toNat) hx hwf hk 0x0707
      exact ⟨_, _, hend, h1, rfl, rfl, h2⟩

end Sys2Proof.Machine
end

section
/-! Each type of packet applied in its turn (R483 to R505). -/

namespace Sys2Proof.Machine
open Sys2Proof

theorem connAt_setConn_same {s : State} (h : twf (fun _ => ({} : Conn)) s.rolv.conns = true) (i : Nat) (c : Conn) : connAt (setConn s i c) i = c :=
  tget_tset_same _ i c h

section
variable {s : State} {i : Nat} {x : Rx}

/-! ## WRITE and READ_REQ -/

theorem applyPkt_write (h : x.ty = 1) : applyPkt s i x = some (rxWrite s i x) := by simp only [applyPkt, h]

theorem rxWrite_refused {r : Nat} {t : State} (h : remAccess s x x.pay.length false = (Except.error r, t)) :
    rxWrite s i x = answer t i x 5 (r + 2 ^ 16 * x.psn) [] := by
  simp only [rxWrite, h]

theorem rxWrite_stored {c o : Nat} {t u : State} (h : remAccess s x x.pay.length false = (Except.ok (c, o), t))
    (hw : spWrite c o x.pay t = (Except.ok (), u)) : rxWrite s i x = (winRowsIn c ((o % 512 + x.pay.length + 511) / 512) u).2 := by
  simp only [rxWrite, h, hw]

theorem spad_winRowsIn (c k : Nat) (s : State) : (winRowsIn c k s).2.spad = s.spad := bump_keeps State.spad (fun _ _ => rfl) _ _ _

theorem applyPkt_readReq (h : x.ty = 2) : applyPkt s i x = some (rxReadReq s i x) := by simp only [applyPkt, h]

theorem rxReadReq_refused {r : Nat} {t : State} (h : remAccess s x (64 * fld x.spec 32 16) true = (Except.error r, t)) :
    rxReadReq s i x = answer t i x 3 (fld x.spec 48 16 + 2 ^ 16 * r) [] := by
  simp only [rxReadReq, h]

theorem rxReadReq_answered {c o : Nat} {t u : State} {l : List Byte} (h : remAccess s x (64 * fld x.spec 32 16) true = (Except.ok (c, o), t))
    (hr : spWide c o (64 * fld x.spec 32 16) t = (Except.ok l, u)) : rxReadReq s i x = answer u i x 3 (fld x.spec 48 16) l := by
  simp only [rxReadReq, h, hr]

/-! ## CMD and CMD_RESP -/

theorem rxCmd_refused (h : rcmdRefused s x = true) : rxCmd s i x = answer s i x 7 (rejection x.dp 2 + 2 ^ 32 * fld x.spec 8 8) [] := by
  simp only [rxCmd, h, if_true]

theorem applyPkt_cmdResp (h : x.ty = 7) : applyPkt s i x = some (rxCmdResp s i x) := by simp only [applyPkt, h]

/-- A response to the partition's own submission leaves its handle and reads done (R499). -/
theorem rxCmdResp_effect (hs : tget (fun _ => (none : Option Nat)) s.rolv.submits (fld x.spec 32 8) = some i) (hr : twf regRst s.regs = true) :
    regN (rxCmdResp s i x) (rv (0x3000 + 0x100 * fld x.spec 32 8) + 0xC) = x.spec % 2 ^ 32 ∧
      regN (rxCmdResp s i x) (rv (0x3000 + 0x100 * fld x.spec 32 8) + 8) = 2 := by
  simp only [rxCmdResp, hs, if_true]
  have ht : twf regRst { s with rolv := { s.rolv with submits := tset (fun _ => none) s.rolv.submits (fld x.spec 32 8) none } }.regs = true := hr
  have h1 := setRegN_wf ht (rv (0x3000 + 0x100 * fld x.spec 32 8) + 0xC) (x.spec % 2 ^ 32)
  exact ⟨(regN_setRegN_other h1 (by omega) _).trans ((regN_setRegN_same ht _ _).trans (Nat.mod_mod _ _)), regN_setRegN_same h1 _ _⟩

/-! ## TRIGGER and CREDIT -/

theorem applyPkt_trigger (h : x.ty = 8) : applyPkt s i x = some (rxTrigger s i x) := by simp only [applyPkt, h]

/-- A trigger for a flow that has room reserves its sequence (R101, R500). -/
theorem rxTrigger_reserves {f h : Nat} (ht : tagFlow s x.dp (x.spec % 65536) = some (f, h)) (hs : (flowAt (graphAt s f) h).stopped = false)
    (hq : ∀ q, (flowAt (graphAt s f) h).highResv = some q → seqAbove (BitVec.ofNat 32 (fld x.spec 16 32)) q = true) (hr : tablesRoom s f h = true) :
    ∃ y, rxTrigger s i x = reserve y f h { seq := BitVec.ofNat 32 (fld x.spec 16 32), stamp := BitVec.ofNat 64 (leAt x.pay 0 8) } ∧
      y.graphs = s.graphs ∧ y.regs = s.regs := by
  cases hh : (flowAt (graphAt s f) h).highResv with
  | none =>
    simp only [rxTrigger, ht, hs, hr, hh, Bool.not_true, Bool.or_self, Bool.false_eq_true, if_false]
    exact ⟨_, rfl, rfl, rfl⟩
  | some q =>
    simp only [rxTrigger, ht, hs, hr, hh, hq q hh, Bool.not_true, Bool.or_self, Bool.false_eq_true, if_false]
    exact ⟨_, rfl, rfl, rfl⟩

theorem rxCredit_adds (h : bitOf x.spec 24 = false) (hc : twf (fun _ => ({} : Conn)) s.rolv.conns = true)
    (hk : twf (fun _ => (0 : Nat)) (connAt s i).credits = true) :
    rxCredit s i x = setCredits s i (x.spec % 65536) (creditsFor s i (x.spec % 65536) + fld x.spec 16 8) ∧
      creditsFor (rxCredit s i x) i (x.spec % 65536) = creditsFor s i (x.spec % 65536) + fld x.spec 16 8 := by
  have heq : rxCredit s i x = setCredits s i (x.spec % 65536) (creditsFor s i (x.spec % 65536) + fld x.spec 16 8) := by
    simp only [rxCredit, h, Bool.false_eq_true, if_false]
  refine ⟨heq, ?_⟩
  rw [heq, creditsFor, setCredits, connAt_setConn_same hc]
  exact tget_tset_same _ _ _ hk

/-! ## ARRIVE and THROTTLE_NOTICE -/

theorem applyPkt_arrive (h : x.ty = 10) : applyPkt s i x = rxArrive s x := by simp only [applyPkt, h]

theorem rxLoose_throttle (h : x.ty = 12) (hc : twf (fun _ => ({} : Conn)) s.rolv.conns = true) :
    (connAt (rxLoose s i x) i).throttled = bitOf x.spec 0 := by
  have heq : rxLoose s i x = raiseIrq (bump (setConn s i { connAt s i with throttled := bitOf x.spec 0 }) (rv 0x80C) 1) .rolv 0 10 (some (peerOwner s i)) := by
    simp only [rxLoose, h]
  have hrest := (irqRest_raiseIrq (bump (setConn s i { connAt s i with throttled := bitOf x.spec 0 }) (rv 0x80C) 1) .rolv 0 10
    (some (peerOwner s i))).trans (irqRest_bump _ _ _)
  rw [heq, rest_keeps hrest (connAt · i), connAt_setConn_same hc]

end

/-- Settles O51: the cases of `applyPkt`, one lemma for each type's effect. -/
theorem packetTypesTakeEffect : Obligations.PacketTypesTakeEffect := by
  intro s i x
  refine ⟨fun r t h hr => ?_, fun c o t u h hr hw => ⟨_, applyPkt_write h, ?_, rxWrite_stored hr hw⟩, fun c o t l u h hr hw => ?_, fun r t h hr => ?_,
    fun h hr => ?_, fun f g h ht hs hq hroom => ?_, fun h h24 hc hk => ?_, fun h hn => ?_, fun h hv hself => ?_, fun h => ?_, fun h hc => rxLoose_throttle h hc, ?_⟩
  · rw [applyPkt_write h, rxWrite_refused hr]
  · rw [rxWrite_stored hr hw]
    exact spad_winRowsIn _ _ _
  · rw [applyPkt_readReq h, rxReadReq_answered hr hw]
  · rw [applyPkt_readReq h, rxReadReq_refused hr]
  · simp only [applyPkt, h]
    exact congrArg some (rxCmd_refused hr)
  · obtain ⟨y, hy, hg, hregs⟩ := rxTrigger_reserves (i := i) ht hs hq hroom
    exact ⟨y, by rw [applyPkt_trigger h, hy], hg, hregs⟩
  · obtain ⟨heq, hcred⟩ := rxCredit_adds h24 hc hk
    refine ⟨rxCredit s i x, by simp only [applyPkt, h], hcred, ?_, ?_⟩
    · rw [heq]; rfl
    · rw [heq]; rfl
  · rw [applyPkt_arrive h, rxArrive]
    refine if_neg ?_
    rcases hn with hn | hn <;> simp [hn]
  · rw [applyPkt_arrive h, rxArrive]
    exact if_pos (by rw [hv, hself]; rfl)
  · simp only [applyPkt, h]
  · intro p h hs hp hr
    obtain ⟨h1, h2⟩ := rxCmdResp_effect (i := i) hs hr
    exact ⟨_, applyPkt_cmdResp h, h1, h2⟩

end Sys2Proof.Machine
end

section
/-! The transport's timers, links and PTP (R485 to R488, R493, R494, R509 to R511). -/

namespace Sys2Proof.Machine
open Sys2Proof

/-! ## Timers of a connection -/

section
variable {s : State} {i : Nat} (hr : rolvOn s = true) (hp : peerUp s i = true)
include hr hp

theorem rtoAct_due (he : exhausted s i = false) : rtoAct s i = forAll (dueAgain s i) (again i) s := by
  simp only [rtoAct, hr, hp, he, Bool.not_true, Bool.or_self, Bool.false_eq_true, if_false]

theorem ackTimerAct_due {t : DWord} (ht : (connAt s i).unackedAt = some t) (h : 2000 ≤ (s.time - t).toNat) : ackTimerAct s i = sendLoose s i 4 0 0 [] := by
  simp only [ackTimerAct, ht, hr, hp, decide_eq_true h, Bool.and_self, if_true, sendAck]

theorem keepaliveAct_due (h0 : fld (app s (rv 0x11C)) 0 16 * 1000 ≠ 0) (h : fld (app s (rv 0x11C)) 0 16 * 1000 ≤ (s.time - (connAt s i).txAt).toNat) :
    keepaliveAct s i = sendLoose s i 0x0D 0 0 [] := by
  simp only [keepaliveAct, hr, hp, bne_iff_ne.2 h0, decide_eq_true h, Bool.and_self, if_true]

theorem peerTimeoutAct_silent (h0 : fld (app s (rv 0x11C)) 16 16 * 10000 ≠ 0)
    (h : fld (app s (rv 0x11C)) 16 16 * 10000 ≤ (s.time - (connAt s i).rxAt).toNat) : peerTimeoutAct s i = peerDown s i := by
  simp only [peerTimeoutAct, hr, hp, bne_iff_ne.2 h0, decide_eq_true h, Bool.not_true, Bool.or_self, Bool.and_self, Bool.or_true, Bool.false_eq_true, if_false,
    if_true]

theorem peerTimeoutAct_unlinked (h : linksDown s i = true) : peerTimeoutAct s i = peerDown s i := by
  simp only [peerTimeoutAct, hr, hp, h, Bool.not_true, Bool.or_self, Bool.or_true, Bool.true_or, Bool.false_eq_true, if_false, if_true]

/-- A rate falls by its share when congestion was seen in the period, and rises by its step when not, within the link's (R488). -/
theorem rateAct_due {k : Nat} (hk : linkOf s i = some k) (h : fld (app s (rv 0x120)) 8 8 * 1000 ≤ (s.time - (connAt s i).periodAt).toNat) :
    rateAct s i = setConn s i { connAt s i with
      rate := max 1000 (if (connAt s i).ecnSeen then (connAt s i).rate - (connAt s i).rate / 2 ^ fld (app s (rv 0x120)) 0 4
        else min (linkRate s k) ((connAt s i).rate + 100 * fld (app s (rv 0x120)) 16 16))
      ecnSeen := false
      periodAt := s.time } := by
  simp only [rateAct, hk, hr, hp, decide_eq_false (Nat.not_lt.2 h), Bool.not_true, Bool.or_self, Bool.false_eq_true, if_false]

end

theorem mem_dueAgain {s : State} {i : Nat} {p : Pkt} (h : p ∈ dueAgain s i) :
    p ∈ (connAt s i).flight ∧ p.sacked = false ∧ rtoNs s p.tries ≤ (s.time - p.sent).toNat := by
  obtain ⟨hmem, hdue⟩ := List.mem_filter.1 h
  rw [Bool.and_eq_true, Bool.not_eq_true', decide_eq_true_iff] at hdue
  exact ⟨hmem, hdue⟩

/-! ## Links -/

/-- A link's state as its page shows it, with the report of the change (R511). -/
def linkShown (s : State) (l : Nat) (up : Bool) : State :=
  let f := pg .fabp (l / 4)
  let s1 := { s with rolv := { s.rolv with links := if up then sins s.rolv.links l else sdel s.rolv.links l } }
  raiseIrq (if up then orReg s1 (f + 0x110) (2 ^ (l % 4)) else clrReg s1 (f + 0x110) (2 ^ (l % 4))) .fabp (l / 4) 8 none

theorem linkChangeAct_up {s : State} {l : Nat} (hl : s.rolv.links.contains l = false) (he : linkExists s l = true) :
    linkChangeAct s l true = sendLldp (sendHello (linkShown s l true) l) l := by
  simp only [linkChangeAct, hl, he, Bool.not_true, Bool.or_self, Bool.and_false, Bool.false_and, Bool.false_eq_true, if_false, if_true]
  rfl

theorem linkChangeAct_down {s : State} {l : Nat} (hl : s.rolv.links.contains l = true) (hw : (livePeers s).filter (fun i => linkOf s i == some l) = []) :
    linkChangeAct s l false = linkShown s l false := by
  simp only [linkChangeAct, hl, hw, Bool.not_true, Bool.not_false, Bool.or_self, Bool.and_false, Bool.false_and, Bool.false_eq_true, if_false]
  rfl

theorem bitOf_clrReg_same {s : State} (hs : twf regRst s.regs = true) (a i : Nat) : bitOf (regN (clrReg s a (2 ^ i)) a) i = false := by
  rw [bitOf_eq_testBit, regN, reg_clrReg hs, BitVec.testBit_toNat, BitVec.getLsbD_and, BitVec.getLsbD_not, BitVec.getLsbD_ofNat]
  simp

theorem linkShown_effect {s : State} (hs : twf regRst s.regs = true) {l : Nat} (hl : l < 16) (up : Bool) :
    (linkShown s l up).rolv.links = (if up then sins s.rolv.links l else sdel s.rolv.links l) ∧ (linkShown s l up).hbm = s.hbm ∧
      bitOf (regN (linkShown s l up) (pg .fabp (l / 4) + 0x110)) (l % 4) = up := by
  have hn : l / 4 < blkCount .fabp := by rw [show blkCount .fabp = 4 from rfl]; omega
  have hoff : OffPba (pg .fabp (l / 4) + 0x110) := offPba_page hn (by decide)
  unfold linkShown
  extract_lets f r s1
  have h1 : twf regRst s1.regs = true := hs
  have h2 : twf regRst (if up then orReg s1 (f + 0x110) (2 ^ (l % 4)) else clrReg s1 (f + 0x110) (2 ^ (l % 4))).regs = true := by
    split
    · exact orReg_wf h1 _ _
    · exact clrReg_wf h1 _ _
  refine ⟨?_, ?_, ?_⟩
  · rw [rest_keeps (irqRest_raiseIrq _ _ _ _ _) (fun t => t.rolv.links)]
    cases up <;> rfl
  · rw [rest_keeps (irqRest_raiseIrq _ _ _ _ _) State.hbm]
    cases up <;> rfl
  · rw [regN, reg_raiseIrq h2 hoff (by omega)]
    cases up
    · exact bitOf_clrReg_same h1 _ _
    · exact bitOf_orReg_same h1 _ (by omega)

section
variable {s : State} {l : Nat} (hr : rolvOn s = true) (hl : s.rolv.links.contains l = true)
include hr hl

theorem lldpTimerAct_due (h : 30000000000 ≤ now s - tget (fun _ => 0) s.rolv.lldpAt l) : lldpTimerAct s l = sendLldp s l := by
  simp only [lldpTimerAct, hr, hl, decide_eq_true h, Bool.and_self, if_true]

theorem helloTimer_due (h : 100000000 ≤ now s - tget (fun _ => 0) s.rolv.helloAt l) : helloTimer s l = sendHello s l := by
  simp only [helloTimer, hr, hl, decide_eq_true h, Bool.and_self, if_true]

end

/-! ## PTP -/

theorem setLocked_off {s : State} (hs : twf regRst s.regs = true) :
    bitOf (regN (setLocked s false) (rv 0x1104)) 0 = false ∧ irqRest (setLocked s false) = irqRest s := by
  unfold setLocked
  split
  next h => exact ⟨beq_iff_eq.1 h, rfl⟩
  · refine ⟨?_, (irqRest_raiseIrq _ _ _ _ _).trans rfl⟩
    have hoff : OffPba (rv 0x1104) := offPba_page (b := .rolv) (n := 0) (by decide) (by decide)
    rw [if_neg (by decide), regN, reg_raiseIrq (b := .rolv) (n := 0) (clrReg_wf hs _ _) hoff (by decide)]
    exact bitOf_clrReg_same hs (rv 0x1104) 0

/-- A lost synchronisation unlocks, forgets the master, and leaves TIMECNT running (R510). -/
theorem ptpLoss_due {s : State} (hs : twf regRst s.regs = true) (hon : bitOf (app s (rv 0x1100)) 0 = true)
    (h : 2000000000 ≤ (s.time - s.rolv.ptpAt).toNat) :
    bitOf (regN (ptpLoss s) (rv 0x1104)) 0 = false ∧ (ptpLoss s).rolv.ptpGood = 0 ∧ (ptpLoss s).rolv.ptpBest = none ∧ (ptpLoss s).time = s.time := by
  have heq : ptpLoss s = setLocked (clrReg { s with rolv := { s.rolv with ptpGood := 0, ptpBest := none, ptpT := [] } } (rv 0x1104) 2) false := by
    simp only [ptpLoss, hon, decide_eq_true h, Bool.and_self, if_true]
  rw [heq]
  generalize ht : clrReg { s with rolv := { s.rolv with ptpGood := 0, ptpBest := none, ptpT := [] } } (rv 0x1104) 2 = t
  have hwf : twf regRst t.regs = true := by
    rw [← ht]
    exact clrReg_wf (s := { s with rolv := { s.rolv with ptpGood := 0, ptpBest := none, ptpT := [] } }) hs _ _
  obtain ⟨hbit, hrest⟩ := setLocked_off hwf
  refine ⟨hbit, ?_, ?_, ?_⟩
  · rw [rest_keeps hrest (fun u => u.rolv.ptpGood), ← ht]
    rfl
  · rw [rest_keeps hrest (fun u => u.rolv.ptpBest), ← ht]
    rfl
  · rw [rest_keeps hrest State.time, ← ht]
    rfl

/-- A Sync of the master followed gives t2 (R509). -/
theorem ptpTake_sync {s : State} {l : Nat} {m : List Byte} (stamp : DWord) {k : List Nat} (hd : beAt m 4 1 = fld (app s (rv 0x1100)) 4 4)
    (hv : beAt m 1 1 % 16 = 2) (hb : s.rolv.ptpBest = some (k, l)) (hk : nth 0 k 7 = beAt m 20 8) (ht : beAt m 0 1 % 16 = 0) :
    ptpTake s l m stamp = { s with rolv := { s.rolv with ptpSeq := beAt m 30 2, ptpT := [trunc ((stamp.toNat : Int) - ptpCorr m) 64] } } := by
  simp only [ptpTake, hd, hv, hb, hk, ht, bne_self_eq_false, beq_self_eq_true, Bool.or_self, Bool.and_self, Bool.false_eq_true, if_false, if_true]
  rfl

theorem frameIn_whole {s : State} {l : Nat} (h : (frameIn s l).1 = true) : (frameIn s l).2 = bump s (pg .fabp (l / 4) + 0x804) 1 := by
  simp only [frameIn] at h ⊢
  split at h
  · cases h
  · rw [if_neg ‹_›]

theorem ptpMessage_whole {s : State} {l : Nat} (hon : ptpOn s l = true) (hf : (frameIn s l).1 = true) (m : List Byte) (stamp : DWord) :
    ptpMessage s l m stamp = ptpTake (frameIn s l).2 l m stamp := by
  simp only [ptpMessage, hon, Bool.not_true, Bool.false_eq_true, if_false]
  split
  next t ht => rw [ht]
  next t ht =>
    rw [ht] at hf
    cases hf

/-- Settles O52: each timer by its condition, a link's change by what it shows, PTP by `ptpLoss` and `ptpTake`. -/
theorem transportTimersTakeEffect : Obligations.TransportTimersTakeEffect := by
  unfold Obligations.TransportTimersTakeEffect
  intro dt s i l msg stamp b c hw hon
  have hregs : twf regRst b.regs = true := arrive_regs_wf dt s
  have hrto : exec (.rtoExpiry dt i) s = .next (closing s (rtoAct b i)) := actLive_works (f := fun t => rtoAct t i) hw
  have hack : exec (.ackTimer dt i) s = .next (closing s (ackTimerAct b i)) := actLive_works (f := fun t => ackTimerAct t i) hw
  have hkeep : exec (.keepaliveTimer dt i) s = .next (closing s (keepaliveAct b i)) := actLive_works (f := fun t => keepaliveAct t i) hw
  have hpeer : exec (.peerTimeout dt i) s = .next (closing s (peerTimeoutAct b i)) := actLive_works (f := fun t => peerTimeoutAct t i) hw
  have hrate : exec (.ratePeriod dt i) s = .next (closing s (rateAct b i)) := actLive_works (f := fun t => rateAct t i) hw
  have hlink (up : Bool) : exec (.linkChange dt l up) s = .next (closing s (linkChangeAct b l up)) := actLive_works (f := fun t => linkChangeAct t l up) hw
  have hlldp : exec (.lldpTimer dt l) s = .next (closing s (lldpTimerAct b l)) := actLive_works (f := fun t => lldpTimerAct t l) hw
  have hhello : exec (.helloTimer dt l) s = .next (closing s (helloTimer b l)) := actLive_works (f := fun t => helloTimer t l) hw
  have hloss : exec (.ptpSyncLoss dt) s = .next (closing s (ptpLoss b)) := actLive_works (f := ptpLoss) hw
  have hptp : exec (.ptpEventMessage dt l msg stamp) s = .next (closing s (ptpMessage b l msg stamp)) :=
    actLive_works (f := fun t => ptpMessage t l msg stamp) hw
  clear_value b
  refine ⟨fun hp => ⟨fun he => ⟨by rw [hrto, rtoAct_due hon hp he], fun p hmem => mem_dueAgain hmem⟩,
      fun t ht h => by rw [hack, ackTimerAct_due hon hp ht h], fun h0 h => by rw [hkeep, keepaliveAct_due hon hp h0 h],
      fun h0 h => by rw [hpeer, peerTimeoutAct_silent hon hp h0 h], fun h => by rw [hpeer, peerTimeoutAct_unlinked hon hp h],
      fun k hk h => by rw [hrate, rateAct_due hon hp hk h]⟩, fun hl16 hl he => ?_, fun hl16 hl hlive => ?_,
    fun hl h => by rw [hlldp, lldpTimerAct_due hon hl h], fun hl h => by rw [hhello, helloTimer_due hon hl h],
    fun h0 h => ⟨_, hloss, ptpLoss_due hregs h0 h⟩, fun k hpon hf hd hv hb hk ht => ?_⟩
  · obtain ⟨h1, h2, h3⟩ := linkShown_effect hregs hl16 true
    exact ⟨linkShown b l true, by rw [hlink, linkChangeAct_up hl he], h1, h2, h3⟩
  · obtain ⟨h1, h2, h3⟩ := linkShown_effect hregs hl16 false
    exact ⟨linkShown b l false, by rw [hlink, linkChangeAct_down hl hlive], h1, h2, h3⟩
  · have hrest := irqRest_bump b (pg .fabp (l / 4) + 0x804) 1
    rw [ptpMessage_whole hpon hf, ptpTake_sync stamp (k := k) ?_ hv ?_ hk ht] at hptp
    · refine ⟨_, hptp, rfl, rfl, ?_, rfl⟩
      rw [frameIn_whole hf]
      exact rest_keeps hrest State.time
    · rw [frameIn_whole hf, rest_keeps hrest (app · (rv 0x1100))]
      exact hd
    · rw [frameIn_whole hf, rest_keeps hrest (fun t => t.rolv.ptpBest)]
      exact hb

end Sys2Proof.Machine
end

section
/-! Remote operations, the peer table, submissions and discovery (R481, R493 to R503, R508, R512). -/

namespace Sys2Proof.Machine
open Sys2Proof

/-! ## BARRIER and SIGNAL -/

theorem onUnit_rolv {u : Nat} {s : State} (f : State → State) (h : unitThere s .rolv u = true) :
    onUnit .rolv u f s = f (asActor .rolv u (opOf (startTask s .rolv 0) .rolv u) (startTask s .rolv 0)) := by
  simp only [onUnit, h, Bool.not_true, Bool.false_eq_true, if_false, if_true]

theorem remote_row {dt k : Nat} {s e : State} (row : State → State) (hw : Works (arrive dt s)) (hu : unitThere (arrive dt s) .rolv k = true)
    (he : e = asActor .rolv k (opOf (startTask (arrive dt s) .rolv 0) .rolv k) (startTask (arrive dt s) .rolv 0)) :
    actLive dt (onUnit .rolv k row) s = .next (closing s (row e)) := by
  rw [actLive_works hw, onUnit_rolv _ hu, he]

theorem barrier_row {dt k : Nat} {s e : State} (hw : Works (arrive dt s)) (hu : unitThere (arrive dt s) .rolv k = true)
    (he : e = asActor .rolv k (opOf (startTask (arrive dt s) .rolv 0) .rolv k) (startTask (arrive dt s) .rolv 0)) :
    exec (.barrier dt k) s = .next (closing s (barrierAct e k)) := remote_row (fun t => barrierAct t k) hw hu he

theorem signal_row {dt k : Nat} {s e : State} (hw : Works (arrive dt s)) (hu : unitThere (arrive dt s) .rolv k = true)
    (he : e = asActor .rolv k (opOf (startTask (arrive dt s) .rolv 0) .rolv k) (startTask (arrive dt s) .rolv 0)) :
    exec (.signal dt k) s = .next (closing s (signalAct e k)) := remote_row (fun t => signalAct t k) hw hu he

section
variable {s : State} {k : Nat} {r : TRef} (hon : rolvOn s = true) (hrun : (unitAt s .rolv k).run = some r) (hdone : (unitAt s .rolv k).done = none)
include hon hrun hdone

theorem barrierAct_bad (ha : (remOp s k).acted = false) (hc : remCmdOf s r = none) : barrierAct s k = remEnd s k 0x0A01 := by
  simp only [barrierAct, hrun, hdone, ha, hon, hc, Option.isSome_none, Bool.not_true, Bool.or_self, Bool.false_eq_true, if_false]

section
variable {c : RemCmd} (ha : (remOp s k).acted = false) (hc : remCmdOf s r = some c) (hop : c.op ≠ 2)
include ha hc hop

theorem barrierAct_foreign (h : bgValid s c.group = false ∨ bgOwner s c.group ≠ (graphAt s r.graph).part) : barrierAct s k = remEnd s k 0x0A03 := by
  have hbad : (!bgValid s c.group || bgOwner s c.group != (graphAt s r.graph).part || decide (bgMembers s c.group < 2)) = true := by
    rcases h with h | h
    · simp [h]
    · simp [h]
  simp only [barrierAct, hrun, hdone, ha, hon, hc, if_neg hop, hbad, Option.isSome_none, Bool.not_true, Bool.or_self, Bool.false_eq_true, if_false, if_true]

theorem barrierAct_arrives (hv : bgValid s c.group = true) (ho : bgOwner s c.group = (graphAt s r.graph).part) (hm : 2 ≤ bgMembers s c.group)
    (hself : bgSelf s c.group = false) (hup : peerUp s (bgRoot s c.group) = true) : barrierAct s k =
      (sendConn (setRemOp s k { acted := true, since := s.time }) (bgRoot s c.group) 0x0A (5 * (graphAt s r.graph).part)
        (c.group + 2 ^ 8 * r.seq.toNat) [] 0 0).2 := by
  simp only [barrierAct, hrun, hdone, ha, hon, hc, if_neg hop, hv, ho, hself, hup, decide_eq_false (Nat.not_lt.2 hm), Option.isSome_none, Bool.not_true,
    bne_self_eq_false, Bool.or_self, Bool.false_eq_true, if_false]

end

variable {c : RemCmd} (hc : remCmdOf s r = some c) (hop : c.op ≠ 1)
  (hf : (connAt s c.peer).flight.any (fun x => x.mov == 0x1000 + k) = false) (hq : (connAt s c.peer).queue.any (fun x => x.mov == 0x1000 + k) = false)
include hc hop hf hq

theorem signalAct_ready : signalAct s k =
    if (!peerValid s c.peer || peerOwner s c.peer != (graphAt s r.graph).part) = true then remEnd s k 0x0A01
    else if (connAt s c.peer).state = 2 then remEnd s k 0x0A02
    else if (connAt s c.peer).taken.contains c.tag = true then remEnd s k 0x0A04
    else if 0 < creditsFor s c.peer c.tag then
      (sendConn (setCredits s c.peer c.tag (creditsFor s c.peer c.tag - 1)) c.peer 0x08 (5 * (graphAt s r.graph).part) (c.tag + 2 ^ 16 * r.seq.toNat)
        (natLe 8 (stampOf s r).toNat ++ List.replicate 56 0) (0x1000 + k) 0).2
    else if (remOp s k).acted = true then s
    else sendLoose (setRemOp s k { acted := true, since := s.time }) c.peer 0x0F (5 * (graphAt s r.graph).part) c.tag [] := by
  simp only [signalAct, hrun, hdone, hon, hc, decide_eq_false hop, hf, hq, Option.isSome_none, Bool.not_true, Bool.or_self, Bool.false_eq_true, if_false]

theorem signalAct_invalid (h : peerValid s c.peer = false) : signalAct s k = remEnd s k 0x0A01 :=
  (signalAct_ready hon hrun hdone hc hop hf hq).trans (if_pos (by simp [h]))

variable (hv : peerValid s c.peer = true) (ho : peerOwner s c.peer = (graphAt s r.graph).part)
include hv ho

theorem signalAct_down (h : (connAt s c.peer).state = 2) : signalAct s k = remEnd s k 0x0A02 :=
  (signalAct_ready hon hrun hdone hc hop hf hq).trans ((if_neg (by simp [hv, ho])).trans (if_pos h))

theorem signalAct_sends (hs : (connAt s c.peer).state ≠ 2) (ht : (connAt s c.peer).taken.contains c.tag = false) (hk : 0 < creditsFor s c.peer c.tag) :
    signalAct s k = (sendConn (setCredits s c.peer c.tag (creditsFor s c.peer c.tag - 1)) c.peer 0x08 (5 * (graphAt s r.graph).part)
      (c.tag + 2 ^ 16 * r.seq.toNat) (natLe 8 (stampOf s r).toNat ++ List.replicate 56 0) (0x1000 + k) 0).2 :=
  (signalAct_ready hon hrun hdone hc hop hf hq).trans ((if_neg (by simp [hv, ho])).trans ((if_neg hs).trans ((if_neg (by rw [ht]; decide)).trans
    (if_pos hk))))

end

/-! ## The peer table -/

theorem bitOf_mask_read (v : Word) : bitOf (((v &&& ~~~2) ||| 1) &&& BitVec.ofNat 32 0x3).toNat 0 = true ∧
    bitOf (((v &&& ~~~2) ||| 1) &&& BitVec.ofNat 32 0x3).toNat 1 = false := by
  rw [bitOf_eq_testBit, bitOf_eq_testBit, BitVec.testBit_toNat, BitVec.testBit_toNat]
  constructor <;> simp

theorem bitOf_mask_write (v : Word) : bitOf (((v &&& ~~~1) ||| 2) &&& BitVec.ofNat 32 0x3).toNat 0 = false ∧
    bitOf (((v &&& ~~~1) ||| 2) &&& BitVec.ofNat 32 0x3).toNat 1 = true := by
  rw [bitOf_eq_testBit, bitOf_eq_testBit, BitVec.testBit_toNat, BitVec.testBit_toNat]
  constructor <;> simp

section
variable {s : State} {who : Who} (h : writes s who (rv 0x184)) (v : Word)
include h

theorem regWrite_peerOp : regWrite s who (rv 0x184) v = rolvReg s who ⟨.rolv, 0, 0x184⟩ 0 (v &&& BitVec.ofNat 32 0x3) :=
  regWrite_eq_regEffect (b := .rolv) (n := 0) h (by decide) (by decide) (show rowSpec .rolv 0x184 = some (.wo, 0x3, 0) from rfl) (.inr rfl) v

theorem regWrite_peerRead : regWrite s who (rv 0x184) ((v &&& ~~~2) ||| 1) = peerReadAct s := by
  obtain ⟨h0, h1⟩ := bitOf_mask_read v
  rw [regWrite_peerOp h, rolvReg, if_neg (by simp only; omega), if_pos rfl]
  simp only [h0, h1, Bool.false_eq_true, if_false, if_true]

theorem regWrite_peerWrite : regWrite s who (rv 0x184) ((v &&& ~~~1) ||| 2) = peerWriteAct s := by
  obtain ⟨h0, h1⟩ := bitOf_mask_write v
  rw [regWrite_peerOp h, rolvReg, if_neg (by simp only; omega), if_pos rfl]
  simp only [h0, h1, Bool.false_eq_true, if_false, if_true]

end

theorem peerReadAct_keeps {β : Type} (k : State → β) (hk : ∀ (t : State) a n, k (setRegN t a n) = k t) (s : State) : k (peerReadAct s) = k s :=
  forAll_keeps k (f := fun j t => setRegN t (rv (0x1C0 + 4 * j)) (leAt _ (4 * j) 4)) (fun _ _ t => hk t _ _) s

/-- A new entry shows the node number that PEER_DATA gave it (R496). -/
theorem peerWriteAct_node {s : State} (hp : twf (fun _ => List.replicate 64 (0 : Byte)) s.rolv.peers = true)
    (hv : peerValid s (regN s (rv 0x180) % 2 ^ 14) = false) :
    (peerEnt (peerWriteAct s) (regN s (rv 0x180) % 2 ^ 14)).take 2 = (natLe 4 (regN s (rv 0x1C0))).take 2 := by
  simp only [peerWriteAct, hv, Bool.false_eq_true, if_false]
  refine (congrArg (List.take 2) (tget_tset_same _ _ _ hp)).trans ?_
  rfl

/-! ## Submissions to peers -/

theorem submits_putWire (s : State) (l : Nat) (p : Option Nat) (b : List Byte) : (putWire s l p b).rolv.submits = s.rolv.submits := by
  unfold putWire
  split
  · rfl
  · exact rest_keeps (irqRest_bump _ _ _) (fun t => t.rolv.submits)

theorem submits_wirePkt (s : State) (i : Nat) (p : Pkt) (a : Bool) : (wirePkt s i p a).rolv.submits = s.rolv.submits := by
  unfold wirePkt
  split
  · rfl
  · exact submits_putWire _ _ _ _

theorem submits_fillWindow (n : Nat) (s : State) (i : Nat) : (fillWindow n s i).rolv.submits = s.rolv.submits := by
  induction n generalizing s with
  | zero => rfl
  | succ n ih =>
    unfold fillWindow
    dsimp only
    split
    · rfl
    · split
      · rfl
      · exact (ih _).trans (submits_wirePkt _ _ _ _)

theorem rowSpec_rsubOp : ∀ p < 4, rowSpec .rolv (0x3004 + 0x100 * p) = some (.wo, 0xFF, p) := by decide

/-- RSUB_OP written by its partition submits the command (R497). -/
theorem regWrite_rsubOp {s : State} {who : Who} {p : Nat} (hp : p < 4) (hw : Works s) (h : writes s who (rv (0x3004 + 0x100 * p))) (v : Word) :
    regWrite s who (rv (0x3004 + 0x100 * p)) v = rsubAct s p (v.toNat % 256) := by
  have hmask : (v &&& BitVec.ofNat 32 0xFF).toNat = v.toNat % 256 := by
    rw [BitVec.toNat_and, BitVec.toNat_ofNat]
    exact Nat.and_two_pow_sub_one_eq_mod _ 8
  obtain ⟨-, hrun, hstop⟩ := hw
  have hoff : 0x3004 + 0x100 * p < (blkPlace .rolv).2.2.1 := by
    rw [show (blkPlace .rolv).2.2.1 = 0x10000 from rfl]
    omega
  refine (regWrite_eq_regEffect (b := .rolv) (n := 0) h (by decide) hoff (rowSpec_rsubOp p hp) (.inr rfl) v).trans ?_
  show rolvReg s who ⟨.rolv, 0, 0x3004 + 0x100 * p⟩ p (v &&& BitVec.ofNat 32 0xFF) = _
  rw [rolvReg, if_neg (by simp only; omega), if_neg (by simp only; omega), if_neg (by simp only; omega), if_neg (by simp only; omega),
    if_pos (by simp only; omega)]
  simp [live, hrun, hstop, hmask]

section
variable {s : State} {p : Nat} (op : Nat)

theorem rsubAct_busy (h : fld (regN s (rv (0x3000 + 0x100 * p) + 8)) 0 2 = 1) : rsubAct s p op = raiseErr s .rolv 0 9 (some p) := if_pos h

variable (h : fld (regN s (rv (0x3000 + 0x100 * p) + 8)) 0 2 ≠ 1)
include h

theorem rsubAct_foreign (hv : peerValid s (regN s (rv (0x3000 + 0x100 * p)) % 2 ^ 14) = false ∨
    peerOwner s (regN s (rv (0x3000 + 0x100 * p)) % 2 ^ 14) ≠ p) :
    rsubAct s p op = setRegN s (rv (0x3000 + 0x100 * p) + 8) (3 + 2 ^ 9) := by
  refine (if_neg h).trans (if_pos ?_)
  rcases hv with hv | hv
  · rw [hv]
    rfl
  · rw [bne_iff_ne.2 hv, Bool.or_true]

theorem rsubAct_submits (hv : peerValid s (regN s (rv (0x3000 + 0x100 * p)) % 2 ^ 14) = true)
    (ho : peerOwner s (regN s (rv (0x3000 + 0x100 * p)) % 2 ^ 14) = p) (hs : (connAt s (regN s (rv (0x3000 + 0x100 * p)) % 2 ^ 14)).state ≠ 2) :
    tget (fun _ => (none : Option Nat)) (rsubAct s p op).rolv.submits p = some (regN s (rv (0x3000 + 0x100 * p)) % 2 ^ 14) := by
  simp only [rsubAct, if_neg h, hv, ho, if_neg hs, Bool.not_true, bne_self_eq_false, Bool.or_self, Bool.false_eq_true, if_false]
  refine (congrArg (fun t => tget (fun _ => (none : Option Nat)) t p) (submits_fillWindow 1 _ _)).trans ?_
  exact tget_tset_ne _ p _ (Option.some_ne_none _) _

end

/-! ## Discovery -/

section
variable {s : State} {l : Nat}

theorem frameIn_sound (h : injArmed s .fabp (l / 4) 0 = false) : frameIn s l = (true, bump s (pg .fabp (l / 4) + 0x804) 1) := by
  simp only [frameIn, h, Bool.false_eq_true, if_false]

theorem frameIn_lost (h : injArmed s .fabp (l / 4) 0 = true) : (frameIn s l).1 = false := by
  simp only [frameIn, h, if_true]

variable (hon : rolvOn s = true) (hl : s.rolv.links.contains l = true)
include hon hl

theorem lldpAct_stops {f : List Byte} (h : (frameIn s l).1 = false ∨ (ethBody f).1 ≠ 0x88CC) : lldpAct s l f = (frameIn s l).2 := by
  simp only [lldpAct, hon, hl, Bool.not_true, Bool.or_self, Bool.false_eq_true, if_false]
  refine if_pos ?_
  rcases h with h | h
  · simp [h]
  · simp [h]

theorem lldpAct_recorded {f : List Byte} (hf : (frameIn s l).1 = true) (h : (ethBody f).1 = 0x88CC) : ∃ pay, lldpAct s l f = discPut (frameIn s l).2 1 l pay := by
  simp only [lldpAct, hon, hl, hf, h, Bool.not_true, bne_self_eq_false, Bool.or_self, Bool.false_eq_true, if_false]
  exact ⟨_, rfl⟩

theorem solicitAct_lost {f : List Byte} (h : (frameIn s l).1 = false) : solicitAct s l f = (frameIn s l).2 := by
  simp only [solicitAct, hon, hl, h, Bool.not_true, Bool.not_false, Bool.or_self, Bool.false_eq_true, if_false, if_true]

theorem solicitAct_arp {f : List Byte} (hf : (frameIn s l).1 = true) (h : (ethBody f).1 = 0x0806) (h4 : ipv4 s = true)
    (hb : beAt (ethBody f).2 0 8 = 0x0001080006040001) (ho : ((ethBody f).2.drop 24).take 4 = (ownIp s).take 4) :
    solicitAct s l f = putOther (frameIn s l).2 l (ethHead s l ((f.drop 6).take 6) 0x0806 ++ natBe 8 0x0001080006040002 ++ macOf s l ++ (ownIp s).take 4 ++
      ((ethBody f).2.drop 8).take 10) := by
  simp only [solicitAct, hon, hl, hf, Bool.not_true, Bool.or_self, Bool.false_eq_true, if_false]
  exact if_pos ⟨h, h4, hb, ho⟩

end

section
variable {s u : State} {l : Nat} {g : Dgram} {x : Rx} (hx : rxDgram s l g = (some x, u)) (hty : x.ty = 0x0E)
include hx hty

theorem helloAct_foreign (h : leAt x.pay 2 2 ≠ ownDomain u) : helloAct s l g = bump u (rv 0x810) 1 := by
  simp only [helloAct, hx, hty, bne_self_eq_false, Bool.false_eq_true, if_false, bne_iff_ne.2 h, if_true]

theorem helloAct_recorded (hd : leAt x.pay 2 2 = ownDomain u) (h : leAt x.pay 0 2 ≠ ownNode u) : helloAct s l g = discPut u 2 l (x.pay.take 48) := by
  simp only [helloAct, hx, hty, hd, bne_self_eq_false, Bool.false_eq_true, if_false, beq_eq_false_iff_ne.2 h, Bool.false_and]

end

theorem discPut_off {s : State} (h : regN s (rv 0x148) = 0) (kind l : Nat) (pay : List Byte) : discPut s kind l pay = s := if_pos h

theorem discPut_full {s : State} (h : regN s (rv 0x148) ≠ 0) (hf : ringFull s (rv 0x14C) (rv 0x150) (rv 0x148) = true) (kind l : Nat) (pay : List Byte) :
    discPut s kind l pay = raiseErr s .rolv 0 10 none := (if_neg h).trans (if_pos hf)

/-- Settles O53: the cases of `barrierAct`, `signalAct`, the peer table, `rsubAct` and discovery. -/
theorem remoteOperationsTakeEffect : Obligations.RemoteOperationsTakeEffect := by
  unfold Obligations.RemoteOperationsTakeEffect
  intro dt s who k l v f g b t e
  have hpeers : twf (fun _ => List.replicate 64 (0 : Byte)) b.rolv.peers = true := tblOf_wf _ _
  have hbar (hw : Works b) (hu : unitThere b .rolv k = true) : exec (.barrier dt k) s = .next (closing s (barrierAct e k)) := barrier_row hw hu rfl
  have hsig (hw : Works b) (hu : unitThere b .rolv k = true) : exec (.signal dt k) s = .next (closing s (signalAct e k)) := signal_row hw hu rfl
  have hlldp (hw : Works b) : exec (.lldp dt l f) s = .next (closing s (lldpAct b l f)) := actLive_works (f := fun t => lldpAct t l f) hw
  have hns (hw : Works b) : exec (.neighbourSolicitation dt l f) s = .next (closing s (solicitAct b l f)) := actLive_works (f := fun t => solicitAct t l f) hw
  have hhello (hw : Works b) : exec (.hello dt l g) s = .next (closing s (helloAct b l g)) := actLive_works (f := fun t => helloAct t l g) hw
  have hread (h : writes b who (rv 0x184)) : exec (.peerRead dt who v) s = .next (closing s (peerReadAct b)) :=
    (exec_of_writes rfl h).trans (by rw [regWrite_peerRead h])
  have hwrite (h : writes b who (rv 0x184)) : exec (.peerWrite dt who v) s = .next (closing s (peerWriteAct b)) :=
    (exec_of_writes rfl h).trans (by rw [regWrite_peerWrite h])
  have hrsub (hp : whoPart who < 4) (hw : Works b) (h : writes b who (rv (0x3004 + 0x100 * whoPart who))) :
      exec (.rsubOp dt who v) s = .next (closing s (rsubAct b (whoPart who) (v.toNat % 256))) :=
    (exec_of_writes rfl h).trans (by rw [regWrite_rsubOp hp hw h])
  clear_value e t b
  refine ⟨?_, fun h => ⟨hread h, hwrite h, peerReadAct_keeps State.rolv (fun _ _ _ => rfl) b, peerReadAct_keeps State.hbm (fun _ _ _ => rfl) b,
    peerWriteAct_node hpeers⟩, ?_, fun hw hon hl hl16 => ?_⟩
  · intro hw hu hon r hrun hdone p
    refine ⟨fun hc ha => by rw [hbar hw hu, barrierAct_bad hon hrun hdone ha hc], fun c hc hop ha =>
        ⟨fun h => by rw [hbar hw hu, barrierAct_foreign hon hrun hdone ha hc hop h], fun hv ho hm hself hup => by
          rw [hbar hw hu, barrierAct_arrives hon hrun hdone ha hc hop hv ho hm hself hup]⟩,
      fun c hc hop hf hq => ⟨fun h => by rw [hsig hw hu, signalAct_invalid hon hrun hdone hc hop hf hq h],
        fun hv ho h => by rw [hsig hw hu, signalAct_down hon hrun hdone hc hop hf hq hv ho h],
        fun hv ho hs ht hk => by rw [hsig hw hu, signalAct_sends hon hrun hdone hc hop hf hq hv ho hs ht hk]⟩⟩
  · rintro p rfl hp hw h
    exact ⟨hrsub hp hw h, rsubAct_busy _, rsubAct_foreign _, rsubAct_submits _⟩
  · refine ⟨frameIn_sound, fun h => ⟨frameIn_lost h, by rw [hlldp hw, lldpAct_stops hon hl (.inl (frameIn_lost h))],
        by rw [hns hw, solicitAct_lost hon hl (frameIn_lost h)]⟩, fun h => by rw [hlldp hw, lldpAct_stops hon hl (.inr h)], fun h hf => ?_,
      fun h h4 hb ho hf => by rw [hns hw, solicitAct_arp hon hl hf h h4 hb ho], fun x u hx hty =>
        ⟨fun h => by rw [hhello hw, helloAct_foreign hx hty h], fun hd h => by rw [hhello hw, helloAct_recorded hx hty hd h]⟩,
      fun h kd y => discPut_off h kd l y, fun h hf kd y => discPut_full h hf kd l y⟩
    obtain ⟨pay, hpay⟩ := lldpAct_recorded hon hl hf h
    exact ⟨pay, by rw [hlldp hw, hpay]⟩

end Sys2Proof.Machine
end

section
/-! Replay channels take their lists' items (R51, R166 to R170). -/

namespace Sys2Proof.Machine
open Sys2Proof

theorem boundary_of_none {b : Blk} {n : Nat} {s : State} (h : s.commits.contains (pg b n) = false) : boundary b n s = s :=
  if_neg (by rw [h]; decide)

theorem rowSpec_listWrIdx : ∀ l < 16, rowSpec .rpl (0x11C + 0x10 * l) = some (.rw, 0xFFFFFFFF, l) := by decide

theorem regWrite_listWrIdx {s : State} {who : Who} {r l : Nat} (hr : r < 8) (hl : l < 16) (h : writes s who (rp r + 0x11C + 0x10 * l)) (v : Word) :
    regWrite s who (rp r + 0x11C + 0x10 * l) v = setReg s (rp r + 0x11C + 0x10 * l) v := by
  rw [Nat.add_assoc] at h ⊢
  have hoff : 0x11C + 0x10 * l < (blkPlace .rpl).2.2.1 := by
    rw [show (blkPlace .rpl).2.2.1 = 0x1000 from rfl]
    omega
  refine (regWrite_eq_regEffect (b := .rpl) h hr hoff (rowSpec_listWrIdx l hl) (.inl rfl) v).trans ?_
  show setReg s (rp r + (0x11C + 0x10 * l)) (v &&& BitVec.ofNat 32 0xFFFFFFFF) = _
  rw [and_fullMask]

/-! ## Which item is taken -/

theorem nextList_lt {s : State} {r c : Nat} (h : nextList s r = some c) : c < 16 := by
  unfold nextList at h
  split at h
  · have hfold (l : List Nat) (acc : Option (Nat × Nat)) (hl : ∀ c ∈ l, c < 16) (ha : ∀ p ∈ acc, p.2 < 16) :
        ∀ p ∈ l.foldl (fun acc c => match itemDue s r c with
          | none => acc
          | some t => match acc with
            | none => some (t, c)
            | some (t', _) => if t < t' then some (t, c) else acc) acc, p.2 < 16 := by
      induction l generalizing acc with
      | nil => exact ha
      | cons c l ih =>
        refine ih _ (fun d hd => hl d (List.mem_cons_of_mem _ hd)) ?_
        have hc := hl c (List.mem_cons_self ..)
        beta_reduce
        split
        · exact ha
        · split
          · rintro p ⟨⟩
            exact hc
          · split
            · rintro p ⟨⟩
              exact hc
            · exact ha
    obtain ⟨p, hp, rfl⟩ := Option.map_eq_some_iff.1 h
    exact hfold (List.range 16) none (fun c hc => List.mem_range.1 hc) (fun p hp => by cases hp) p hp
  · obtain ⟨d, -, rfl⟩ := List.mem_map.1 (List.mem_of_find?_eq_some h)
    exact Nat.mod_lt _ (by decide)

/-- Does an item go back in sequence (R170). -/
def itemBack (s : State) (r c : Nat) (q : Word) : Bool :=
  match tget (fun _ => (none : Option Word)) (rplAt s r).prev c with | some p => !seqAbove q p | none => false

section
variable {s : State} {r c : Nat} (commit : Nat → State → State) (hp : present s .rpl r = true) (hh : (rplAt s r).halted = false)
  (hen : bitOf (regN s (rp r + 8)) 0 = true) (hn : nextList s r = some c)
include hp hh hen hn

theorem replayItem_unreadable {e : Fail} (kind : Nat) (he : readItem s r c = .error e) : replayItem commit s r kind = rplHalt s r c 3 := by
  simp only [replayItem, hp, hh, hen, hn, he, Bool.not_true, Bool.or_self, Bool.false_eq_true, if_false]

variable {it : List Byte} (hit : readItem s r c = .ok it)
include hit

theorem replayItem_back {kind : Nat} (hk : leAt it 0 2 = kind) (h3 : kind ≠ 3) (hb : itemBack s r c (BitVec.ofNat 32 (leAt it 4 4)) = true) :
    replayItem commit s r kind = rplHalt s r c 1 := by
  simp only [replayItem, hp, hh, hen, hn, hit, hk, Bool.not_true, Bool.or_self, Bool.false_eq_true, if_false, bne_self_eq_false]
  refine if_pos ?_
  rw [bne_iff_ne.2 h3]
  exact hb

theorem replayItem_frame {n : Nat} (hk : leAt it 0 2 = 1) (hb : itemBack s r c (BitVec.ofNat 32 (leAt it 4 4)) = false) (hc : listCtx s r c = some n) :
    replayItem commit s r 1 = injectFrame commit s r c n it := by
  simp only [replayItem, hp, hh, hen, hn, hit, hk, hc, Bool.not_true, Bool.or_self, Bool.false_eq_true, if_false, bne_self_eq_false]
  exact if_neg (by rw [show ((1 : Nat) != 3) = true from rfl, Bool.true_and]; exact Bool.eq_false_iff.1 hb)

theorem replayItem_drop (hk : leAt it 0 2 = 2) (hb : itemBack s r c (BitVec.ofNat 32 (leAt it 4 4)) = false) :
    replayItem commit s r 2 = injectDrop s r c it := by
  simp only [replayItem, hp, hh, hen, hn, hit, hk, Bool.not_true, Bool.or_self, Bool.false_eq_true, if_false, bne_self_eq_false]
  exact if_neg (by rw [show ((2 : Nat) != 3) = true from rfl, Bool.true_and]; exact Bool.eq_false_iff.1 hb)

theorem replayItem_end (hk : leAt it 0 2 = 3) : replayItem commit s r 3 = injectEnd s r c := by
  simp only [replayItem, hp, hh, hen, hn, hit, hk, Bool.not_true, Bool.or_self, Bool.false_eq_true, if_false, bne_self_eq_false, Bool.false_and]

end

/-! ## What taking an item leaves -/

theorem rplAt_congr {s t : State} (h : t.rpl = s.rpl) (r : Nat) : rplAt t r = rplAt s r := by rw [rplAt, h, rplAt]

theorem rplAt_setRpl_of_ne (s : State) (r : Nat) {x : Rpl} (h : x ≠ {}) : rplAt (setRpl s r x) r = x := tget_tset_ne _ r x h s.rpl

theorem rplAt_setRpl_same {s : State} (h : twf (fun _ => ({} : Rpl)) s.rpl = true) (r : Nat) (x : Rpl) : rplAt (setRpl s r x) r = x := tget_tset_same _ r x h

theorem rplHalt_halted (s : State) (r c cause : Nat) : (rplAt (rplHalt s r c cause) r).halted = true := by
  have hrest : irqRest (rplHalt s r c cause) = irqRest (setRpl s r { rplAt s r with halted := true }) := by
    simp only [rplHalt]
    rw [irqRest_raiseIrq, irqRest_raiseIrq, irqRest_raiseErr]
    rfl
  rw [rplAt_congr (rest_keeps hrest State.rpl), rplAt_setRpl_of_ne s r (fun h => Bool.noConfusion (congrArg Rpl.halted h))]

theorem itemTaken_regs_wf {s : State} (hs : twf regRst s.regs = true) (r c : Nat) (q : Option Word) : twf regRst (itemTaken s r c q).regs = true :=
  setReg_wf hs _ _

theorem reg_itemTaken {s : State} (hs : twf regRst s.regs = true) (r c : Nat) (q : Option Word) :
    reg (itemTaken s r c q) (rp r + 0x210 + 4 * c) = reg s (rp r + 0x210 + 4 * c) + 1 := reg_setReg_same hs _ _

theorem turn_itemTaken {s : State} (hs : twf (fun _ => ({} : Rpl)) s.rpl = true) (r c : Nat) (q : Option Word) :
    (rplAt (itemTaken s r c q) r).turn = (c + 1) % 16 := congrArg Rpl.turn (rplAt_setRpl_same hs r _)

theorem irqRest_countGaps (s : State) (r c : Nat) (q : Word) : irqRest (countGaps s r c q) = irqRest s := by
  unfold countGaps
  split
  · exact irqRest_bump _ _ _
  · rfl

theorem countGaps_wf {s : State} (hs : twf regRst s.regs = true) (r c : Nat) (q : Word) : twf regRst (countGaps s r c q).regs = true := by
  unfold countGaps
  split
  · exact bump_wf hs _ _
  · exact hs

theorem dlogOn_congr {s t : State} (ha : t.applied = s.applied) {p : Nat} (hr : reg t (dl p + 8) = reg s (dl p + 8)) : dlogOn t p = dlogOn s p := by
  simp only [dlogOn, app, regN, ha, hr]

/-- A DROP item of a list that feeds no context is counted and taken; without a log that is all (R51, R167). -/
theorem injectDrop_unfed {s : State} (hs : twf regRst s.regs = true) (hr : twf (fun _ => ({} : Rpl)) s.rpl = true) {r c : Nat} (it : List Byte)
    (hc16 : c < 16) (hc : listCtx s r c = none) (hd : dlogOn s (owner s .rpl r) = false) :
    reg (injectDrop s r c it) (rp r + 0x210 + 4 * c) = reg s (rp r + 0x210 + 4 * c) + 1 ∧ (rplAt (injectDrop s r c it) r).turn = (c + 1) % 16 := by
  let q := BitVec.ofNat 32 (leAt it 4 4)
  let u := bump (countGaps s r c q) (rp r + 0x804) 1
  have hcount : irqRest u = irqRest s := (irqRest_bump _ _ _).trans (irqRest_countGaps s r c q)
  have hwf : twf regRst u.regs = true := bump_wf (countGaps_wf hs r c q) _ _
  have hreg (a : Nat) (h4 : a ≠ rp r + 0x804) (h8 : a ≠ rp r + 0x808) : reg u a = reg s a := by
    refine (reg_bump_other (countGaps_wf hs r c q) h4 1).trans ?_
    unfold countGaps
    split
    · exact reg_bump_other hs h8 _
    · rfl
  have hfar : dl (owner s .rpl r) + 8 < rp r := by
    have hp : owner s .rpl r < 4 := Nat.mod_lt _ (by decide)
    simp only [dl, rp, pg, blkPlace]
    omega
  have hon : dlogOn (itemTaken u r c (some q)) (owner s .rpl r) = false := by
    refine (dlogOn_congr (t := itemTaken u r c (some q)) (s := s) (rest_keeps hcount State.applied) ?_).trans hd
    exact (reg_setReg_other (s := setRpl u r _) hwf (by omega) _).trans (hreg _ (by omega) (by omega))
  have hact : injectDrop s r c it = itemTaken u r c (some q) := by
    simp only [injectDrop, hc]
    exact if_pos (by rw [hon]; rfl)
  rw [hact, reg_itemTaken hwf, turn_itemTaken (by rw [rest_keeps hcount State.rpl]; exact hr), hreg _ (by omega) (by omega)]
  exact ⟨rfl, rfl⟩

theorem bitOf_setFld_zero (w i : Nat) : bitOf (setFld w i 1 0) i = false := by
  simp only [bitOf, setFld, fld, Nat.shiftRight_eq_div_pow, Nat.zero_mod, Nat.zero_mul, Nat.add_zero, Nat.pow_one]
  have hle : 2 ^ i * (w / 2 ^ i % 2) ≤ w := (Nat.mul_le_mul_left _ (Nat.mod_le _ 2)).trans (Nat.mul_div_le w (2 ^ i))
  rw [Nat.mul_comm, Nat.sub_mul_div_of_le _ _ _ hle]
  exact beq_eq_false_iff_ne.2 (by omega)

theorem setFld_zero_le (w i n : Nat) : setFld w i n 0 ≤ w := by
  simp only [setFld, Nat.zero_mod, Nat.zero_mul, Nat.add_zero]
  exact Nat.sub_le _ _

/-- What is left before an END item's interrupt: its list disabled, the item taken (R167). -/
def listEnded (s : State) (r c : Nat) : State :=
  let a := rp r + 0x118 + 0x10 * c
  itemTaken (setApp (clrReg s a (2 ^ 16)) a (BitVec.ofNat 32 (setFld (app s a) 16 1 0))) r c none

/-- An END item disables its list, is counted and raises its interrupt (R167). -/
theorem injectEnd_effect {s : State} (hs : twf regRst s.regs = true) (ha : twf regRst s.applied = true) {r c : Nat} (hr : r < 8) (hc : c < 16) :
    bitOf (listCfg (injectEnd s r c) r c) 16 = false ∧ reg (injectEnd s r c) (rp r + 0x210 + 4 * c) = reg s (rp r + 0x210 + 4 * c) + 1 ∧
      bitOf (regN (injectEnd s r c) (rp r + 0x10)) 8 = true ∧ (injectEnd s r c).hbm = s.hbm := by
  have hact : injectEnd s r c = raiseIrq (listEnded s r c) .rpl r 8 none := rfl
  have hrest : irqRest (injectEnd s r c) = irqRest (listEnded s r c) := hact ▸ irqRest_raiseIrq _ _ _ _ _
  have hcl : twf regRst (clrReg s (rp r + 0x118 + 0x10 * c) (2 ^ 16)).regs = true := clrReg_wf hs _ _
  have hwf : twf regRst (listEnded s r c).regs = true := itemTaken_regs_wf hcl r c none
  refine ⟨?_, ?_, ?_, (rest_keeps hrest State.hbm).trans rfl⟩
  · have happ : listCfg (injectEnd s r c) r c = listCfg (listEnded s r c) r c := congrArg (fun m => (tget regRst m _).toNat) (rest_keeps hrest State.applied)
    rw [happ, listCfg]
    refine (congrArg (bitOf · 16) (app_setApp_same (s := clrReg s _ _) ha (rp r + 0x118 + 0x10 * c) _)).trans ?_
    rw [BitVec.toNat_ofNat, Nat.mod_eq_of_lt ((setFld_zero_le _ 16 1).trans_lt (show app s _ < 2 ^ 32 from BitVec.isLt _)), bitOf_setFld_zero]
  · have hoff : OffPba (rp r + 0x210 + 4 * c) := by
      rw [Nat.add_assoc]
      exact offPba_page hr (by rw [show (blkPlace .rpl).2.2.1 = 0x1000 from rfl]; omega)
    rw [hact, reg_raiseIrq hwf hoff (show rp r + 0x210 + 4 * c ≠ rp r + 0x10 by omega)]
    refine (reg_itemTaken (s := setApp (clrReg s _ _) _ _) hcl r c none).trans ?_
    exact congrArg (· + 1) (reg_setReg_other hs (by omega) _)
  · exact bitOf_raiseIrq hwf hr (by decide) none

/-- Settles O32: the row of an item is `replayItem` with its kind, whose branches the item read and the list's previous sequence choose; an item
that is taken counts itself and passes the turn on. -/
theorem replayItemsTakeEffect : Obligations.ReplayItemsTakeEffect := by
  unfold Obligations.ReplayItemsTakeEffect
  intro dt s who r l c v it b q back hl hr
  have hs : twf regRst b.regs = true := arrive_regs_wf dt s
  have ha : twf regRst b.applied = true := tblOf_wf _ _
  have hw8 : twf (fun _ => ({} : Rpl)) b.rpl = true := tblOf_wf _ _
  refine ⟨fun h => ?_, fun hw hp hh hen hn => ?_⟩
  · refine (exec_of_writes rfl h).trans ?_
    rw [regWrite_listWrIdx hr hl h]
  have hframe (hcom : b.commits.contains (pg .rpl r) = false) : exec (.replayFrameItem dt r) s = .next (closing s (replayItem (boundary .cams) b r 1)) := by
    refine (actLive_works (f := fun t => replayItem (boundary .cams) (boundary .rpl r t) r 1) hw).trans ?_
    rw [boundary_of_none hcom]
  have hdrop : exec (.replayDropItem dt r) s = .next (closing s (replayItem (boundary .cams) b r 2)) :=
    actLive_works (f := fun t => replayItem (boundary .cams) t r 2) hw
  have hend : exec (.replayEndItem dt r) s = .next (closing s (replayItem (boundary .cams) b r 3)) :=
    actLive_works (f := fun t => replayItem (boundary .cams) t r 3) hw
  have hc : c < 16 := nextList_lt hn
  have hback : itemBack b r c q = back := rfl
  clear_value back
  clear_value b
  refine ⟨fun e hcom he => ⟨?_, rplHalt_halted b r c 3⟩, fun hit => ⟨fun hk hb hcom => ?_, fun n hk hb hcom hx => ?_, fun hk hb => ⟨_, ?_, rfl, ?_⟩, fun hk => ?_⟩⟩
  · rw [hframe hcom, replayItem_unreadable _ hp hh hen hn 1 he]
  · rw [hframe hcom, replayItem_back _ hp hh hen hn hit hk (by decide) (hback.trans hb)]
  · rw [hframe hcom, replayItem_frame _ hp hh hen hn hit hk (hback.trans hb) hx]
  · rw [hdrop, replayItem_drop _ hp hh hen hn hit hk (hback.trans hb)]
  · exact fun hx hd => injectDrop_unfed hs hw8 it hc hx hd
  · exact ⟨injectEnd b r c, by rw [hend, replayItem_end _ hp hh hen hn hit hk], injectEnd_effect hs ha hr hc⟩

end Sys2Proof.Machine
end

section
/-! Stream contexts: a dropped frame, lost headers, timeouts and lost locks (R138, R150, R151, R171). -/

namespace Sys2Proof.Machine
open Sys2Proof

/-! ## What a stream context reads -/

theorem camsAt_congr {s t : State} (h : t.cams = s.cams) (n : Nat) : camsAt t n = camsAt s n := by rw [camsAt, h, camsAt]

theorem camsAt_setCams_of_ne (s : State) (n : Nat) {c : Cams} (h : c ≠ {}) : camsAt (setCams s n c) n = c := tget_tset_ne _ n c h s.cams

theorem camsAt_setCams_other {s : State} (h : twf (fun _ => ({} : Cams)) s.cams = true) {n m : Nat} (hm : m ≠ n) (c : Cams) :
    camsAt (setCams s n c) m = camsAt s m := tget_tset_other _ n m c hm h

theorem setCams_wf {s : State} (h : twf (fun _ => ({} : Cams)) s.cams = true) (n : Nat) (c : Cams) :
    twf (fun _ => ({} : Cams)) (setCams s n c).cams = true := twf_tset _ n c h

/-! ## Registers stay canonical through the frame-drop log -/

theorem rexViol_wf {s : State} (hs : twf regRst s.regs = true) (bit : Nat) : twf regRst (rexViol s bit).regs = true := by
  unfold rexViol
  split
  · exact hs
  · exact raiseIrq_regs_wf (orReg_wf hs _ _) _ _ _ _

theorem dlogLose_wf {s : State} (hs : twf regRst s.regs = true) (p : Nat) : twf regRst (dlogLose s p).regs = true := by
  simp only [dlogLose]
  split
  · exact rexViol_wf (s := setDlog s p _) hs 3
  · exact hs

theorem regs_vaWriteAll {s t : State} {p va : Nat} {l : List Byte} (h : vaWriteAll s p va l = .ok t) : t.regs = s.regs :=
  vaWriteAll_keeps State.regs (fun _ _ _ => rfl) (fun _ _ => rfl) h

theorem regs_dlogStore {p : Nat} {l : List DEnt} {i : Word} {s t : State} (h : dlogStore p l i s = .ok t) : t.regs = s.regs := by
  induction l generalizing i s with
  | nil =>
    cases h
    rfl
  | cons e r ih =>
    simp only [dlogStore, bind, Except.bind] at h
    split at h
    case h_1 => cases h
    case h_2 hw => rw [ih h, regs_vaWriteAll hw]

theorem dlogWrite_wf {s t : State} (hs : twf regRst s.regs = true) {p : Nat} {e : DEnt} (h : dlogWrite s p e = .ok t) : twf regRst t.regs = true := by
  simp only [dlogWrite, bind, Except.bind] at h
  split at h
  case h_1 => cases h
  case h_2 hw =>
    cases h
    exact setReg_wf (by rw [regs_dlogStore hw]; exact hs) _ _

theorem dlogPut_wf {s : State} (hs : twf regRst s.regs = true) (p kind subj seq a0 a1 : Nat) :
    twf regRst (dlogPut s p kind subj seq a0 a1).regs = true := by
  unfold dlogPut
  split
  · exact hs
  · split
    · exact dlogLose_wf hs p
    · split
      case h_1 h => exact dlogWrite_wf hs h
      case h_2 => exact rexViol_wf (dlogLose_wf (s := setDlog s p _) hs p) 5

/-! ## A dropped frame -/

theorem cams_abandonSeq (s : State) (g f : Nat) (q : Word) : (abandonSeq s g f q).cams = s.cams := by
  unfold abandonSeq
  dsimp only
  split
  · exact rest_keeps (irqRest_bump _ _ _) State.cams
  · rfl

/-- Abandoning a sequence counts it, and touches no other register. -/
theorem reg_abandonSeq {s : State} (hs : twf regRst s.regs = true) {a : Nat} (ha : ∀ p, a ≠ fgsCnt p 0xC) (g f : Nat) (q : Word) :
    reg (abandonSeq s g f q) a = reg s a := by
  unfold abandonSeq
  dsimp only
  split
  · exact reg_bump_other (s := modFlow s g f _) hs (ha _) _
  · rfl

theorem fgsCnt_far {a : Nat} (h : a < pg .fgs 0) (p : Nat) : a ≠ fgsCnt p 0xC := by
  have hle : pg .fgs 0 ≤ fgsCnt p 0xC := by
    simp only [fgsCnt, fgsPg]
    omega
  omega

theorem cams_frameDrop (s : State) (n : Nat) (q : Word) (fs reason : Nat) :
    (frameDrop s n q fs reason).cams = if (camsAt s n).logged = some q then s.cams else (setCams s n { camsAt s n with logged := some q }).cams := by
  unfold frameDrop
  split
  · rfl
  · have hput (p : Nat) : (raiseIrq (bump (dlogPut (setCams s n { camsAt s n with logged := some q }) p 0x0010 n q.toNat fs reason) (cp n + 0x808) 1) .cams n 9 none).cams =
        (setCams s n { camsAt s n with logged := some q }).cams :=
      (rest_keeps ((irqRest_raiseIrq _ _ _ _ _).trans (irqRest_bump _ _ _)) State.cams).trans (outRest_keeps (outRest_dlogPut _ _ _ _ _ _ _) State.cams)
    dsimp only
    split
    · exact hput _
    · exact (cams_abandonSeq _ _ _ _).trans (hput _)

/-- A frame dropped for the first time raises FRAME_DROP of its context (R151, R172). -/
theorem bitOf_frameDrop {s : State} (hs : twf regRst s.regs = true) {n : Nat} (hn : n < blkCount .cams) {q : Word} (hl : (camsAt s n).logged ≠ some q)
    (fs reason : Nat) : bitOf (regN (frameDrop s n q fs reason) (cp n + 0x10)) 9 = true := by
  have hwf (p : Nat) : twf regRst (bump (dlogPut (setCams s n { camsAt s n with logged := some q }) p 0x0010 n q.toNat fs reason) (cp n + 0x808) 1).regs = true :=
    bump_wf (dlogPut_wf (s := setCams s n _) hs _ _ _ _ _ _) _ _
  have hfar : cp n + 0x10 < pg .fgs 0 := by
    simp only [cp, pg, blkPlace, blkCount] at hn ⊢
    omega
  rw [frameDrop, if_neg hl]
  dsimp only
  split
  · exact bitOf_raiseIrq (hwf _) hn (by decide) none
  · rw [regN, reg_abandonSeq (raiseIrq_regs_wf (hwf _) _ _ _ _) (fgsCnt_far hfar)]
    exact bitOf_raiseIrq (hwf _) hn (by decide) none

theorem cams_dropOpen_wf {s : State} (h : twf (fun _ => ({} : Cams)) s.cams = true) (n : Nat) (fr : OpenFrame) (reason : Nat) :
    twf (fun _ => ({} : Cams)) (dropOpen s n fr reason).cams = true := by
  rw [dropOpen, cams_frameDrop]
  have h1 := setCams_wf h n { camsAt s n with frame := some { fr with drop := true } }
  split
  · exact h1
  · exact setCams_wf h1 n _

/-! ## The windows a frame opens -/

theorem openWindows_keeps {α : Type} (k : State → α) (hk : ∀ t u c, k (setSctl t u c) = k t) (s : State) (n : Nat) (q : Word) (t : DWord) :
    k (openWindows s n q t) = k s :=
  forAll_keeps k (fun u _ x => forAll_keeps k (fun _ _ y => hk y u _) x) s

theorem shortEnd_keeps {α : Type} (k : State → α) (hk : ∀ t u c, k (setSctl t u c) = k t) (s : State) (n : Nat) (fr : OpenFrame) :
    k (shortEnd s n fr) = k s := by
  unfold shortEnd
  split
  · exact openWindows_keeps k hk s n _ _
  · rfl

theorem shortEnd_whole {s : State} {n : Nat} {fr : OpenFrame} (h : camH s n ≤ fr.lines) : shortEnd s n fr = s :=
  if_neg (by simp [h])

theorem leastReason_le (s : State) (n flags r : Nat) : leastReason s n flags r ≤ r := by
  have hfold (l : List Nat) (r : Nat) : l.foldl min r ≤ r := by
    induction l generalizing r with
    | nil => exact le_rfl
    | cons x l ih => exact (ih (min r x)).trans (min_le_left r x)
  exact hfold _ r

theorem endLost_open {s : State} {n : Nat} {fr : OpenFrame} (hf : (camsAt s n).frame = some fr) (hd : fr.drop = false) :
    endLost s n = (let u := dropOpen (shortEnd s n fr) n fr (leastReason (shortEnd s n fr) n fr.flags 5); setCams u n { camsAt u n with frame := none }) := by
  simp only [endLost, hf, hd, Bool.false_eq_true, if_false]

theorem headerLost_dropped {s : State} {port : Nat}
    (h : ∀ m ∈ presentList s .cams, camSrc s m = port → ∀ fr, (camsAt s m).frame = some fr → fr.drop = true) :
    headerLost s port = bump s (cport port + 0x804) 1 := by
  unfold headerLost
  refine forAll_induct (P := fun t => t = bump s (cport port + 0x804) 1) rfl fun m hm t ht => ?_
  obtain ⟨hp, hsrc⟩ := List.mem_filter.1 hm
  have hcam : camsAt t m = camsAt s m := camsAt_congr (ht ▸ rest_keeps (irqRest_bump _ _ _) State.cams) m
  split
  case h_1 fr hfr =>
    rw [if_pos (h m hp (beq_iff_eq.1 hsrc) fr (hcam ▸ hfr))]
    exact ht
  case h_2 => exact ht

/-- Settles O30: every row calls the operation it names; a frame dropped leaves the log, the count and the interrupt `frameDrop` gives it, and
frames marked dropped already pass a lost header by. -/
theorem cameraFailuresDropFrames : Obligations.CameraFailuresDropFrames := by
  unfold Obligations.CameraFailuresDropFrames
  intro dt s port n sot b hw hp hn
  have hs : twf regRst b.regs = true := arrive_regs_wf dt s
  have hc : twf (fun _ => ({} : Cams)) b.cams = true := tblOf_wf _ _
  have hdown : exec (.linkDown dt port) s = .next (closing s (camLinkDown b port)) := actLive_works (f := fun t => camLinkDown t port) hw
  have hhead : exec (.headerUncorrectable dt ⟨port, sot⟩) s = .next (closing s (headerBad b port sot)) :=
    actLive_works (f := fun t => headerBad t port sot) hw
  have htime : exec (.frameTimeout dt n) s = .next (closing s (frameTimeoutAct b n)) := actLive_works (f := fun t => frameTimeoutAct t n) hw
  clear_value b
  refine ⟨fun hon => ⟨?_, bitOf_raiseIrq hs hp (by decide) none, ?_, fun _ => bitOf_raiseErr (bump_wf hs _ _) hp (by decide) none, headerLost_dropped⟩,
    fun fr hf hd hlim hlate => ⟨?_, ?_, leastReason_le _ _ _ _, fun hlog => ?_, fun hall => ?_⟩⟩
  · rw [hdown, camLinkDown, if_pos hon]
  · rw [hhead, headerBad, if_pos hon]
  · have hact : frameTimeoutAct b n = endLost b n := by
      simp only [frameTimeoutAct, hf]
      exact if_neg (by simp only [Bool.or_eq_true, beq_iff_eq, decide_eq_true_eq]; omega)
    rw [htime, hact]
  · have hwf : twf (fun _ => ({} : Cams)) (shortEnd b n fr).cams = true := by
      rw [shortEnd_keeps State.cams (fun _ _ _ => rfl)]
      exact hc
    rw [endLost_open hf hd]
    exact congrArg Cams.frame (camsAt_setCams_same (cams_dropOpen_wf hwf n fr _) n _)
  · have hwf : twf regRst (shortEnd b n fr).regs = true := by
      rw [shortEnd_keeps State.regs (fun _ _ _ => rfl)]
      exact hs
    rw [endLost_open hf hd]
    refine bitOf_frameDrop (s := setCams (shortEnd b n fr) n _) hwf hn ?_ _ _
    rw [camsAt_setCams_of_ne _ _ (fun h => Option.some_ne_none _ (congrArg Cams.frame h)), camsAt_congr (shortEnd_keeps State.cams (fun _ _ _ => rfl) b n fr)]
    exact hlog
  · rw [endLost_open hf hd, shortEnd_whole hall]

end Sys2Proof.Machine
end

section
/-! Packets of a receiver port reach the contexts their channel names (R136 to R155). -/

namespace Sys2Proof.Machine
open Sys2Proof

section
variable {s : State} {port vc : Nat} {ty : Option Nat} {bad : Bool} {f : Nat → State → State} (hon : portOn s port = true)
include hon

theorem toCtx_unmapped (hl : ctxsOf s port (vcOf s port vc) ty = []) :
    toCtx s port vc ty false bad f = bump (if bad then bump s (cport port + 0x808) 1 else s) (cport port + 0x80C) 1 := by
  simp only [toCtx, hon, hl, Bool.not_true, Bool.false_eq_true, if_false, List.find?_nil, List.isEmpty_nil, if_true]

theorem toCtx_only {n : Nat} (hl : ctxsOf s port (vcOf s port vc) ty = [n]) (hinj : injArmed s .cams n 1 = false) :
    toCtx s port vc ty false false f = f n s := by
  simp only [toCtx, hon, hl, hinj, Bool.not_true, Bool.false_eq_true, if_false, List.find?_cons, List.find?_nil, List.isEmpty_cons]
  rfl

end

theorem next_closing_congr (s : State) {t u : State} (h : t = u) : (.next (closing s t) : Host.Outcome State Fault Refusal) = .next (closing s u) :=
  by rw [h]

/-! ## A frame starts -/

theorem endLost_closed {s : State} {n : Nat} (hf : (camsAt s n).frame = none) : endLost s n = s := by simp only [endLost, hf]

/-- The context as a counted frame start of sequence q leaves it. -/
def frameOpened (s : State) (n : Nat) (q : Word) (fr : OpenFrame) : State :=
  setRegN (setCams s n { camsAt s n with prev := some q, frame := some fr, swallow := false }) (cp n + 0x134) q.toNat

theorem camsAt_frameOpened (s : State) (n : Nat) (q : Word) (fr : OpenFrame) :
    camsAt (frameOpened s n q fr) n = { camsAt s n with prev := some q, frame := some fr, swallow := false } :=
  camsAt_setCams_of_ne s n (fun h => Option.some_ne_none _ (congrArg Cams.prev h))

theorem startSeq_free {s : State} {n : Nat} (hh : (camsAt s n).halted = false) (hg : camFlow s n = none) (q : Word) (fr : OpenFrame) :
    startSeq s n q fr = frameOpened s n q fr := by
  have hg' : camFlow (frameOpened s n q fr) n = none := hg
  have hh' : (camsAt (frameOpened s n q fr) n).halted = false := by rw [camsAt_frameOpened]; exact hh
  unfold startSeq
  show (match camFlow (frameOpened s n q fr) n with
    | none => if (camsAt (frameOpened s n q fr) n).halted then dropOpen (frameOpened s n q fr) n fr 1 else frameOpened s n q fr
    | some (g, f, k) => _) = _
  rw [hg']
  exact if_neg (by rw [hh']; decide)

/-- The sequence a frame start takes in COUNT mode (R143). -/
def nextSeq (s : State) (n : Nat) : Word := match (camsAt s n).prev with | some x => x + 1 | none => 0

theorem startOn_free {s : State} {n : Nat} (hm : bitOf (app s (cp n + 0x108)) 0 = false) (hh : (camsAt s n).halted = false) (hg : camFlow s n = none)
    (hf : (camsAt s n).frame = none) (hc : s.commits.contains (pg .cams n) = false) (num : Nat) :
    startOn (boundary .cams) s n num = frameOpened s n (nextSeq s n) { seq := nextSeq s n, fs := s.time, last := s.time, num := num } := by
  simp only [startOn, endLost_closed hf, boundary_of_none hc, hm, Bool.false_eq_true, if_false]
  exact startSeq_free hh hg _ _

/-! ## Embedded data -/

theorem embPkt_other (s : State) (port vc : Nat) {ty : Nat} (h12 : ty ≠ 0x12) (h : ty < 0x30 ∨ 0x37 < ty) (bytes : List Byte) (bad : Bool) :
    embPkt s port vc ty bytes bad false = s :=
  if_pos (by simp only [Bool.not_eq_true', Bool.or_eq_false_iff, beq_eq_false_iff_ne, Bool.and_eq_false_iff, decide_eq_false_iff_not]; omega)

/-- An embedded-data packet on a context (R141, R151). -/
def embOn (ty : Nat) (bytes : List Byte) (n : Nat) (s : State) : State :=
  match (camsAt s n).frame with
  | none => s
  | some fr =>
    if fr.drop then s
    else
      let need := 4 + (bytes.length + 3) / 4 * 4
      if app s (cp n + 0x130) < fr.emb + need then
        setCams s n { camsAt s n with frame := some { fr with flags := fr.flags ||| 0x20 } }
      else
        let d := natLe 4 (ty + 256 * bytes.length) ++ bytes ++ List.replicate (need - 4 - bytes.length) 0
        match meetWrite s (owner s .cams n) (camSlot s n fr.seq + app s (cp n + 0x12C) + fr.emb) d with
        | (t, none) => setCams t n { camsAt t n with frame := some { fr with emb := fr.emb + need } }
        | (t, some _) => camHalt t n fr

theorem embPkt_embedded (s : State) (port vc : Nat) {ty : Nat} (h : ty = 0x12 ∨ (0x30 ≤ ty ∧ ty ≤ 0x37)) (bytes : List Byte) (bad : Bool) :
    embPkt s port vc ty bytes bad false = toCtx s port vc none false bad (embOn ty bytes) :=
  if_neg (by simp only [Bool.not_eq_true', Bool.or_eq_false_iff, beq_eq_false_iff_ne, Bool.and_eq_false_iff, decide_eq_false_iff_not]; omega)

section
variable {s : State} {n ty : Nat} {bytes : List Byte} {fr : OpenFrame} (hf : (camsAt s n).frame = some fr) (hd : fr.drop = false)
include hf hd

theorem embOn_full (h : app s (cp n + 0x130) < fr.emb + (4 + (bytes.length + 3) / 4 * 4)) :
    embOn ty bytes n s = setCams s n { camsAt s n with frame := some { fr with flags := fr.flags ||| 0x20 } } := by
  simp only [embOn, hf, hd, Bool.false_eq_true, if_false, h, if_true]

theorem embOn_room (h : fr.emb + (4 + (bytes.length + 3) / 4 * 4) ≤ app s (cp n + 0x130)) {w : State × Option Fail}
    (hw : meetWrite s (owner s .cams n) (camSlot s n fr.seq + app s (cp n + 0x12C) + fr.emb)
      (natLe 4 (ty + 256 * bytes.length) ++ bytes ++ List.replicate ((bytes.length + 3) / 4 * 4 - bytes.length) 0) = w) :
    embOn ty bytes n s = match w.2 with
      | none => setCams w.1 n { camsAt w.1 n with frame := some { fr with emb := fr.emb + (4 + (bytes.length + 3) / 4 * 4) } }
      | some _ => camHalt w.1 n fr := by
  simp only [embOn, hf, hd, Bool.false_eq_true, if_false, if_neg (Nat.not_lt.2 h), Nat.add_sub_cancel_left, hw]
  obtain ⟨t, _ | e⟩ := w <;> rfl

end

/-! ## A frame ends -/

/-- A frame-end packet on a context (R149, R150, R153). -/
def frameEndOn (n : Nat) (s : State) : State :=
  match (camsAt s n).frame with
  | none => lostStart s n
  | some fr =>
    if fr.drop then
      let s1 := shortEnd s n fr
      setCams s1 n { camsAt s1 n with frame := none }
    else endOn s n fr

theorem endPkt_eq (s : State) (port vc : Nat) : endPkt s port vc false = toCtx s port vc none false false frameEndOn := rfl

section
variable {s : State} {n : Nat} {fr : OpenFrame} (hf : (camsAt s n).frame = some fr)
include hf

theorem frameEndOn_dropped (hd : fr.drop = true) :
    frameEndOn n s = setCams (shortEnd s n fr) n { camsAt (shortEnd s n fr) n with frame := none } := by
  simp only [frameEndOn, hf, hd, if_true]

theorem frameEndOn_whole (hd : fr.drop = false) (hl : fr.lines = camH s n) (hr : dropReasons s n fr.flags = []) (hlate : settingsLate s n fr.seq = false)
    {w : State × Option Fail} (hw : meetWrite s (owner s .cams n) (camSlot s n fr.seq) (metaBytes s n fr fr.flags fr.lines) = w) :
    frameEndOn n s = match w.2 with
      | none => frameEndEvent (countKept (setCams w.1 n { camsAt w.1 n with frame := none }) n fr.flags) n fr.seq fr.last fr.flags
      | some _ => setCams (camHalt w.1 n fr) n { camsAt (camHalt w.1 n fr) n with frame := none } := by
  rw [hl] at hw
  simp only [frameEndOn, hf, hd, Bool.false_eq_true, if_false, endOn, hl, Nat.lt_irrefl, Nat.or_zero, hr, Nat.sub_self, fillLines, hlate, hw]
  obtain ⟨t, _ | e⟩ := w <;> rfl

end

/-! ## A line -/

/-- A sound line of the expected length on a frame that has room (R146 to R148). -/
theorem lineOn_sound {s : State} {n : Nat} {bytes : List Byte} {fr : OpenFrame} (hd : fr.drop = false) (hx : fr.extra = false) (hl : fr.lines < camH s n)
    (hlen : bytes.length = packedLen (camDt s n) (camW s n)) :
    lineOn s n bytes false fr = (let px := (unpackLine (camDt s n) bytes).take (camW s n)
      let w := writeLine s n { fr with last := s.time } (px ++ List.replicate (camW s n - px.length) (app s (cp n + 0x110) % 65536)) 0
      let y := match w.1 with
        | some fr3 => setCams w.2 n { camsAt w.2 n with frame := some fr3 }
        | none => camHalt w.2 n { fr with last := s.time }
      if fr.lines + 1 = camH s n then openWindows y n fr.seq y.time else y) := by
  simp only [lineOn, hx, hd, Bool.false_eq_true, if_false, if_neg (Nat.not_le.2 hl), ← hlen, bne_self_eq_false, List.take_length, ne_eq, not_true_eq_false,
    decide_false, Nat.or_zero, b2n, Nat.add_zero]
  generalize writeLine s n _ _ 0 = w
  obtain ⟨_ | fr3, t⟩ := w <;> rfl

theorem writeLine_written {s t : State} {n : Nat} {fr fr3 : OpenFrame} {px : List Nat} {code : Nat} (h : writeLine s n fr px code = (some fr3, t)) :
    fr3.lines = fr.lines + 1 ∧ fr3.flags = fr.flags := by
  simp only [writeLine] at h
  split at h
  · cases congrArg Prod.fst h
  · split at h
    · cases congrArg Prod.fst h
    · cases congrArg Prod.fst h
      exact ⟨rfl, rfl⟩

/-- A pixel packet of a sound line on a context with a frame open (R136, R148). -/
theorem linePkt_only {s : State} {port vc ty n : Nat} {bytes : List Byte} {fr : OpenFrame} (hon : portOn s port = true)
    (hl : ctxsOf s port (vcOf s port vc) (some (if (dtBits ty).isSome then ty else 64)) = [n]) (h1 : injArmed s .cams n 1 = false)
    (h0 : injArmed s .cams n 0 = false) (hf : (camsAt s n).frame = some fr) : linePkt s port vc ty bytes false false = lineOn s n bytes false fr := by
  refine (toCtx_only hon hl h1).trans ?_
  simp only [h0, Bool.false_eq_true, if_false, hf, Bool.or_self]

/-- Settles O29: a packet reaches the context its channel names or the count of unmapped ones; what the context then does is the operation of
its kind of packet, taken branch by branch. -/
theorem cameraPacketsTakeEffect : Obligations.CameraPacketsTakeEffect := by
  unfold Obligations.CameraPacketsTakeEffect
  intro dt s port vc n num ty bytes bad b any pix b1 hw hon
  have hs : twf regRst b.regs = true := arrive_regs_wf dt s
  have hc : twf (fun _ => ({} : Cams)) b.cams = true := tblOf_wf _ _
  have hstart : exec (.frameStart dt port vc num false) s =
      .next (closing s (toCtx b port vc none false false (fun n x => startOn (boundary .cams) x n num))) :=
    actLive_works (f := fun t => toCtx t port vc none false false (fun n x => startOn (boundary .cams) x n num)) hw
  have hemb : exec (.embeddedPacket dt port vc ty bytes bad false) s = .next (closing s (embPkt b port vc ty bytes bad false)) :=
    actLive_works (f := fun t => embPkt t port vc ty bytes bad false) hw
  have hend : exec (.frameEnd dt port vc num false) s = .next (closing s (toCtx b port vc none false false frameEndOn)) :=
    actLive_works (f := fun t => endPkt t port vc false) hw
  have hline : exec (.linePacket dt port vc ty bytes bad false) s = .next (closing s (linePkt b port vc ty bytes bad false)) :=
    actLive_works (f := fun t => linePkt t port vc ty bytes bad false) hw
  have hshort : exec (.genericShortPacket dt port false) s = .next (closing s (shortPacket b port false)) :=
    actLive_works (f := fun t => shortPacket t port false) hw
  clear_value b
  refine ⟨fun ha => ⟨?_, fun hty => ?_, ?_⟩, fun hp => ?_, ?_, fun h12 h => ?_, fun ha hinj => ⟨fun hm hh hg hf hcm => ?_, ?_, fun fr hf hd hb hty => ?_,
    fun fr hf hd => ?_, fun fr hf hd hl hr hlate => ?_⟩, fun hp h1 h0 hb fr hf hd hx hl hlen => ?_⟩
  · rw [hstart, toCtx_unmapped hon ha]
    rfl
  · rw [hemb, embPkt_embedded b port vc hty, toCtx_unmapped hon ha]
  · rw [hend, toCtx_unmapped hon ha]
    rfl
  · rw [hline]
    exact next_closing_congr s (toCtx_unmapped hon hp)
  · rw [hshort, shortPacket, if_neg (by rw [hon]; decide)]
    rfl
  · rw [hemb, embPkt_other b port vc h12 h]
  · intro q
    refine ⟨frameOpened b n q { seq := q, fs := b.time, last := b.time, num := num }, ?_, ?_, ?_, ?_, rfl, rfl, fun m hm => camsAt_setCams_other hc hm _⟩
    · rw [hstart, toCtx_only hon ha hinj, startOn_free hm hh hg hf hcm]
      rfl
    · rw [camsAt_frameOpened]
    · refine (reg_setReg_same (s := setCams b n _) hs _ _).trans ?_
      rw [BitVec.ofNat_toNat, BitVec.setWidth_eq]
    · rw [camsAt_frameOpened]
  · rw [hstart, toCtx_only hon ha hinj]
  · subst hb
    rw [hemb, embPkt_embedded b port vc hty, toCtx_only hon ha hinj]
    refine ⟨fun h => ?_, fun h => ?_⟩
    · rw [embOn_full hf hd h]
    · intro w
      have hw : meetWrite b _ _ _ = w := rfl
      clear_value w
      exact next_closing_congr s (embOn_room hf hd h hw)
  · intro t
    rw [hend, toCtx_only hon ha hinj, frameEndOn_dropped hf hd]
  · intro w
    rw [hend, toCtx_only hon ha hinj]
    have hw : meetWrite b _ _ _ = w := rfl
    clear_value w
    exact next_closing_congr s (frameEndOn_whole hf hd hl hr hlate hw)
  · intro px w y
    subst hb
    refine ⟨?_, fun fr3 h => writeLine_written (fr := { fr with last := b.time }) (t := w.2) (Prod.ext h rfl)⟩
    rw [hline, linePkt_only hon hp h1 h0 hf]
    exact next_closing_congr s (lineOn_sound hd hx hl hlen)

end Sys2Proof.Machine
end

section
/-! Settings bundles and frame-sync outputs (R144, R145, R157 to R165). -/

namespace Sys2Proof.Machine
open Sys2Proof

theorem sctlAt_congr {s t : State} (h : t.sctl = s.sctl) (u : Nat) : sctlAt t u = sctlAt s u := by rw [sctlAt, h, sctlAt]

theorem sctlAt_setSctl_same {s : State} (h : twf (fun _ => ({} : Sctl)) s.sctl = true) (u : Nat) (c : Sctl) : sctlAt (setSctl s u c) u = c :=
  tget_tset_same _ u c h

theorem setSctl_wf {s : State} (h : twf (fun _ => ({} : Sctl)) s.sctl = true) (u : Nat) (c : Sctl) : twf (fun _ => ({} : Sctl)) (setSctl s u c).sctl = true :=
  twf_tset _ u c h

/-! ## Pushing and issuing a bundle -/

theorem live_works {s : State} (h : Works s) (f : State → State) : live f s = f s := by
  obtain ⟨-, hr, hs⟩ := h
  exact if_pos (by rw [hr, hs]; rfl)

theorem regWrite_bundlePush {s : State} {who : Who} {u : Nat} (hu : u < 12) (h : writes s who (sp u + 0x158)) (hw : Works s) {v : Word}
    (hv : bitOf v.toNat 0 = true) : regWrite s who (sp u + 0x158) v = bundlePushAct s u := by
  refine (regWrite_eq_regEffect (b := .sctl) h hu (by decide) (by decide : rowSpec .sctl 0x158 = some (.wo, 1, 0)) (.inr rfl) v).trans ?_
  show (if bitOf (v &&& 1).toNat 0 then live (fun t => bundlePushAct t u) s else s) = _
  rw [bitOf_and_one, if_pos hv, live_works hw]

theorem bundlePushAct_full {s : State} {u : Nat} (hq : 16 ≤ (sctlAt s u).queue.length) {h d : List Byte}
    (hh : vaRead s (owner s .sctl u) (alignDown (regN s (sp u + 0x150)) 8 + 2 ^ 32 * regN s (sp u + 0x154)) 16 = .ok h)
    (hd : vaRead s (owner s .sctl u) (alignDown (regN s (sp u + 0x150)) 8 + 2 ^ 32 * regN s (sp u + 0x154) + 16) (8 * min 32 (leAt h 8 1)) = .ok d) :
    bundlePushAct s u = pushReject s u := by
  simp only [bundlePushAct, hh, hd]
  exact if_pos (by simp [hq])

/-- The unit with the bundle of queue place i on its bus, to take effect in window w (R160, R161). -/
def bundleSent (s : State) (u i : Nat) (x : Bundle) (w : Window) : State :=
  setRegN (setSctl s u { sctlAt s u with queue := (sctlAt s u).queue.eraseIdx i, bus := some { x with effect := w.target } }) (sp u + 0x15C)
    ((sctlAt s u).queue.length - 1 + alignDown (regN s (sp u + 0x15C)) 256)

theorem bundleIssueAct_next {s : State} {u i : Nat} {x : Bundle} {w : Window} (hb : (sctlAt s u).bus = none) (hn : nextBundle s u = some (i, x, w)) :
    bundleIssueAct s u = bundleSent s u i x w := by
  simp only [bundleIssueAct, hb, hn]
  rfl

theorem sctlAt_bundleSent (s : State) (u i : Nat) (x : Bundle) (w : Window) : sctlAt (bundleSent s u i x w) u =
    { sctlAt s u with queue := (sctlAt s u).queue.eraseIdx i, bus := some { x with effect := w.target } } :=
  tget_tset_ne _ u _ (fun h => Option.some_ne_none _ (congrArg Sctl.bus h)) s.sctl

/-! ## A bundle leaves the bus -/

/-- The unit with its bus free and the entries sent noted (R162, R163). -/
def busFreed (s : State) (u : Nat) (sent : List (List Byte)) : State := setSctl s u { sctlAt s u with bus := none, sent := sent }

/-- The context with a bundle in effect (R162). -/
def bundleTaken (s : State) (x : Bundle) : State :=
  setCams s x.ctx { camsAt s x.ctx with effects := (camsAt s x.ctx).effects ++ [⟨x.effect, x.id⟩], late := endLate x (camsAt s x.ctx).late }

theorem effects_bundleTaken (s : State) (x : Bundle) : (camsAt (bundleTaken s x) x.ctx).effects = (camsAt s x.ctx).effects ++ [⟨x.effect, x.id⟩] := by
  have hne : (camsAt s x.ctx).effects ++ [(⟨x.effect, x.id⟩ : Effect)] ≠ [] := List.append_ne_nil_of_right_ne_nil _ (List.cons_ne_nil _ _)
  rw [bundleTaken, camsAt_setCams_of_ne s x.ctx (fun h => hne (congrArg Cams.effects h))]

/-- The marks of a stream whose bundle the sensor refused (R163). -/
def refusedMarks (x : Bundle) (l : List Late) : List Late :=
  if x.late then l.map (fun l => if l.until_.isNone && l.target == x.target && l.id == x.id then { l with nack := true } else l)
  else l ++ [⟨x.target, none, x.id, true⟩]

section
variable {s : State} {u : Nat} {x : Bundle} (hx : (sctlAt s u).bus = some x)
include hx

theorem bundleDoneAct_ack : ∃ sent, bundleDoneAct s u false =
    raiseIrq (bump (setRegN (bundleTaken (busFreed s u sent) x) (sp u + 0x160) (x.id + 65536 * x.ctx)) (sp u + 0x800) 1) .sctl u 9 none := by
  simp only [bundleDoneAct, hx]
  exact ⟨_, rfl⟩

theorem bundleDoneAct_nack : ∃ sent, bundleDoneAct s u true =
    bump (raiseErr (setCams (busFreed (drawn s) u sent) x.ctx { camsAt s x.ctx with late := refusedMarks x (camsAt s x.ctx).late }) .sctl u 8 none)
      (sp u + 0x80C) 1 := by
  simp only [bundleDoneAct, hx]
  exact ⟨_, rfl⟩

variable (hs : twf regRst s.regs = true) (hw : twf (fun _ => ({} : Sctl)) s.sctl = true) (hu : u < blkCount .sctl)
include hs hw hu

theorem bundleDone_ack_effect : (sctlAt (bundleDoneAct s u false) u).bus = none ∧
    (camsAt (bundleDoneAct s u false) x.ctx).effects = (camsAt s x.ctx).effects ++ [⟨x.effect, x.id⟩] ∧
    bitOf (regN (bundleDoneAct s u false) (sp u + 0x10)) 9 = true ∧ (bundleDoneAct s u false).hbm = s.hbm := by
  obtain ⟨sent, hact⟩ := bundleDoneAct_ack hx
  have hrest : irqRest (bundleDoneAct s u false) = irqRest (bundleTaken (busFreed s u sent) x) := by
    rw [hact, irqRest_raiseIrq, irqRest_bump, irqRest_setRegN]
  refine ⟨?_, ?_, ?_, rest_keeps hrest State.hbm⟩
  · rw [sctlAt_congr (rest_keeps hrest State.sctl)]
    exact congrArg Sctl.bus (sctlAt_setSctl_same hw u _)
  · rw [camsAt_congr (rest_keeps hrest State.cams)]
    exact effects_bundleTaken (busFreed s u sent) x
  · have hwf : twf regRst (bundleTaken (busFreed s u sent) x).regs = true := hs
    rw [hact]
    exact bitOf_raiseIrq (bump_wf (setRegN_wf hwf _ _) _ _) hu (by decide) none

theorem bundleDone_nack_effect (hc : twf (fun _ => ({} : Cams)) s.cams = true) : (sctlAt (bundleDoneAct s u true) u).bus = none ∧
    (camsAt (bundleDoneAct s u true) x.ctx).effects = (camsAt s x.ctx).effects ∧
    bitOf (regN (bundleDoneAct s u true) (sp u + 0x18)) 8 = true ∧ (bundleDoneAct s u true).hbm = s.hbm := by
  obtain ⟨sent, hact⟩ := bundleDoneAct_nack hx
  have hrest : irqRest (bundleDoneAct s u true) =
      irqRest (setCams (busFreed (drawn s) u sent) x.ctx { camsAt s x.ctx with late := refusedMarks x (camsAt s x.ctx).late }) := by
    rw [hact, irqRest_bump, irqRest_raiseErr]
  refine ⟨?_, ?_, ?_, rest_keeps hrest State.hbm⟩
  · rw [sctlAt_congr (rest_keeps hrest State.sctl)]
    exact congrArg Sctl.bus (sctlAt_setSctl_same (s := drawn s) hw u _)
  · rw [camsAt_congr (rest_keeps hrest State.cams)]
    exact (congrArg Cams.effects (camsAt_setCams_same (s := busFreed (drawn s) u sent) hc x.ctx _)).trans rfl
  · rw [hact, regN_bump_other (raiseErr_regs_wf (s := setCams (busFreed (drawn s) u sent) _ _) hs _ _ _ _) (by omega)]
    exact bitOf_raiseErr (s := setCams (busFreed (drawn s) u sent) _ _) hs hu (by decide) none

end

/-! ## A settings window closes -/

/-- The state without what a late bundle changes: its report, and the marks of its stream. -/
def lateRest (s : State) : State := { irqRest s with cams := [] }

theorem lateRest_setRegN (s : State) (a n : Nat) : lateRest (setRegN s a n) = lateRest s := rfl

theorem lateRest_bundleLate (s : State) (u : Nat) (b : Bundle) : lateRest (bundleLate s u b) = lateRest s := by
  simp only [bundleLate]
  have h1 : irqRest (raiseIrq (bump s (sp u + 0x804) 1) .sctl u 8 none) = irqRest s := (irqRest_raiseIrq _ _ _ _ _).trans (irqRest_bump _ _ _)
  split
  · refine (congrArg (fun t : State => { t with cams := [] }) (irqRest_bump _ _ _)).trans ?_
    exact congrArg (fun t : State => { t with cams := [] }) h1
  · exact congrArg (fun t : State => { t with cams := [] }) h1

theorem lateRest_keeps {α : Type} {s t : State} (h : lateRest t = lateRest s) (k : State → α) (hk : ∀ u, k (lateRest u) = k u := by intro _; rfl) : k t = k s := by
  rw [← hk t, h, hk s]

/-- Erasing, one by one, the elements of a list that meet a condition leaves the others. -/
theorem foldl_erase_filter (p : Window → Bool) (l : List Window) : (l.filter p).foldl List.erase l = l.filter (fun w => !p w) := by
  have hskip (m l : List Window) (x : Window) (h : ∀ e ∈ m, e ≠ x) : m.foldl List.erase (x :: l) = x :: m.foldl List.erase l := by
    induction m generalizing l with
    | nil => rfl
    | cons e m ih =>
      rw [List.foldl_cons, List.erase_cons_tail (by simpa using (h e List.mem_cons_self).symm)]
      exact ih _ fun d hd => h d (List.mem_cons_of_mem _ hd)
  induction l with
  | nil => rfl
  | cons x l ih =>
    cases hx : p x with
    | true => simpa [hx] using ih
    | false =>
      rw [List.filter_cons_of_neg (by simp [hx]), List.filter_cons_of_pos (by simp [hx]),
        hskip _ _ _ (fun e he h => by rw [h] at he; exact Bool.false_ne_true (hx.symm.trans (List.mem_filter.1 he).2)), ih]

/-- What closing windows of a profile keeps: its unit's bus and the memory; the windows themselves are those of a list. -/
structure WindowsClosing (s t : State) (u f : Nat) (l : List Window) : Prop where
  wf : twf (fun _ => ({} : Sctl)) t.sctl = true
  wins_wf : twf (fun _ => []) (sctlAt t u).wins = true
  wins : winsAt t u f = l
  bus : (sctlAt t u).bus = (sctlAt s u).bus
  hbm : t.hbm = s.hbm

theorem closeWindow_closing {s t : State} {u f : Nat} {l : List Window} (h : WindowsClosing s t u f l) (w : Window) :
    WindowsClosing s (closeWindow u f w t) u f (l.erase w) := by
  obtain ⟨hwf, hwins, hl, hbus, hhbm⟩ := h
  have hwf' (c : Sctl) : twf (fun _ => ({} : Sctl)) (setSctl t u c).sctl = true := setSctl_wf hwf u c
  have hrest (c : Sctl) (n : Nat) (m : List Bundle) :
      lateRest (forAll m (fun b t => bundleLate t u b) (setRegN (setSctl t u c) (sp u + 0x15C) n)) = lateRest (setSctl t u c) :=
    (forAll_keeps lateRest (f := fun b t => bundleLate t u b) (fun b _ x => lateRest_bundleLate x u b) _).trans (lateRest_setRegN _ _ _)
  unfold closeWindow
  extract_lets c due s1 s2
  have hsctl : (forAll (c.queue.filter due) (fun b t => bundleLate t u b) s2).sctl = s1.sctl := lateRest_keeps (hrest _ _ _) State.sctl
  have hat : sctlAt (forAll (c.queue.filter due) (fun b t => bundleLate t u b) s2) u = _ := (sctlAt_congr hsctl u).trans (sctlAt_setSctl_same hwf u _)
  refine ⟨by rw [hsctl]; exact hwf' _, by rw [hat]; exact twf_tset _ _ _ hwins, ?_, by rw [hat]; exact hbus, (lateRest_keeps (hrest _ _ _) State.hbm).trans hhbm⟩
  rw [winsAt, hat]
  exact (tget_tset_same _ f _ hwins).trans (by rw [hl])

theorem forAll_closeWindow {s t : State} {u f : Nat} (m : List Window) {l : List Window} (h : WindowsClosing s t u f l) :
    WindowsClosing s (forAll m (closeWindow u f) t) u f (m.foldl List.erase l) := by
  induction m generalizing t l with
  | nil => exact h
  | cons w m ih => exact ih (closeWindow_closing h w)

theorem windowCloseAct_closing {s : State} {u f : Nat} (hs : twf (fun _ => ({} : Sctl)) s.sctl = true) (hw : twf (fun _ => []) (sctlAt s u).wins = true) :
    WindowsClosing s (windowCloseAct s u f) u f ((winsAt s u f).filter (fun w => decide (s.time.toNat < w.close.toNat))) := by
  have h := forAll_closeWindow ((winsAt s u f).filter (fun w => decide (w.close.toNat ≤ s.time.toNat))) (WindowsClosing.mk (s := s) (t := s) (f := f) hs hw rfl rfl rfl)
  rw [foldl_erase_filter] at h
  have hnot : (fun w : Window => !decide (w.close.toNat ≤ s.time.toNat)) = fun w => decide (s.time.toNat < w.close.toNat) := by
    funext w
    rw [← decide_not]
    exact decide_eq_decide.2 Nat.not_le
  rw [hnot] at h
  exact h

/-! ## Frame-sync outputs -/

theorem fsyncReg_ctl {n : Nat} (hn : n < 16) (s : State) (v : Word) :
    fsyncReg s (fsyncSctl n) ((if n < 12 then 0x180 else 0x1A0) + 0x10) v = fsyncWrite s n v := by
  unfold fsyncReg fsyncSctl
  by_cases h : n < 12
  · simp [h]
  · have h12 : 12 + (n - 12) = n := by omega
    simp only [h, if_false, h12]
    exact (if_neg (by omega)).trans (if_pos (by decide))

theorem regWrite_fsyncCtl {s : State} {who : Who} {n : Nat} (hn : n < 16) (h : writes s who (fsyncBase n + 0x10)) (v : Word) :
    regWrite s who (fsyncBase n + 0x10) v = fsyncWrite s n (v &&& 3) := by
  have hu : fsyncSctl n < blkCount .sctl := by
    show (if n < 12 then n else n - 12) < 12
    split <;> omega
  have haddr : fsyncBase n + 0x10 = pg .sctl (fsyncSctl n) + ((if n < 12 then 0x180 else 0x1A0) + 0x10) := Nat.add_assoc _ _ _
  have hrow : ∃ k, rowSpec .sctl ((if n < 12 then 0x180 else 0x1A0) + 0x10) = some (.rw, 3, k) := by
    split
    · exact ⟨0, by decide⟩
    · exact ⟨1, by decide⟩
  obtain ⟨k, hrow⟩ := hrow
  rw [haddr] at h ⊢
  refine (regWrite_eq_regEffect h hu (by split <;> decide) hrow (.inl rfl) v).trans ?_
  rw [← fsyncReg_ctl hn]
  show (if _ = 0x158 then _ else if _ then _ else _) = _
  dsimp only
  split <;> exact (if_neg (by decide)).trans (if_pos (by decide))

theorem fsyncAt_congr {s t : State} (h : t.fsync = s.fsync) (n : Nat) : fsyncAt t n = fsyncAt s n := by rw [fsyncAt, h, fsyncAt]

theorem fsync_missedPulse (s : State) (n : Nat) (k : Word) : (missedPulse s n k).fsync = s.fsync := by
  have habandon (t : State) (g f : Nat) (q : Word) : (abandonSeq t g f q).fsync = t.fsync := by
    unfold abandonSeq
    dsimp only
    split
    · exact rest_keeps (irqRest_bump _ _ _) State.fsync
    · rfl
  have hdrop : (frameDrop s n k 0 5).fsync = s.fsync := by
    unfold frameDrop
    split
    · rfl
    · have hput (p : Nat) : (raiseIrq (bump (dlogPut (setCams s n { camsAt s n with logged := some k }) p 0x0010 n k.toNat 0 5) (cp n + 0x808) 1) .cams n 9 none).fsync = s.fsync :=
        (rest_keeps ((irqRest_raiseIrq _ _ _ _ _).trans (irqRest_bump _ _ _)) State.fsync).trans (outRest_keeps (outRest_dlogPut _ _ _ _ _ _ _) State.fsync)
      dsimp only
      split
      · exact hput _
      · exact (habandon _ _ _ _).trans (hput _)
  unfold missedPulse
  split
  · rfl
  · split
    · rfl
    · split
      · split
        · rfl
        · exact hdrop
      · exact hdrop

theorem pulse_effect {s : State} {n : Nat} (hs : twf regRst s.regs = true) (ha : (fsyncAt s n).armed = true) (hp : fsyncPresent s n = true)
    (ht : ((fsyncAt s n).start + BitVec.ofNat 64 ((fsyncAt s n).count * (fsyncAt s n).period)).toNat ≤ s.time.toNat) :
    fsyncAt (pulse s n) n = { fsyncAt s n with
      count := (fsyncAt s n).count + 1
      lastAt := (fsyncAt s n).start + BitVec.ofNat 64 ((fsyncAt s n).count * (fsyncAt s n).period)
      valid := true } ∧
    ((fsyncAt s n).count = 0 → regN (pulse s n) (fsyncBase n + 0x14) = 0) := by
  unfold pulse
  extract_lets f at_ s1 s2
  have hgo : (!f.armed || !fsyncPresent s n || decide (s.time.toNat < at_.toNat)) = false := by
    rw [ha, hp, decide_eq_false (Nat.not_lt.2 ht)]
    rfl
  have h1 : fsyncAt s1 n = { f with count := f.count + 1, lastAt := at_, valid := true } :=
    tget_tset_ne _ n _ (fun h => Bool.noConfusion (congrArg Fsync.valid h)) s.fsync
  rw [if_neg (by rw [hgo]; decide)]
  refine ⟨?_, fun hz => ?_⟩
  · refine (fsyncAt_congr ?_ n).trans h1
    split
    · rfl
    · exact (forAll_keeps State.fsync (f := fun c t => missedPulse t c _) (fun c _ t => fsync_missedPulse t c _) s2).trans rfl
  · rw [if_pos hz]
    exact (regN_setRegN_same (s := s1) hs _ _).trans (by rw [show f.count = 0 from hz]; rfl)

theorem fsyncWrite_late {s : State} {n : Nat} {v : Word} (hv : bitOf v.toNat 0 = true)
    (h : reg64 s (fsyncBase n) (fsyncBase n + 4) < s.time.toNat + 10000) : fsyncWrite s n v = raiseErr s .sctl (fsyncSctl n) 10 none := by
  simp only [fsyncWrite, hv, if_true, h]

theorem fsyncWrite_armed {s : State} {n : Nat} {v : Word} (hv : bitOf v.toNat 0 = true)
    (h : s.time.toNat + 10000 ≤ reg64 s (fsyncBase n) (fsyncBase n + 4)) : fsyncWrite s n v = setFsync (setRegN s (fsyncBase n + 0x10) (v.toNat % 4)) n
      { armed := true, start := BitVec.ofNat 64 (reg64 s (fsyncBase n) (fsyncBase n + 4)), period := regN s (fsyncBase n + 8)
        width := regN s (fsyncBase n + 0xC), count := 0, lastAt := 0, valid := false } := by
  simp only [fsyncWrite, hv, if_true, if_neg (Nat.not_lt.2 h)]

theorem fsyncWrite_disarmed {s : State} {n : Nat} {v : Word} (hv : bitOf v.toNat 0 = false) :
    fsyncWrite s n v = setFsync (setRegN s (fsyncBase n + 0x10) (v.toNat % 4)) n { fsyncAt s n with armed := false } := by
  simp only [fsyncWrite, hv, Bool.false_eq_true, if_false]

theorem toNat_and_three (v : Word) : (v &&& 3).toNat % 4 = v.toNat % 4 := by
  rw [BitVec.toNat_and, show (3 : Word).toNat = 2 ^ 2 - 1 from rfl, Nat.and_two_pow_sub_one_eq_mod, Nat.mod_mod]

theorem bitOf_or_one_and_three (v : Word) : bitOf ((v ||| 1) &&& 3).toNat 0 = true := by
  simp [bitOf_eq_testBit, BitVec.toNat_and, BitVec.toNat_or]

theorem bitOf_clear_one_and_three (v : Word) : bitOf ((v &&& ~~~1) &&& 3).toNat 0 = false := by
  simp [bitOf_eq_testBit, BitVec.toNat_and]

/-- Settles O31: the rows of the settings bus and of the frame-sync outputs are the operations they name; a bundle that leaves the bus, a window that
closes and a pulse each leave what their effect lemma says. -/
theorem settingsAndFrameSyncTakeEffect : Obligations.SettingsAndFrameSyncTakeEffect := by
  unfold Obligations.SettingsAndFrameSyncTakeEffect
  intro dt s who u n f v b hu hn
  have hs : twf regRst b.regs = true := arrive_regs_wf dt s
  have hc : twf (fun _ => ({} : Cams)) b.cams = true := tblOf_wf _ _
  have hsc : twf (fun _ => ({} : Sctl)) b.sctl = true := tblOf_wf _ _
  have hissue (hw : Works b) : exec (.bundleIssue dt u) s = .next (closing s (bundleIssueAct (boundary .sctl u b) u)) :=
    actLive_works (f := fun t => bundleIssueAct (boundary .sctl u t) u) hw
  have hdone (hw : Works b) (nack : Bool) : exec (.bundleDone dt u nack) s = .next (closing s (bundleDoneAct b u nack)) :=
    actLive_works (f := fun t => bundleDoneAct t u nack) hw
  have hclose (hw : Works b) : exec (.settingsWindowClose dt u f) s = .next (closing s (windowCloseAct b u f)) :=
    actLive_works (f := fun t => windowCloseAct t u f) hw
  have hpulse (hw : Works b) : exec (.fsyncPulse dt n) s = .next (closing s (pulse b n)) := actLive_works (f := fun t => pulse t n) hw
  have hpush (h : writes b who (sp u + 0x158)) : exec (.bundlePush dt who u v) s = .next (closing s (regWrite b who (sp u + 0x158) v)) :=
    exec_of_writes rfl h
  have harm (h : writes b who (fsyncBase n + 0x10)) : exec (.fsyncArm dt who n v) s = .next (closing s (regWrite b who (fsyncBase n + 0x10) (v ||| 1))) :=
    exec_of_writes rfl h
  have hdisarm (h : writes b who (fsyncBase n + 0x10)) :
      exec (.fsyncDisarm dt who n v) s = .next (closing s (regWrite b who (fsyncBase n + 0x10) (v &&& ~~~1))) := exec_of_writes rfl h
  clear_value b
  refine ⟨fun hw h hv => ⟨?_, ?_⟩, fun hw hb hcm i x w hx => ⟨bundleSent b u i x w, ?_, ?_, ?_, rfl, rfl⟩,
    fun hw x hx => ⟨⟨bundleDoneAct b u false, hdone hw false, bundleDone_ack_effect hx hs hsc hu⟩,
      ⟨bundleDoneAct b u true, hdone hw true, bundleDone_nack_effect hx hs hsc hu hc⟩⟩,
    fun hw hwin => ?_, fun h => ⟨fun hlate => ?_, fun hok => ?_, ?_⟩, fun hw ha hp ht => ?_⟩
  · rw [hpush h, regWrite_bundlePush hu h hw hv]
  · intro hq h1 d a hh hd
    exact bundlePushAct_full hq hh hd
  · rw [hissue hw, boundary_of_none hcm, bundleIssueAct_next hb hx]
  · rw [sctlAt_bundleSent]
  · rw [sctlAt_bundleSent]
  · obtain ⟨-, -, hwins, hbus, hhbm⟩ := windowCloseAct_closing (f := f) hsc hwin
    exact ⟨_, hclose hw, hwins, hbus, hhbm⟩
  · rw [harm h, regWrite_fsyncCtl hn h, fsyncWrite_late (bitOf_or_one_and_three v) hlate]
  · rw [harm h, regWrite_fsyncCtl hn h, fsyncWrite_armed (bitOf_or_one_and_three v) hok, toNat_and_three]
  · rw [hdisarm h, regWrite_fsyncCtl hn h, fsyncWrite_disarmed (bitOf_clear_one_and_three v), toNat_and_three]
  · obtain ⟨hat, hz⟩ := pulse_effect hs ha hp ht
    exact ⟨_, hpulse hw, by rw [hat], by rw [hat], by rw [hat], hz⟩

end Sys2Proof.Machine
end

section
/-! What an access of memory or of the tile memory leaves alone (R384, R401, R467 to R478). -/

namespace Sys2Proof.Machine
open Sys2Proof

/-- The state without what an engine's access may change: what outputs change, memories, their error records, and reservations of cores. -/
def engRest (s : State) : State := { outRest s with
  free := 0
  hbmRec := []
  nocBad := false
  tile := []
  spad := []
  lane := []
  spadUe := []
  tileUe := []
  cores := []
  rolv := {} }

theorem engRest_of_outRest {s t : State} (h : outRest t = outRest s) : engRest t = engRest s :=
  congrArg (fun u : State => { u with free := 0, hbmRec := [], nocBad := false, tile := [], spad := [], lane := [], spadUe := [], tileUe := [], cores := [], rolv := {} }) h

theorem engRest_keeps {α : Type} {s t : State} (h : engRest t = engRest s) (f : State → α) (hf : ∀ u, f (engRest u) = f u := by intro _; rfl) : f t = f s := by
  rw [← hf t, h, hf s]

theorem engRest_raiseErr (s : State) (b : Blk) (n bit : Nat) (ctx : Option Nat) : engRest (raiseErr s b n bit ctx) = engRest s :=
  engRest_of_outRest (outRest_raiseErr s b n bit ctx)

theorem engRest_raiseIrq (s : State) (b : Blk) (n bit : Nat) (ctx : Option Nat) : engRest (raiseIrq s b n bit ctx) = engRest s :=
  engRest_of_outRest (outRest_raiseIrq s b n bit ctx)

theorem engRest_bump (s : State) (a n : Nat) : engRest (bump s a n) = engRest s := engRest_of_outRest (outRest_bump s a n)

theorem engRest_bump64 (s : State) (a n : Nat) : engRest (bump64 s a n) = engRest s := engRest_of_outRest (outRest_bump64 s a n)

theorem engRest_pushFault (s : State) (r : FaultRec) : engRest (pushFault s r) = engRest s :=
  engRest_of_outRest (outRest_of_safeRest (safeRest_pushFault s r))

theorem engRest_injUsed (s : State) (b : Blk) (n bit : Nat) : engRest (injUsed s b n bit) = engRest s := rfl

theorem engRest_drawn (s : State) : engRest (drawn s) = engRest s := rfl

theorem engRest_unitWrote (p n : Nat) (s : State) : engRest (unitWrote p n s) = engRest s := by
  unfold unitWrote
  split
  · exact engRest_of_outRest (outRest_gcCount _ _ _ _ _ _)
  · rfl

/-- A fold of changes that each leave the rest alone leaves it alone. -/
theorem engRest_foldl {α β : Type} {g : β → State} {f : β → α → β} (h : ∀ x a, engRest (g (f x a)) = engRest (g x)) (l : List α) (x : β) :
    engRest (g (l.foldl f x)) = engRest (g x) := by
  induction l generalizing x with
  | nil => rfl
  | cons a l ih => exact (ih (f x a)).trans (h x a)

/-! ## HBM and the mesh -/

theorem engRest_hbmFault (s : State) (inst kind part : Nat) : engRest (hbmFault s inst kind part) = engRest s := by
  unfold hbmFault
  dsimp only
  split
  · exact engRest_pushFault _ _
  · have hput (d : Safe) : engRest (pushFault (setSafe s d) ⟨s.time, 0x40, causeClass 0x40, blkCode .hbm, inst, part, 0xFFFF, 0, 0⟩) = engRest s :=
      (engRest_pushFault _ _).trans rfl
    split
    · split
      · exact (engRest_pushFault _ _).trans (hput _)
      · exact hput _
    · split
      · exact (engRest_pushFault _ _).trans (hput _)
      · exact hput _

theorem engRest_hbmEvent (s : State) (kind off part : Nat) : engRest (hbmEvent s kind off part) = engRest s := by
  unfold hbmEvent
  split
  extract_lets a ctx l s0 s1 ue s2 s3 s4
  have h1 : engRest s1 = engRest s := by
    unfold s1
    split
    · rfl
    · rw [engRest_raiseIrq, engRest_bump, engRest_drawn]
  have h3 : engRest s3 = engRest s := (engRest_raiseErr _ _ _ _ _).trans ((engRest_bump _ _ _).trans h1)
  have h4 : engRest s4 = engRest s := by
    unfold s4
    split
    · exact (engRest_raiseIrq _ _ _ _ _).trans h3
    · exact h3
  split
  · exact (engRest_hbmFault _ _ _ _).trans h4
  · exact h4

theorem engRest_hbmChunk (p : Nat) (wr : Bool) (off k : Nat) (s : State) : engRest (hbmChunk p wr off k s).2 = engRest s := by
  unfold hbmChunk
  extract_lets inst s1 s2 s3
  have h1 : engRest s1 = engRest s := engRest_bump64 _ _ _
  have h2 : engRest s2 = engRest s := by
    refine Eq.trans ?_ h1
    unfold s2
    split
    · rw [engRest_raiseErr, engRest_bump, engRest_injUsed]
    · rfl
  have h3 : engRest s3 = engRest s := by
    refine Eq.trans ?_ h2
    unfold s3
    split
    · rw [engRest_hbmEvent, engRest_injUsed]
    · rfl
  have hlines (t : State) (kind : Nat) (l : List Nat) : engRest (l.foldl (fun t l => hbmEvent t kind (64 * l) p) t) = engRest t :=
    engRest_foldl (g := id) (fun x a => engRest_hbmEvent x _ _ _) l t
  split
  · exact (hlines _ _ _).trans h2
  · split
    · exact (engRest_hbmEvent _ _ _ _).trans ((engRest_injUsed _ _ _ _).trans h3)
    · exact (hlines _ _ _).trans h3

theorem engRest_hbmRange (p : Nat) (wr : Bool) (off n : Nat) (s : State) : engRest (hbmRange p wr off n s).2 = engRest s := by
  unfold hbmRange
  generalize hbmCuts (n / 256 + 2) off n = l
  refine engRest_foldl (g := fun x : Bool × State => x.2) (fun x c => ?_) l (false, s)
  dsimp only
  exact engRest_hbmChunk p wr c.1 c.2 x.2

theorem engRest_meshPass (s : State) : engRest (meshPass s).2 = engRest s := by
  unfold meshPass
  dsimp only
  split
  · exact (engRest_raiseErr (bump (injUsed s .noc 0 0) (nocPg + 0x800) 1) .noc 0 8 none).trans ((engRest_bump _ _ _).trans (engRest_injUsed _ _ _ _))
  · rfl

theorem engRest_countWalk (s : State) (p : Nat) : engRest (countWalk s p) = engRest s := by
  unfold countWalk
  split
  · exact engRest_bump _ _ _
  · rfl

theorem engRest_meetAccess (s : State) (p va n : Nat) (pm : Perm) : engRest (meetAccess s p va n pm).2 = engRest s := by
  simp only [meetAccess]
  refine (engRest_foldl (g := fun x : Bool × State × Bool => x.2.1) (fun x c => ?_) _ _).trans (engRest_meshPass s)
  split
  · rfl
  · split
    · split
      · exact (engRest_hbmEvent _ _ _ _).trans (engRest_countWalk _ _)
      · exact engRest_countWalk _ _
    · exact engRest_countWalk _ _
    · split
      · exact (engRest_hbmRange _ _ _ _ _).trans (engRest_countWalk _ _)
      · exact engRest_countWalk _ _

theorem engRest_meetRead (s : State) (p va n : Nat) (pm : Perm) : engRest (meetRead s p va n pm).2 = engRest s := by
  simp only [meetRead]
  split <;> exact engRest_meetAccess _ _ _ _ _

theorem engRest_vaWrite (s : State) (p va : Nat) (bs : List Byte) : engRest (vaWrite s p va bs).1 = engRest s :=
  engRest_of_outRest (outRest_of_logRest (logRest_writePieces p _ bs s))

theorem engRest_meetWrite (s : State) (p va : Nat) (bs : List Byte) : engRest (meetWrite s p va bs).1 = engRest s := by
  simp only [meetWrite]
  split
  · exact engRest_meetAccess _ _ _ _ _
  · exact (engRest_vaWrite _ _ _ _).trans (engRest_meetAccess _ _ _ _ _)

theorem engRest_engRead (p va n : Nat) (s : State) : engRest (engRead p va n s).2 = engRest s := by
  have h := engRest_meetRead s p va n .r
  unfold engRead
  split <;> rename_i heq <;> rw [heq] at h <;> exact h

/-! ## The tile memory -/

theorem engRest_regionAt (p o n : Nat) (s : State) : engRest (regionAt p o n s).2 = engRest s := by
  simp only [regionAt]
  split
  · rfl
  · exact engRest_bump _ _ _

theorem engRest_vtmUse (p a n : Nat) (s : State) : engRest (vtmUse p a n s).2 = engRest s := by
  unfold vtmUse
  extract_lets inj hit s1 u s2
  have h1 : engRest s1 = engRest s := by
    unfold s1
    split
    · rw [engRest_raiseErr, engRest_bump, engRest_injUsed]
    · rfl
  have h2 : engRest s2 = engRest s := by
    refine Eq.trans ?_ h1
    unfold s2
    split <;> rfl
  split
  · exact h2
  · rw [engRest_raiseIrq, engRest_raiseErr]
    exact (engRest_bump _ _ _).trans h2

theorem engRest_vtmRead (p o n : Nat) (s : State) : engRest (vtmRead p o n s).2 = engRest s := by
  have h := engRest_regionAt p o n s
  unfold vtmRead
  split
  case h_1 heq =>
    rw [heq] at h
    exact h
  case h_2 a t heq =>
    rw [heq] at h
    have hu := engRest_vtmUse p a n t
    split <;> rename_i heq2 <;> rw [heq2] at hu <;> exact hu.trans h

theorem engRest_planeRead (p space a n : Nat) (s : State) : engRest (planeRead p space a n s).2 = engRest s := by
  unfold planeRead
  split
  · exact engRest_engRead _ _ _ _
  · exact engRest_vtmRead _ _ _ _

end Sys2Proof.Machine
end

section
/-! Match sets are assigned, requested, loaded and versionSwitched (R297 to R303, R308). -/

namespace Sys2Proof.Machine
open Sys2Proof

/-! ## The host's registers -/

theorem toNat_and_two_pow_sub_one (v : Word) (m : Word) (k : Nat) (hm : m.toNat = 2 ^ k - 1) : (v &&& m).toNat = v.toNat % 2 ^ k := by
  rw [BitVec.toNat_and, hm, Nat.and_two_pow_sub_one_eq_mod]

theorem regWrite_loadCtl {s : State} {who : Who} (h : writes s who (fmsPg + 0x14C)) {v : Word} {clear : Bool} (h8 : bitOf v.toNat 8 = !clear)
    (h9 : clear = true → bitOf v.toNat 9 = true) : regWrite s who (fmsPg + 0x14C) v = loadRequest s (whoFn who) (v.toNat % 1024) clear := by
  refine (regWrite_eq_regEffect (b := .fms) h (by decide) (by decide) (by decide : rowSpec .fms 0x14C = some (.wo, 1023, 0)) (.inr rfl) v).trans ?_
  have hv : (v &&& BitVec.ofNat 32 1023).toNat = v.toNat % 1024 := toNat_and_two_pow_sub_one v _ 10 rfl
  have hbit (i : Nat) (hi : i < 10) : bitOf (v.toNat % 1024) i = bitOf v.toNat i := by
    rw [bitOf_eq_testBit, bitOf_eq_testBit, Nat.testBit_mod_two_pow v.toNat 10, decide_eq_true hi, Bool.true_and]
  show (if bitOf (v &&& BitVec.ofNat 32 1023).toNat 8 then loadRequest s (whoFn who) (v &&& BitVec.ofNat 32 1023).toNat false
    else if bitOf (v &&& BitVec.ofNat 32 1023).toNat 9 then loadRequest s (whoFn who) (v &&& BitVec.ofNat 32 1023).toNat true else s) = _
  rw [hv, hbit 8 (by decide), hbit 9 (by decide), h8]
  cases clear with
  | false => rfl
  | true => simp [h9 rfl]

theorem loadCtl_go (v : Word) : bitOf (v ||| 0x100).toNat 8 = true ∧ (v ||| 0x100).toNat % 1024 % 256 = v.toNat % 256 := by
  refine ⟨by simp [bitOf_eq_testBit, BitVec.toNat_or, show Nat.testBit 256 8 = true from by decide], ?_⟩
  rw [Nat.mod_mod_of_dvd _ (by decide), BitVec.toNat_or, show (256 : Nat) = 2 ^ 8 from rfl, Nat.or_mod_two_pow, show (0x100 : Word).toNat % 2 ^ 8 = 0 from rfl, Nat.or_zero]

theorem loadCtl_clear (v : Word) : bitOf ((v &&& ~~~0x100) ||| 0x200).toNat 8 = false ∧ bitOf ((v &&& ~~~0x100) ||| 0x200).toNat 9 = true ∧
    ((v &&& ~~~0x100) ||| 0x200).toNat % 1024 % 256 = v.toNat % 256 := by
  refine ⟨?_, ?_, ?_⟩
  · simp [bitOf_eq_testBit, BitVec.toNat_or, BitVec.toNat_and, show Nat.testBit 512 8 = false from by decide, show Nat.testBit 4294967039 8 = false from by decide]
  · simp [bitOf_eq_testBit, BitVec.toNat_or, show Nat.testBit 512 9 = true from by decide]
  · rw [Nat.mod_mod_of_dvd _ (by decide), BitVec.toNat_or, BitVec.toNat_and, show (256 : Nat) = 2 ^ 8 from rfl, Nat.or_mod_two_pow, Nat.and_mod_two_pow,
      show (0x200 : Word).toNat % 2 ^ 8 = 0 from rfl, Nat.or_zero, show (~~~(0x100 : Word)).toNat % 2 ^ 8 = 2 ^ 8 - 1 from rfl,
      Nat.and_two_pow_sub_one_eq_mod, Nat.mod_mod]

theorem regWrite_setOwn {s : State} {who : Who} (h : writes s who (fmsPg + 0x118)) (v : Word) :
    regWrite s who (fmsPg + 0x118) v = setOwnWrite s (regN s (0x400_0000 * whoFn who + fmsPg + 0x100) % 256) (v &&& 0x103).toNat :=
  regWrite_eq_regEffect (b := .fms) h (by decide) (by decide) (by decide : rowSpec .fms 0x118 = some (.rw, 259, 0)) (.inl rfl) v

theorem setOwn_field (v : Word) : (v &&& 0x103).toNat % 4 + b2n (bitOf (v &&& 0x103).toNat 8) * 256 = v.toNat % 4 + b2n (bitOf v.toNat 8) * 256 := by
  have h4 : (v &&& 0x103).toNat % 4 = v.toNat % 4 := by
    apply Nat.eq_of_testBit_eq
    intro i
    rw [show (4 : Nat) = 2 ^ 2 from rfl, Nat.testBit_mod_two_pow, Nat.testBit_mod_two_pow, BitVec.toNat_and, Nat.testBit_and]
    match i with
    | 0 => simp
    | 1 => simp [show Nat.testBit 259 1 = true from by decide]
    | n + 2 => simp
  have h8 : bitOf (v &&& 0x103).toNat 8 = bitOf v.toNat 8 := by
    rw [bitOf_eq_testBit, bitOf_eq_testBit, BitVec.toNat_and, Nat.testBit_and]
    simp [show Nat.testBit 259 8 = true from by decide]
  rw [h4, h8]

/-- The set m assigned as a field says (R297, R308). -/
def setAssigned (s : State) (m x : Nat) : State := { s with fms := { s.fms with own := tset (fun _ => 0) s.fms.own m x } }

theorem setOwnWrite_empty {s : State} {m : Nat} (hc : (curVer s m).count = 0) (hr : retiring s m = []) (hh : (curVer s m).holders = []) (v : Nat) :
    setOwnWrite s m v = setAssigned s m (v % 4 + b2n (bitOf v 8) * 256) :=
  if_pos ⟨hc, by rw [hr]; rfl, by rw [hh]; rfl⟩

theorem setOwnWrite_loaded {s : State} {m : Nat} (hc : (curVer s m).count ≠ 0) (v : Nat) : setOwnWrite s m v = s := if_neg fun h => hc h.1

/-! ## Requests -/

/-- The request of a host's write of LOAD_CTL (R299, R308). -/
def hostLoad (s : State) (p v : Nat) (clear : Bool) : MsLoad :=
  ⟨v % 256, p, 0, alignDown (reg64 s (0x400_0000 * p + fmsPg + 0x140) (0x400_0000 * p + fmsPg + 0x144)) 8 % 2 ^ 48, 0,
    regN s (0x400_0000 * p + fmsPg + 0x148) % storeSize, clear, true, none, false, false, 0, false, s.time⟩

theorem hostLoad_congr (s : State) (p : Nat) {v w : Nat} (h : v % 256 = w % 256) (clear : Bool) : hostLoad s p v clear = hostLoad s p w clear := by
  rw [hostLoad, h, hostLoad]

/-- The request queued as the partition's latest. -/
def requested (s : State) (p : Nat) (l : MsLoad) : State :=
  setRegN { loseLatest s p with fms := { (loseLatest s p).fms with loads := (loseLatest s p).fms.loads ++ [l] } } (loadStat p) 1

theorem loadRequest_owned {s : State} {p v : Nat} (ho : ownsSet s p (v % 256) = true) (hl : genLocked s p = false) (clear : Bool) :
    loadRequest s p v clear = requested s p (hostLoad s p v clear) := by
  have ho' : ownsSet (loseLatest s p) p (v % 256) = true := ho
  have hl' : genLocked (loseLatest s p) p = false := hl
  simp only [loadRequest, ho', hl', Bool.not_true, Bool.false_eq_true, if_false]
  rfl

theorem loadRequest_other {s : State} {p v : Nat} (ho : ownsSet s p (v % 256) = false) (clear : Bool) :
    irqRest (loadRequest s p v clear) = irqRest (loseLatest s p) := by
  have ho' : ownsSet (loseLatest s p) p (v % 256) = false := ho
  simp only [loadRequest, ho', Bool.not_false, if_true]
  rw [irqRest_raiseIrq, irqRest_bump]
  rfl

/-! ## A task's request -/

theorem eng_bind_ok {α β : Type} {m : Eng α} {s t : State} {a : α} (h : m s = (Except.ok a, t)) (g : α → Eng β) : (m >>= g) s = g a t := by
  show (ExceptT.bind m g : StateM State _) s = _
  simp only [ExceptT.bind, ExceptT.mk, bind, StateT.bind, h, ExceptT.bindCont]

theorem eng_bind_error {α β : Type} {m : Eng α} {s t : State} {e : Nat} (h : m s = (Except.error e, t)) (g : α → Eng β) :
    (m >>= g) s = (Except.error e, t) := by
  show (ExceptT.bind m g : StateM State _) s = _
  simp only [ExceptT.bind, ExceptT.mk, bind, StateT.bind, h, ExceptT.bindCont]
  rfl

/-- The checked command of a task that asks for a set its partition owns (R299, R303). -/
def loadCommand (v : VTask) : Eng (List Byte) := do
  let c ← ftrCommand v
  let own ← Eng.get (fun s => ownsSet s v.part (leAt c 22 1))
  Eng.need own 0x0605
  pure c

theorem loadCommand_unread {v : VTask} {s x : State} {e : Nat} (h : ftrCommand v s = (.error e, x)) : loadCommand v s = (.error e, x) := eng_bind_error h _

theorem loadCommand_owned {v : VTask} {s x : State} {c : List Byte} (h : ftrCommand v s = (.ok c, x)) (ho : ownsSet x v.part (leAt c 22 1) = true) :
    loadCommand v s = (.ok c, x) := by
  refine (eng_bind_ok h _).trans ((eng_bind_ok (a := true) (t := x) ?_ _).trans rfl)
  exact congrArg (fun o => (Except.ok o, x)) ho

theorem loadCommand_other {v : VTask} {s x : State} {c : List Byte} (h : ftrCommand v s = (.ok c, x)) (ho : ownsSet x v.part (leAt c 22 1) = false) :
    loadCommand v s = (.error 0x0605, x) := by
  refine (eng_bind_ok h _).trans ((eng_bind_ok (a := false) (t := x) ?_ _).trans rfl)
  exact congrArg (fun o => (Except.ok o, x)) ho

/-- The request of a task (R299). -/
def taskLoad (v : VTask) (u : Nat) (c : List Byte) (t : DWord) : MsLoad :=
  ⟨leAt c 22 1, v.part, (vaddr c 32 0 (leAt c 3 1) (leAt c 4 1) v.rotIn).space, (vaddr c 32 0 (leAt c 3 1) (leAt c 4 1) v.rotIn).a, 0, leAt c 8 4,
    false, false, some (v.ref, u), false, false, 0, false, t⟩

/-- Has a task asked already. -/
def taskAsked (s : State) (v : VTask) : Bool := s.fms.loads.any (fun l => match l.task with | some y => y.1 == v.ref | none => false)

section
variable {s x : State} {u : Nat} {v : VTask} (hop : ftrOp s u = 3) (hv : vtask s .ftr u = some v) (hno : taskAsked s v = false)
include hop hv hno

theorem fmsLoadAct_ok {c : List Byte} (h : loadCommand v s = (.ok c, x)) :
    fmsLoadAct s u = { x with fms := { x.fms with loads := queueLoad (taskLoad v u c x.time) x.fms.loads } } := by
  simp only [fmsLoadAct, hop, hv, bne_self_eq_false, Bool.false_eq_true, if_false]
  refine (if_neg fun h => Bool.false_ne_true (hno.symm.trans h)).trans ?_
  split
  case h_1 heq => cases congrArg Prod.fst (heq.symm.trans h)
  case h_2 heq =>
    cases heq.symm.trans h
    rfl

theorem fmsLoadAct_error {e : Nat} (h : loadCommand v s = (.error e, x)) : fmsLoadAct s u = finishRun (reported x .ftr u (visBit 0x0600 e)) .ftr u e := by
  simp only [fmsLoadAct, hop, hv, bne_self_eq_false, Bool.false_eq_true, if_false]
  refine (if_neg fun h => Bool.false_ne_true (hno.symm.trans h)).trans ?_
  split
  case h_1 heq =>
    cases heq.symm.trans h
    rfl
  case h_2 heq => cases congrArg Prod.fst (heq.symm.trans h)

end

/-! ## Loads -/

theorem loadStart_clear {s : State} {l : MsLoad} (hs : s.fms.loads.any (·.started) = false) (hl : s.fms.loads.find? (fun l => !l.deferred) = some l)
    (hc : l.clear = true) :
    loadStart s = { s with fms := { s.fms with loads := s.fms.loads.replace l { l with count := 0, digest := 0, started := true } } } := by
  simp only [loadStart, hs, hl, hc, Bool.false_eq_true, if_false, if_true]

section
variable {s x : State} {l : MsLoad} {h : List Byte} (hs : s.fms.loads.any (·.started) = false) (hl : s.fms.loads.find? (fun l => !l.deferred) = some l)
  (hc : l.clear = false) (hh : planeRead l.part l.space l.addr 16 s = (.ok h, x))
include hs hl hc hh

theorem loadStart_badFile (hf : setFileOk h = false) : loadStart s = loadFail x l 0x0607 2 := by
  simp only [loadStart, hs, hl, hc, hh, hf, Bool.false_eq_true, if_false, Bool.not_false, if_true]

theorem loadStart_good {y : State} {d : List Byte} (hf : setFileOk h = true) (hb : storeBusy x l.base (leAt h 4 4) = false)
    (hn : l.base + leAt h 4 4 ≤ storeSize) (hu : fmsUse x l.part + leAt h 4 4 ≤ regN x (fmsPg + 0x180 + 4 * l.part) % 2 ^ 18)
    (hd : planeRead l.part l.space (l.addr + 16) (36 * leAt h 4 4) x = (.ok d, y)) : loadStart s = { y with
      tile := memWrite y.tile (storeAt l.base) d
      fms := { y.fms with loads := y.fms.loads.replace l { l with count := leAt h 4 4, digest := crc64 d, started := true } } } := by
  simp only [loadStart, hs, hl, hc, hh, hf, hb, decide_eq_false (Nat.not_lt.2 hn), decide_eq_false (Nat.not_lt.2 hu), hd, Bool.false_eq_true, if_false,
    Bool.not_true, Bool.or_self]

end

theorem any_started_replace {l : MsLoad} (n d : Nat) {m : List MsLoad} (h : l ∈ m) :
    (m.replace l { l with count := n, digest := d, started := true }).any (·.started) = true := by
  induction m with
  | nil => cases h
  | cons x m ih =>
    rw [List.replace_cons]
    split
    · rw [List.any_cons, Bool.true_or]
    · next hx =>
      rw [List.any_cons, ih ((List.mem_cons.1 h).resolve_left fun e => by simp [e] at hx), Bool.or_true]

/-! ## The version switch -/

theorem getLast?_freeVers (l : List MsVer) (v : MsVer) : (freeVers (l ++ [v])).getLast? = some v := by
  simp [freeVers]

/-- The state after the switch, before its report: the load gone, a new generation, the new version newest (R299, R301). -/
def versionSwitched (s : State) (l : MsLoad) : State :=
  putVers { s with fms := { s.fms with
    loads := s.fms.loads.erase l
    gen := tset (fun _ => 0) s.fms.gen l.set ((tget (fun _ => 0) s.fms.gen l.set + 1) % 2 ^ 32) } }
    l.set (freeVers (setVers s l.set ++ [⟨if l.clear then 0 else l.base, l.count, l.digest, []⟩]))

/-- What is neither registers and messages nor a unit's status. -/
def unitRest (s : State) : State := { irqRest s with units := [] }

theorem unitRest_of_rest {s t : State} (h : irqRest t = irqRest s) : unitRest t = unitRest s := congrArg (fun u : State => { u with units := [] }) h

theorem unitRest_finishRun (s : State) (b : Blk) (n st : Nat) : unitRest (finishRun s b n st) = unitRest s := rfl

theorem unitRest_versionSwitch {s : State} {l : MsLoad} (hl : s.fms.loads.find? (·.started) = some l) :
    unitRest (versionSwitch s) = unitRest (versionSwitched s l) := by
  have hcount : irqRest (bump (versionSwitched s l) (fmsPg + 0x800) 1) = irqRest (versionSwitched s l) := irqRest_bump _ _ _
  simp only [versionSwitch, hl]
  split
  · next u _ => exact (unitRest_finishRun _ _ _ _).trans (unitRest_of_rest hcount)
  · refine unitRest_of_rest ((irqRest_raiseIrq _ _ _ _ _).trans ?_)
    split
    · exact (irqRest_setRegN _ _ _).trans hcount
    · exact hcount

theorem unitRest_keeps {α : Type} {s t : State} (h : unitRest t = unitRest s) (f : State → α) (hf : ∀ u, f (unitRest u) = f u := by intro _; rfl) : f t = f s := by
  rw [← hf t, h, hf s]

theorem versionSwitch_effect {s : State} {l : MsLoad} (hg : twf (fun _ => 0) s.fms.gen = true) (hv : twf (fun _ => []) s.fms.sets = true)
    (hl : s.fms.loads.find? (·.started) = some l) :
    (versionSwitch s).fms.loads = s.fms.loads.erase l ∧ (curVer (versionSwitch s) l.set).base = (if l.clear then 0 else l.base) ∧
      (curVer (versionSwitch s) l.set).count = l.count ∧ (curVer (versionSwitch s) l.set).digest = l.digest ∧
      tget (fun _ => 0) (versionSwitch s).fms.gen l.set = (tget (fun _ => 0) s.fms.gen l.set + 1) % 2 ^ 32 ∧ (versionSwitch s).tile = s.tile ∧
      (versionSwitch s).hbm = s.hbm := by
  have hrest := unitRest_versionSwitch hl
  have hfms : (versionSwitch s).fms = (versionSwitched s l).fms := unitRest_keeps hrest State.fms
  have hcur : curVer (versionSwitch s) l.set = ⟨if l.clear then 0 else l.base, l.count, l.digest, []⟩ := by
    have hset : setVers (versionSwitch s) l.set = freeVers (setVers s l.set ++ [⟨if l.clear then 0 else l.base, l.count, l.digest, []⟩]) := by
      rw [setVers, hfms]
      exact tget_tset_same _ l.set _ hv
    rw [curVer, hset, getLast?_freeVers]
    rfl
  have htile : (versionSwitched s l).tile = s.tile := by simp only [versionSwitched, putVers]
  have hhbm : (versionSwitched s l).hbm = s.hbm := by simp only [versionSwitched, putVers]
  have hloads : (versionSwitched s l).fms.loads = s.fms.loads.erase l := by simp only [versionSwitched, putVers]
  have ht : (versionSwitch s).tile = (versionSwitched s l).tile := unitRest_keeps hrest State.tile
  have hh : (versionSwitch s).hbm = (versionSwitched s l).hbm := unitRest_keeps hrest State.hbm
  rw [hcur, ht, hh, htile, hhbm, hfms, hloads]
  refine ⟨rfl, rfl, rfl, rfl, ?_, rfl, rfl⟩
  exact tget_tset_same _ l.set _ hg

/-! ## Rows -/

theorem fmsLoad_row {dt u : Nat} {s e : State} (hw : Works (arrive dt s)) (hp : present (arrive dt s) .ftr u = true)
    (he : e = asActor .ftr u (opOf (startTask (arrive dt s) .ftr u) .ftr u) (startTask (arrive dt s) .ftr u)) :
    exec (.fmsLoad dt u) s = .next (closing s (fmsLoadAct e u)) := by
  have h : actLive dt (onUnit .ftr u (fun t => fmsLoadAct t u)) s = .next (closing s (fmsLoadAct e u)) := by
    rw [actLive_works hw, onUnit_there _ (by decide) (show unitThere (arrive dt s) .ftr u = true from hp), he]
  exact h

/-- Settles O36: a write of LOAD_CTL is `loadRequest` with the host's request, a task's request waits on its command and its set, and the store's own
steps take the load they find. -/
theorem matchSetsTakeEffect : Obligations.MatchSetsTakeEffect := by
  unfold Obligations.MatchSetsTakeEffect
  intro dt s who u v b p base l
  have hs : twf regRst b.regs = true := arrive_regs_wf dt s
  have hown : twf (fun _ => 0) b.fms.own = true := tblOf_wf _ _
  have hgen : twf (fun _ => 0) b.fms.gen = true := tblOf_wf _ _
  have hsets : twf (fun _ => ([] : List MsVer)) b.fms.sets = true := tblOf_wf _ _
  have hgo (h : writes b who (fmsPg + 0x14C)) : exec (.loadGo dt who v) s = .next (closing s (regWrite b who (fmsPg + 0x14C) (v ||| 0x100))) :=
    exec_of_writes rfl h
  have hclear (h : writes b who (fmsPg + 0x14C)) :
      exec (.loadClear dt who v) s = .next (closing s (regWrite b who (fmsPg + 0x14C) ((v &&& ~~~0x100) ||| 0x200))) := exec_of_writes rfl h
  have hset (h : writes b who (fmsPg + 0x118)) : exec (.setOwnWrite dt who v) s = .next (closing s (regWrite b who (fmsPg + 0x118) v)) := exec_of_writes rfl h
  have hstart (hw : Works b) : exec (.fmsLoadStart dt) s = .next (closing s (loadStart (boundary .fms 0 b))) := actLive_works (f := fun t => loadStart (boundary .fms 0 t)) hw
  have hswitch (hw : Works b) : exec (.fmsVersionSwitch dt) s = .next (closing s (versionSwitch b)) := actLive_works (f := versionSwitch) hw
  have hrow (hw : Works b) (hp : present b .ftr u = true) :
      exec (.fmsLoad dt u) s = .next (closing s (fmsLoadAct (asActor .ftr u (opOf (startTask b .ftr u) .ftr u) (startTask b .ftr u)) u)) := fmsLoad_row hw hp rfl
  clear_value b
  refine ⟨fun h hlock => ⟨fun ho => ⟨⟨requested b p l, ?_, rfl, ?_, rfl⟩, ⟨requested b p { l with clear := true }, ?_, rfl, ?_, rfl⟩⟩, fun ho => ?_⟩, fun h => ?_,
    fun hw => ⟨?_, ?_⟩, fun hw hns hcm l' hl' => ⟨fun hc => ?_, fun h x hc hh hf => ?_, fun h x d y hc hh hf hb hn hu hd => ?_⟩, fun hw l' hl' => ?_⟩
  · obtain ⟨h8, hm⟩ := loadCtl_go v
    rw [hgo h, regWrite_loadCtl h (clear := false) h8 (fun e => by cases e), loadRequest_owned (by rw [hm]; exact ho) hlock, hostLoad_congr b _ hm]
    rfl
  · exact regN_setRegN_same (s := { loseLatest b p with fms := _ }) hs _ _
  · obtain ⟨h8, h9, hm⟩ := loadCtl_clear v
    rw [hclear h, regWrite_loadCtl h (clear := true) h8 (fun _ => h9), loadRequest_owned (by rw [hm]; exact ho) hlock, hostLoad_congr b _ hm]
    rfl
  · exact regN_setRegN_same (s := { loseLatest b p with fms := _ }) hs _ _
  · obtain ⟨h8, hm⟩ := loadCtl_go v
    have hrest := loadRequest_other (s := b) (p := p) (v := (v ||| 0x100).toNat % 1024) (by rw [hm]; exact ho) false
    refine ⟨_, by rw [hgo h, regWrite_loadCtl h (clear := false) h8 (fun e => by cases e)], ?_, rest_keeps hrest State.tile⟩
    exact congrArg Fms.loads (rest_keeps hrest State.fms)
  · intro m
    refine ⟨fun hc hr hh => ?_, fun hc => ?_⟩
    · refine ⟨setAssigned b m (v.toNat % 4 + b2n (bitOf v.toNat 8) * 256), ?_, tget_tset_same _ m _ hown, rfl, fun k hk => tget_tset_other _ m k _ hk hown⟩
      rw [hset h, regWrite_setOwn h, setOwnWrite_empty hc hr hh, setOwn_field]
    · rw [hset h, regWrite_setOwn h, setOwnWrite_loaded hc]
  · intro t e v c x hp hv hop hno hc ho
    have hr : exec (.fmsLoad dt u) s = .next (closing s (fmsLoadAct e u)) := hrow hw hp
    clear_value e
    exact ⟨_, hr.trans (next_closing_congr s (fmsLoadAct_ok hop hv hno (loadCommand_owned hc ho))), taskLoad v u c x.time, rfl, rfl, rfl, rfl, rfl, rfl⟩
  · intro t e v hp hv hop hno
    have hr : exec (.fmsLoad dt u) s = .next (closing s (fmsLoadAct e u)) := hrow hw hp
    clear_value e
    refine ⟨fun st hc => ?_, fun c hc ho => ?_⟩
    · exact hr.trans (next_closing_congr s (fmsLoadAct_error hop hv hno (loadCommand_unread (Prod.ext hc rfl))))
    · exact hr.trans (next_closing_congr s (fmsLoadAct_error hop hv hno (loadCommand_other (Prod.ext hc rfl) ho)))
  · rw [hstart hw, boundary_of_none hcm, loadStart_clear hns hl' hc]
    exact ⟨_, rfl, rfl, rfl, rfl⟩
  · rw [hstart hw, boundary_of_none hcm, loadStart_badFile hns hl' hc hh hf]
  · rw [hstart hw, boundary_of_none hcm, loadStart_good hns hl' hc hh hf hb hn hu hd]
    refine ⟨_, rfl, rfl, any_started_replace _ _ ?_⟩
    have hx : engRest x = engRest b := (congrArg (fun r => engRest r.2) hh).symm.trans (engRest_planeRead _ _ _ _ b)
    have hy : engRest y = engRest x := (congrArg (fun r => engRest r.2) hd).symm.trans (engRest_planeRead _ _ _ _ x)
    rw [engRest_keeps (hy.trans hx) State.fms]
    exact List.mem_of_find?_eq_some hl'
  · exact ⟨_, hswitch hw, versionSwitch_effect hgen hsets hl'⟩

end Sys2Proof.Machine
end

section
/-! What a commit at its boundary leaves standing: the links that a port's new MODE takes away (R71, R480, R486, R511). -/

namespace Sys2Proof.Machine
open Sys2Proof

/-- From state s to state t applied values, pending commits and the form of the registers are kept, and so is bit 0 of BLK_IRQ_STAT of
fabric port n. -/
structure DoneKept (n : Nat) (s t : State) : Prop where
  applied : t.applied = s.applied
  commits : t.commits = s.commits
  wf : twf regRst s.regs = true → twf regRst t.regs = true
  bit : twf regRst s.regs = true → bitOf (regN s (pg .fabp n + 0x10)) 0 = true → bitOf (regN t (pg .fabp n + 0x10)) 0 = true

theorem DoneKept.refl (n : Nat) (s : State) : DoneKept n s s := ⟨rfl, rfl, id, fun _ h => h⟩

theorem DoneKept.trans {n : Nat} {s t u : State} (h : DoneKept n s t) (k : DoneKept n t u) : DoneKept n s u :=
  ⟨k.applied.trans h.applied, k.commits.trans h.commits, fun w => k.wf (h.wf w), fun w b => k.bit (h.wf w) (h.bit w b)⟩

theorem doneKept_of_regs {n : Nat} {s t : State} (hr : t.regs = s.regs) (ha : t.applied = s.applied) (hc : t.commits = s.commits) : DoneKept n s t :=
  ⟨ha, hc, fun w => hr ▸ w, fun _ b => by rw [regN_congr hr]; exact b⟩

/-- A change of nothing of these, before or after. -/
theorem DoneKept.off {n : Nat} {s t u : State} (h : DoneKept n s t) (hr : u.regs = t.regs) (ha : u.applied = t.applied) (hc : u.commits = t.commits) :
    DoneKept n s u := h.trans (doneKept_of_regs hr ha hc)

theorem DoneKept.since {n : Nat} {s t u : State} (h : DoneKept n t u) (hr : t.regs = s.regs) (ha : t.applied = s.applied) (hc : t.commits = s.commits) :
    DoneKept n s u := (doneKept_of_regs hr ha hc).trans h

theorem doneKept_forAll {α : Type} {n : Nat} {l : List α} {f : α → State → State} (h : ∀ x ∈ l, ∀ t, DoneKept n t (f x t)) (s : State) :
    DoneKept n s (forAll l f s) :=
  forAll_induct (P := DoneKept n s) (DoneKept.refl n s) fun x hx t ht => ht.trans (h x hx t)

theorem doneKept_setReg {n a : Nat} (h : pg .fabp n + 0x10 ≠ a) (s : State) (v : Word) : DoneKept n s (setReg s a v) :=
  ⟨rfl, rfl, fun w => setReg_wf w a v, fun w h1 => by rw [regN, reg_setReg_other w h]; exact h1⟩

theorem doneKept_setRegN {n a : Nat} (h : pg .fabp n + 0x10 ≠ a) (s : State) (v : Nat) : DoneKept n s (setRegN s a v) := doneKept_setReg h s _

theorem doneKept_bump {n a : Nat} (h : pg .fabp n + 0x10 ≠ a) (s : State) (k : Nat) : DoneKept n s (bump s a k) := by
  unfold bump
  split
  · exact DoneKept.refl n s
  · exact doneKept_setReg h s _

theorem doneKept_bump64 {n a : Nat} (h : pg .fabp n + 0x10 ≠ a) (s : State) (k : Nat) : DoneKept n s (bump64 s a k) := by
  unfold bump64
  split
  · exact DoneKept.refl n s
  · exact (doneKept_setRegN h s _).off rfl rfl rfl

section
variable {n : Nat} (hn : n < blkCount .fabp)
include hn

theorem fabpIrq_ne {b : Blk} {m o : Nat} (hm : m < blkCount b) (ho : o < (blkPlace b).2.2.1) (h : o ≠ 0x10) : pg .fabp n + 0x10 ≠ pg b m + o :=
  pg_add_ne hn hm (by decide) ho (Ne.symm h)

theorem doneKept_raiseIrq (s : State) {b : Blk} {m bit : Nat} (ctx : Option Nat) : DoneKept n s (raiseIrq s b m bit ctx) := by
  refine ⟨rest_keeps (irqRest_raiseIrq _ _ _ _ _) State.applied, rest_keeps (irqRest_raiseIrq _ _ _ _ _) State.commits, fun w => raiseIrq_regs_wf w b m bit ctx, fun w h => ?_⟩
  have hoff : OffPba (pg .fabp n + 0x10) := offPba_page hn (by decide)
  by_cases he : pg .fabp n + 0x10 = pg b m + 0x10
  · unfold raiseIrq
    extract_lets q s1 s2
    have h2 : bitOf (regN s2 (pg .fabp n + 0x10)) 0 = true := by
      have hor : regN s2 q = (regN s q ||| 2 ^ bit) % 2 ^ 32 := regN_orReg w q (2 ^ bit)
      rw [he] at h ⊢
      rw [show pg b m + 0x10 = q from rfl] at h ⊢
      rw [hor, bitOf_eq_testBit, Nat.testBit_mod_two_pow, Nat.testBit_or, ← bitOf_eq_testBit, h]
      rfl
    have hs2 : twf regRst s2.regs = true := orReg_wf w q _
    clear_value s2
    split
    · exact h
    · split
      · rw [regN, reg_deliver hs2 hoff]
        exact h2
      · exact h2
  · rw [regN, reg_raiseIrq w hoff he]
    exact h

theorem doneKept_raiseErr (s : State) {b : Blk} {m bit : Nat} (hm : m < blkCount b) (ctx : Option Nat) : DoneKept n s (raiseErr s b m bit ctx) := by
  unfold raiseErr
  dsimp only
  split
  · exact DoneKept.refl n s
  · exact (doneKept_setReg (fabpIrq_ne hn hm (headerOffset_lt_window b (by decide)) (by decide)) s _).trans (doneKept_raiseIrq hn _ ctx)

/-! ## Records of the completion log (R82 to R88) -/

theorem doneKept_signalIf (s : State) (p : Nat) (ask : Bool) : DoneKept n s (signalIf s p ask) := by
  unfold signalIf
  split
  · refine DoneKept.since (t := setCmdw s p { cmdwAt s p with unsig := 0 }) ?_ rfl rfl rfl
    unfold signalLog sendMsi
    split
    · exact doneKept_setReg (offPba_page (b := .fabp) hn (by decide) _ _ (Nat.mod_lt _ (by decide))) _ _
    · exact doneKept_of_regs rfl rfl rfl
  · exact DoneKept.refl n s

omit hn in
theorem doneKept_vaWriteAll {s t : State} {p va : Nat} {l : List Byte} (h : vaWriteAll s p va l = .ok t) : DoneKept n s t :=
  doneKept_of_regs (regs_vaWriteAll h) (outRest_keeps (outRest_vaWriteAll h) State.applied) (outRest_keeps (outRest_vaWriteAll h) State.commits)

theorem doneKept_writeBack (s : State) {p : Nat} (hp : p < 4) : DoneKept n s (writeBack s p) := by
  unfold writeBack
  split
  · split
    case h_1 h => exact (doneKept_vaWriteAll h).off rfl rfl rfl
    case h_2 => exact (doneKept_raiseErr hn _ hp none).since rfl rfl rfl
  · exact doneKept_of_regs rfl rfl rfl

omit hn in
theorem doneKept_freeHandle (s : State) (h : Nat) : DoneKept n s (freeHandle s h) := by
  simp only [freeHandle]
  split
  · exact doneKept_of_regs rfl rfl rfl
  · exact DoneKept.refl n s

theorem doneKept_cplWritten (s : State) {p : Nat} (hp : p < 4) (r : Cpl) : DoneKept n s (cplWritten s p r) := by
  unfold cplWritten
  extract_lets s1 c s2 s3 s4
  have h1 : DoneKept n s s1 := doneKept_setReg (fabpIrq_ne hn (b := .cmdw) hp (by decide) (by decide)) s _
  have h2 : DoneKept n s s2 := h1.off rfl rfl rfl
  have h3 : DoneKept n s s3 := by
    unfold s3
    split
    · exact h2.trans ((doneKept_freeHandle _ _).off rfl rfl rfl)
    · exact h2
  exact (h3.trans (doneKept_writeBack hn s3 hp)).trans (doneKept_signalIf hn s4 p _)

theorem doneKept_drainList {p : Nat} (hp : p < 4) (l : List Cpl) (s : State) : DoneKept n s (drainList p l s).2 := by
  induction l generalizing s with
  | nil => exact DoneKept.refl n s
  | cons r rs ih =>
    unfold drainList
    split
    · exact DoneKept.refl n s
    · split
      case h_1 h => exact ((doneKept_vaWriteAll h).trans (doneKept_cplWritten hn _ hp r)).trans (ih _)
      case h_2 => exact (doneKept_raiseErr hn _ hp none).since rfl rfl rfl

theorem doneKept_pushFinal (s : State) (h st src : Nat) : DoneKept n s (pushFinal s h st src) := by
  unfold pushFinal
  split
  · exact DoneKept.refl n s
  · have hp : fld h 29 2 < 4 := Nat.mod_lt _ (by decide)
    let q := setCmdw s (fld h 29 2) { cmdwAt s (fld h 29 2) with held := (cmdwAt s (fld h 29 2)).held ++ [finalCpl s h st src] }
    exact DoneKept.since (s := s) (t := q) (DoneKept.off (doneKept_drainList hn hp (cmdwAt q (fld h 29 2)).held q) rfl rfl rfl) rfl rfl rfl

/-! ## Movers halted by a peer that goes away (R438 to R440, R507) -/

omit hn in
theorem movBlk_lt (k : Nat) : (movBlk (movOf k)).2 < blkCount (movBlk (movOf k)).1 := by
  unfold movOf
  split
  · show k / 16 < 8
    omega
  · split
    · show (k - 128) / 32 < 4
      omega
    · exact Nat.zero_lt_one

theorem doneKept_discardBytes (s : State) (k m : Nat) : DoneKept n s (discardBytes s (movOf k) m) := by
  have hne (o : Nat) (ho : o < 0x1000) (h : o ≠ 0x10) : pg .fabp n + 0x10 ≠ movPg (movOf k) + o :=
    fabpIrq_ne hn (movBlk_lt k) (headerOffset_lt_window _ ho) h
  unfold discardBytes
  split
  · exact doneKept_bump64 (hne _ (by decide) (by decide)) s m
  · exact doneKept_bump64 (hne _ (by decide) (by decide)) s m

omit hn in
theorem doneKept_grantSlots (s : State) : DoneKept n s (grantSlots s) :=
  doneKept_forAll (f := fun c t => setMov t (256 + c) { movAt t (256 + c) with slot := true }) (fun _ _ _ => doneKept_of_regs rfl rfl rfl) s

omit hn in
theorem doneKept_closeFlight (s : State) (k : Nat) (v : Mov) : DoneKept n s (setMov (closeFlight k s) k v) := doneKept_of_regs rfl rfl rfl

omit hn in
theorem doneKept_cutTask (s : State) (ch : Nat) (r : TRef) (st : Nat) : DoneKept n s (cutTask s ch r st) := by
  unfold cutTask
  split
  · exact doneKept_of_regs rfl rfl rfl
  · exact doneKept_of_regs rfl rfl rfl

omit hn in
theorem doneKept_endsWith (s : State) (u : Nat) (r : TRef) (st : Nat) : DoneKept n s (endsWith s u r st) := doneKept_of_regs rfl rfl rfl

theorem doneKept_finalFault (s : State) (k cause : Nat) : DoneKept n s (finalFault s (movOf k) cause) := by
  have hne (o : Nat) (ho : o < 0x1000) (h : o ≠ 0x10) : pg .fabp n + 0x10 ≠ movPg (movOf k) + o :=
    fabpIrq_ne hn (movBlk_lt k) (headerOffset_lt_window _ ho) h
  have hlt := movBlk_lt k
  have hdisc := doneKept_discardBytes hn s k
  generalize movOf k = m at hne hlt hdisc ⊢
  unfold finalFault
  extract_lets k v p s1 s2
  generalize movBlk m = bu at hlt ⊢
  obtain ⟨b, u⟩ := bu
  dsimp -zeta only at hlt ⊢
  extract_lets s3 s4
  have h2 : DoneKept n s s2 := ((hdisc _).trans (doneKept_closeFlight s1 k _)).trans (doneKept_grantSlots _)
  have h3 : DoneKept n s s3 := h2.trans (doneKept_raiseIrq hn s2 _)
  have h4 : DoneKept n s s4 := by
    unfold s4
    split
    · split
      · exact h3.trans (doneKept_bump (hne _ (by decide) (by decide)) s3 1)
      · exact h3
    · exact h3
  refine h4.trans (doneKept_forAll (fun c _ t => ?_) s4)
  split
  · split
    · exact doneKept_pushFinal hn _ _ _ _
    · exact doneKept_cutTask _ _ _ _
    · exact DoneKept.refl n t
  · split
    · exact doneKept_endsWith _ _ _ _
    · exact DoneKept.refl n t

theorem doneKept_haltAtPos (s : State) (k : Nat) (c : MovCmd) (pair elem cause : Nat) (write : Bool) : DoneKept n s (haltAtPos s (movOf k) c pair elem cause write) := by
  have hne (o : Nat) (ho : o < 0x1000) (h : o ≠ 0x10) : pg .fabp n + 0x10 ≠ movPg (movOf k) + o :=
    fabpIrq_ne hn (movBlk_lt k) (headerOffset_lt_window _ ho) h
  have hlt := movBlk_lt k
  have hdisc := doneKept_discardBytes hn s k
  have hfinal (t : State) := doneKept_finalFault hn t k cause
  generalize movOf k = m at hne hlt hdisc hfinal ⊢
  unfold haltAtPos
  extract_lets k v side a sp lost s1 ctx
  generalize movBlk m = bu at hlt ⊢
  obtain ⟨b, u⟩ := bu
  dsimp -zeta only at hlt ⊢
  extract_lets s2 s3 s4
  have h1 : DoneKept n s s1 := (hdisc _).off rfl rfl rfl
  have h2 : DoneKept n s s2 := by
    unfold s2
    split
    · exact h1.trans (doneKept_raiseErr hn s1 hlt ctx)
    · exact h1
  have h3 : DoneKept n s s3 := by
    refine DoneKept.trans ?_ (doneKept_raiseIrq hn _ ctx)
    split
    · exact h2
    · exact h2.trans (doneKept_bump (hne _ (by decide) (by decide)) s2 1)
  have h4 : DoneKept n s s4 := h3.off rfl rfl rfl
  split
  · exact h4
  · exact h4.trans (hfinal s4)

theorem doneKept_remoteFail (s : State) (k a : Nat) : DoneKept n s (remoteFail s k a) := by
  unfold remoteFail
  extract_lets v
  split
  · exact DoneKept.refl n s
  · split
    · exact DoneKept.refl n s
    · exact doneKept_haltAtPos hn s k _ _ _ _ _

/-! ## Peers and links (R485 to R487, R507, R511) -/

theorem rv_ne {o : Nat} (ho : o < 0x10000) (h : o ≠ 0x10) : pg .fabp n + 0x10 ≠ rv o := fabpIrq_ne hn (b := .rolv) (by decide) ho h

theorem doneKept_lastFail (s : State) (peer reason : Nat) : DoneKept n s (lastFail s peer reason) := doneKept_setRegN (rv_ne hn (by decide) (by decide)) s _

theorem doneKept_peerDown (s : State) (i : Nat) : DoneKept n s (peerDown s i) := by
  unfold peerDown
  extract_lets c s1 firsts s2 s3 s4
  have h1 : DoneKept n s s1 := doneKept_of_regs rfl rfl rfl
  have h2 : DoneKept n s s2 := h1.trans (doneKept_forAll (fun k _ t => by
    split
    · exact (doneKept_lastFail hn t i _).trans (doneKept_remoteFail hn _ _ _)
    · split
      · exact (doneKept_lastFail hn t i _).trans (doneKept_remoteFail hn _ _ _)
      · exact DoneKept.refl n t) s1)
  have h3 : DoneKept n s s3 := h2.trans (doneKept_forAll (fun k _ t => by
    extract_lets u
    split
    · split
      · exact DoneKept.refl n t
      · split
        · extract_lets hit
          split
          · exact doneKept_of_regs rfl rfl rfl
          · exact DoneKept.refl n t
        · exact DoneKept.refl n t
    · exact DoneKept.refl n t) s2)
  have h4 : DoneKept n s s4 := h3.trans (doneKept_forAll (fun p hp t => by
    split
    · have hp4 := List.mem_range.1 hp
      refine DoneKept.since (doneKept_setRegN (rv_ne hn (o := 0x3008 + 0x100 * p) (by omega) (by omega)) _ _) rfl rfl rfl
    · exact DoneKept.refl n t) s3)
  exact h4.trans (doneKept_raiseIrq hn s4 _)

omit hn in
theorem doneKept_wirePkt (s : State) (i : Nat) (p : Pkt) (again : Bool) : DoneKept n s (wirePkt s i p again) := by
  have hput (t : State) (l : Nat) (peer : Option Nat) (bytes : List Byte) : DoneKept n t (putWire t l peer bytes) := by
    unfold putWire
    split
    · exact DoneKept.refl n t
    · refine DoneKept.since (doneKept_bump ?_ _ 1) rfl rfl rfl
      simp only [pg, blkPlace]
      omega
  unfold wirePkt
  split
  · exact DoneKept.refl n s
  · exact DoneKept.off (DoneKept.since (s := s) (hput (drawn s) _ _ _) rfl rfl rfl) rfl rfl rfl

theorem doneKept_again (i : Nat) (p : Pkt) (s : State) : DoneKept n s (again i p s) := by
  unfold again
  extract_lets c s1
  exact (DoneKept.since (s := s) (doneKept_bump (rv_ne hn (o := 0x804) (by decide) (by decide)) s1 1) rfl rfl rfl).trans (doneKept_wirePkt _ _ _ _)

theorem doneKept_linkDown (s : State) {l : Nat} (hl : l / 4 < blkCount .fabp) : DoneKept n s (linkChangeAct s l false) := by
  unfold linkChangeAct
  split
  · exact DoneKept.refl n s
  · extract_lets f was r s1 s2
    have h2 : DoneKept n s s2 := by
      refine DoneKept.trans (t := clrReg s1 (f + 0x110) (2 ^ (l % 4))) ?_ (doneKept_raiseIrq hn _ none)
      exact (doneKept_setReg (fabpIrq_ne hn (b := .fabp) (o := 0x110) hl (by decide) (by decide)) s1 _).since rfl rfl rfl
    rw [if_neg (by decide)]
    refine h2.trans (doneKept_forAll (fun i _ t => ?_) s2)
    split
    · exact doneKept_peerDown hn t i
    · exact doneKept_forAll (fun p _ u => doneKept_again hn i p u) t

theorem doneKept_linksGone (s : State) : DoneKept n s (linksGone n s) :=
  doneKept_forAll (f := fun l t => linkChangeAct t l false) (fun l hl t => doneKept_linkDown hn t (by
    have h := (List.mem_filter.1 hl).2
    simp only [Bool.and_eq_true, beq_iff_eq] at h
    rw [h.1]
    exact hn)) s

end

end Sys2Proof.Machine
end

section
/-! A commit is asked for, and taken whole or not at all at its boundary (R39, R71 to R74, R200). -/

namespace Sys2Proof.Machine
open Sys2Proof

/-! ## Asking -/

theorem headWrite_commit {s : State} {who : Who} {l : Loc} (hf : foreign s who l = false) :
    headWrite s who l 0x20 1 = commitWrite s (headBlk l.blk) l.inst := by
  simp only [headWrite, hf, Bool.false_eq_true, if_false, admitted]
  rfl

theorem commitWrite_pending {s : State} {b : Blk} {n : Nat} (h : s.commits.contains (pg b n) = true) : commitWrite s b n = s := if_pos h

theorem commitWrite_plain {s : State} {b : Blk} {n : Nat} (h : s.commits.contains (pg b n) = false) (hs : b ≠ .sys) (hi : b ≠ .isp) :
    commitWrite s b n = { s with commits := s.commits ++ [pg b n] } := by
  simp only [commitWrite, h, hs, hi, Bool.false_eq_true, if_false, false_and]

theorem outRest_rexViol (s : State) (bit : Nat) : outRest (rexViol s bit) = outRest s := outRest_of_logRest (logRest_rexViol s bit)

theorem toneBegin_keeps (s : State) : (toneBegin s).commits = s.commits ∧ (toneBegin s).applied = s.applied := by
  have hstep (u : Nat) (t : State) : outRest (bump (rexViol (raiseIrq t .isp u 9 none) 1) (pg .isp u + 0x814) 1) = outRest t :=
    (outRest_bump _ _ _).trans ((outRest_rexViol _ _).trans (outRest_raiseIrq _ _ _ _ _))
  exact ⟨forAll_keeps State.commits (f := fun u t => setTone u 1 (bump (rexViol (raiseIrq t .isp u 9 none) 1) (pg .isp u + 0x814) 1))
      (fun u _ t => outRest_keeps (hstep u t) State.commits) s,
    forAll_keeps State.applied (f := fun u t => setTone u 1 (bump (rexViol (raiseIrq t .isp u 9 none) 1) (pg .isp u + 0x814) 1))
      (fun u _ t => outRest_keeps (hstep u t) State.applied) s⟩

/-- A commit asked for is pending, and no applied value has changed (R71). -/
theorem commitWrite_effect (s : State) (b : Blk) (n : Nat) :
    (commitWrite s b n).commits.contains (pg b n) = true ∧ (commitWrite s b n).applied = s.applied := by
  have hin : (s.commits ++ [pg b n]).contains (pg b n) = true := by simp
  unfold commitWrite
  split
  · next h => exact ⟨h, rfl⟩
  · extract_lets s1
    split
    · have hrest : outRest (rexViol s1 0) = outRest s1 := outRest_rexViol s1 0
      rw [outRest_keeps hrest State.commits, outRest_keeps hrest State.applied]
      exact ⟨hin, rfl⟩
    · split
      · obtain ⟨hc, ha⟩ := toneBegin_keeps s1
        rw [hc, ha]
        exact ⟨hin, rfl⟩
      · exact ⟨hin, rfl⟩

/-! ## The boundary -/

theorem headBlk_bound {l : Loc} (h : l.inst < blkCount l.blk) : l.inst < blkCount (headBlk l.blk) := by
  cases hb : l.blk <;> rw [hb] at h <;> exact h

theorem commitEnds_plain {b : Blk} (h : b ≠ .isp) (s : State) (n : Nat) :
    commitEnds s b n = { s with commits := s.commits.filter (fun x => x != pg b n) } := if_neg h

theorem commitApplied_taken {s : State} {page : Nat} {l : Loc} (hl : locate page = some l) (hc : s.commits.contains (pg (headBlk l.blk) l.inst) = true)
    (hb : atBoundary s (headBlk l.blk) l.inst = true) (hs : isStopped s = false) (hv : headBlk l.blk ≠ .vtm) (hi : headBlk l.blk ≠ .isp) :
    commitApplied s page = commitResolve s (headBlk l.blk) l.inst := by
  simp only [commitApplied, hl, hc, hb, hs, beq_eq_false_iff_ne.2 hv, beq_eq_false_iff_ne.2 hi, Bool.false_and, Bool.not_false, Bool.and_self, if_true]

section
variable {s : State} {b : Blk} {n : Nat} (hs : twf regRst s.regs = true) (hn : n < blkCount b) (hi : b ≠ .isp)
include hs hn hi

theorem commitResolve_rejected (hc : commitCheck s b n = false) : (commitResolve s b n).applied = s.applied ∧
    (commitResolve s b n).commits = s.commits.filter (fun y => y != pg b n) ∧ bitOf (regN (commitResolve s b n) (pg b n + 0x18)) 0 = true := by
  have hact : ∃ key p, commitResolve s b n = crumb (raiseErr (commitEnds s b n) b n 0 none) key 6 p 0 0 0 := by
    unfold commitResolve
    rw [if_pos (by rw [hc]; rfl)]
    exact ⟨_, _, rfl⟩
  obtain ⟨key, p, hact⟩ := hact
  have hrest : outRest (commitResolve s b n) = outRest (commitEnds s b n) := by rw [hact, outRest_crumb, outRest_raiseErr]
  have hwf : twf regRst (commitEnds s b n).regs = true := by rw [commitEnds_plain hi]; exact hs
  rw [outRest_keeps hrest State.applied, outRest_keeps hrest State.commits, commitEnds_plain hi]
  refine ⟨rfl, rfl, ?_⟩
  rw [hact]
  exact bitOf_raiseErr hwf hn (by decide) none

theorem commitDone_effect : (commitDone s b n).applied = (applyShadow s b n).applied ∧
    (commitDone s b n).commits = s.commits.filter (fun y => y != pg b n) ∧ bitOf (regN (commitDone s b n) (pg b n + 0x10)) 0 = true ∧
      twf regRst (commitDone s b n).regs = true := by
  have hregs : (commitEnds (applyShadow s b n) b n).regs = s.regs := by
    rw [commitEnds_plain hi]
    exact applyShadow_regs s b n
  have hcom : (applyShadow s b n).commits = s.commits := forAll_keeps State.commits (f := fun a t => setApp t a (reg s a)) (fun _ _ _ => rfl) s
  have hact : ∃ key p, commitDone s b n = crumb (raiseIrq (commitEnds (applyShadow s b n) b n) b n 0 none) key 5 p 0 0 0 := ⟨_, _, rfl⟩
  obtain ⟨key, p, hact⟩ := hact
  have hrest : outRest (commitDone s b n) = outRest (commitEnds (applyShadow s b n) b n) := by rw [hact, outRest_crumb, outRest_raiseIrq]
  have hwf : twf regRst (commitEnds (applyShadow s b n) b n).regs = true := by rw [hregs]; exact hs
  rw [outRest_keeps hrest State.applied, outRest_keeps hrest State.commits, commitEnds_plain hi]
  refine ⟨rfl, congrArg (List.filter _) hcom, ?_, ?_⟩
  · rw [hact]
    exact bitOf_raiseIrq hwf hn (by decide) none
  · rw [hact]
    exact raiseIrq_regs_wf hwf b n 0 none

theorem commitResolve_done (hv : b ≠ .vtm) (hc : commitCheck s b n = true) : (commitResolve s b n).applied = (applyShadow s b n).applied ∧
    (commitResolve s b n).commits = s.commits.filter (fun y => y != pg b n) ∧ bitOf (regN (commitResolve s b n) (pg b n + 0x10)) 0 = true := by
  obtain ⟨ha, hcom, hbit, hwf⟩ := commitDone_effect hs hn hi
  unfold commitResolve
  rw [if_neg (by rw [hc]; decide), if_neg fun h => hv h.1]
  split
  · next hb =>
    subst hb
    obtain ⟨ka, kc, -, kb⟩ := doneKept_linksGone hn (commitDone s .fabp n)
    exact ⟨ka.trans ha, kc.trans hcom, kb hwf hbit⟩
  · exact ⟨ha, hcom, hbit⟩

end

/-- Settles O11: BLK_COMMIT is `commitWrite`, which leaves the commit pending, and the boundary is `commitResolve`, whose check chooses between the
rejected commit and the applied one; what a port's lost links do leaves the commit standing. -/
theorem commitTakesEffect : Obligations.CommitTakesEffect := by
  unfold Obligations.CommitTakesEffect
  refine ⟨fun dt s who page l => ?_, fun dt s page l => ?_⟩
  · intro b p hl hh ho hf
    have hrow : exec (.commit dt who page) s = .next (closing s (commitWrite b (headBlk l.blk) l.inst)) := by
      refine (act_awake (f := fun t => regWrite t who (page / 0x1000 * 0x1000 + 0x20) 1) ho.1).trans ?_
      rw [regWrite_of_header_open hl ho hh, headWrite_commit hf]
    obtain ⟨hc, ha⟩ := commitWrite_effect b (headBlk l.blk) l.inst
    refine ⟨fun h => ?_, fun h hs hi => ?_, _, hrow, hc, ha⟩
    · rw [hrow, commitWrite_pending h]
    · rw [hrow, commitWrite_plain h hs hi]
  · intro b x hreset hl hc hb hstop hv hi
    have hs : twf regRst b.regs = true := arrive_regs_wf dt s
    have hn : l.inst < blkCount x := headBlk_bound (locate_bounds hl).1
    have hrow : exec (.commitApplied dt page) s = .next (closing s (commitResolve b x l.inst)) := by
      refine (act_awake (f := fun t => commitApplied t page) hreset).trans ?_
      rw [commitApplied_taken hl hc hb hstop hv hi]
    exact ⟨fun h => ⟨_, hrow, commitResolve_rejected hs hn hi h⟩, fun h => ⟨_, hrow, commitResolve_done hs hn hi hv h⟩⟩

end Sys2Proof.Machine
end

section
/-! The table of movers stays one through the accesses of movers (R408 to R418, R429 to R448). -/

namespace Sys2Proof.Machine
open Sys2Proof

/-- The movers of a state are a table: each key stands once. -/
def MoversWf (s : State) : Prop := twf (fun _ => ({} : Mov)) s.movers = true

/-- An engine's action keeps the movers a table. -/
def KeepsMovers {α : Type} (f : Eng α) : Prop := ∀ s, MoversWf s → MoversWf (f s).2

theorem moversWf_of_engRest {s t : State} (h : engRest t = engRest s) (hs : MoversWf s) : MoversWf t := by
  rw [MoversWf, engRest_keeps h State.movers]
  exact hs

theorem moversWf_setMov {s : State} (h : MoversWf s) (k : Nat) (v : Mov) : MoversWf (setMov s k v) := setMov_movers_wf h k v

theorem keepsMovers_of_engRest {α : Type} {f : Eng α} (h : ∀ s, engRest (f s).2 = engRest s) : KeepsMovers f := fun s => moversWf_of_engRest (h s)

/-! ## Combinators -/

section
variable {α β : Type}

theorem keepsMovers_pure (a : α) : KeepsMovers (pure a) := fun _ h => h

theorem keepsMovers_get (f : State → α) : KeepsMovers (Eng.get f) := fun _ h => h

theorem keepsMovers_error (e : Nat) : KeepsMovers (fun s => (.error e, s) : Eng α) := fun _ h => h

theorem keepsMovers_modify {f : State → State} (h : ∀ s, MoversWf s → MoversWf (f s)) : KeepsMovers (Eng.modify f) := h

theorem keepsMovers_bind {f : Eng α} {g : α → Eng β} (hf : KeepsMovers f) (hg : ∀ a, KeepsMovers (g a)) : KeepsMovers (f >>= g) := by
  intro s hs
  have h := hf s hs
  obtain ⟨a, t, hfs⟩ : ∃ a t, f s = (a, t) := ⟨_, _, rfl⟩
  rw [hfs] at h
  cases a with
  | error e =>
    rw [eng_bind_error hfs]
    exact h
  | ok a =>
    rw [eng_bind_ok hfs]
    exact hg a t h

theorem keepsMovers_ite {c : Prop} [Decidable c] {f g : Eng α} (hf : KeepsMovers f) (hg : KeepsMovers g) : KeepsMovers (if c then f else g) := by
  split
  · exact hf
  · exact hg

theorem keepsMovers_adapt {f : Eng α} (hf : KeepsMovers f) (g : Nat → Nat) : KeepsMovers (ExceptT.adapt g f) := by
  intro s hs
  have h := hf s hs
  show MoversWf ((ExceptT.adapt g f : StateM State _) s).2
  simp only [ExceptT.adapt, ExceptT.mk, Functor.map, StateT.map]
  exact h

theorem keepsMovers_each {l : List α} {f : α → Eng Unit} (hf : ∀ a, KeepsMovers (f a)) : KeepsMovers (Eng.each l f) := by
  induction l with
  | nil => exact keepsMovers_pure ()
  | cons a r ih => exact keepsMovers_bind (hf a) fun _ => ih

theorem keepsMovers_forM {l : List α} {f : α → Eng β} (hf : ∀ a, KeepsMovers (f a)) : KeepsMovers (Eng.forM l f) := by
  induction l with
  | nil => exact keepsMovers_pure []
  | cons a r ih => exact keepsMovers_bind (hf a) fun b => keepsMovers_bind ih fun bs => keepsMovers_pure (b :: bs)

theorem keepsMovers_still {f : Eng α} (h : ∀ s, ∃ r, f s = (r, s)) : KeepsMovers f := by
  intro s hs
  obtain ⟨r, hr⟩ := h s
  rw [hr]
  exact hs

theorem keepsMovers_mover {f : Eng α} (h : ∀ s, ∃ r, f s = (r, s) ∨ ∃ k v, f s = (r, setMov s k v)) : KeepsMovers f := by
  intro s hs
  obtain ⟨r, hr | ⟨k, v, hr⟩⟩ := h s
  · rw [hr]
    exact hs
  · rw [hr]
    exact moversWf_setMov hs k v

/-- An action whose answer and state depend on the end of another keeps the movers where its changes after it do. -/
theorem keepsMovers_after {f : Eng α} {g : Eng β} (hf : KeepsMovers f) (h : ∀ s, MoversWf (f s).2 → MoversWf (g s).2) : KeepsMovers g :=
  fun s hs => h s (hf s hs)

end

/-! ## Accesses of memories -/

theorem keepsMovers_engRead (p a n : Nat) : KeepsMovers (engRead p a n) := keepsMovers_of_engRest (engRest_engRead p a n)

theorem keepsMovers_vtmRead (p o n : Nat) : KeepsMovers (vtmRead p o n) := keepsMovers_of_engRest (engRest_vtmRead p o n)

theorem engRest_engPeek (p va : Nat) (s : State) : engRest (engPeek p va s).2 = engRest s := by
  unfold engPeek
  split
  · split <;> rfl
  · rfl

theorem engRest_meetWriteAll (s : State) (p va : Nat) (bs : List Byte) : engRest (meetWriteAll s p va bs).2 = engRest s := by
  have h := engRest_meetAccess s p va bs.length .w
  unfold meetWriteAll
  dsimp only
  split
  · exact h
  · split
    next u hu => exact (engRest_of_outRest (outRest_vaWriteAll hu)).trans h
    next => exact h

theorem engRest_engWriteAll (p va : Nat) (bs : List Byte) (s : State) : engRest (engWriteAll p va bs s).2 = engRest s := by
  have h := engRest_meetWriteAll s p va bs
  unfold engWriteAll
  split <;> rename_i heq <;> rw [heq] at h
  · exact (engRest_unitWrote _ _ _).trans h
  · exact h

theorem engRest_rowUse (n r lo cnt : Nat) (s : State) : engRest (rowUse n r lo cnt s).2 = engRest s := by
  unfold rowUse
  extract_lets hit t1 s1 t2 s2
  have h1 : engRest s1 = engRest s := by
    unfold s1
    split
    · rw [engRest_raiseErr]
      exact (engRest_bump _ _ _).trans (engRest_injUsed _ _ _ _)
    · rfl
  have h2 : engRest s2 = engRest s := by
    refine Eq.trans ?_ h1
    unfold s2
    split <;> rfl
  split
  · rw [engRest_raiseIrq, engRest_raiseErr]
    exact (engRest_bump _ _ _).trans h2
  · exact h2

theorem keepsMovers_rowUse (n r lo cnt : Nat) : KeepsMovers (rowUse n r lo cnt) := keepsMovers_of_engRest (engRest_rowUse n r lo cnt)

theorem keepsMovers_rowRead (c r : Nat) (lane : Bool) : KeepsMovers (rowRead c r lane) := by
  refine keepsMovers_after (keepsMovers_rowUse c r 0 (if lane then 68 else 64)) fun s h => ?_
  unfold rowRead
  split <;> rename_i heq <;> rw [heq] at h <;> exact h

theorem keepsMovers_spWide (c o n : Nat) : KeepsMovers (spWide c o n) := by
  refine keepsMovers_after (f := Eng.forM (rowPieces o n) (fun x => rowUse c x.1 0 64)) (keepsMovers_forM fun x => keepsMovers_rowUse _ _ _ _) fun s h => ?_
  unfold spWide
  split <;> rename_i heq <;> rw [heq] at h <;> exact h

theorem engRest_loseResv (s : State) (u lo hi : Nat) : engRest (loseResv s u lo hi) = engRest s := by
  unfold loseResv
  dsimp only
  split <;> rfl

theorem keepsMovers_rowStore (c r b : Nat) (cov : List Nat) (bs : List Byte) : KeepsMovers (rowStore c r b cov bs) := by
  refine keepsMovers_after (f := Eng.each ((partWords b bs.length).filter (fun w => !cov.contains w)) (fun w => rowUse c r w 1))
    (keepsMovers_each fun w => keepsMovers_rowUse _ _ _ _) fun s h => ?_
  unfold rowStore
  split <;> rename_i heq <;> rw [heq] at h
  · exact h
  · exact moversWf_of_engRest ((engRest_unitWrote _ _ _).trans (engRest_loseResv _ _ _ _)) h

theorem keepsMovers_spPut (c o : Nat) (cov : List Nat) (bs : List Byte) : KeepsMovers (spPut c o cov bs) := keepsMovers_each fun _ => keepsMovers_rowStore _ _ _ _ _

theorem keepsMovers_rowWrite (c r : Nat) (d l : List Byte) : KeepsMovers (rowWrite c r d l) :=
  keepsMovers_of_engRest fun _ => (engRest_unitWrote _ _ _).trans (engRest_loseResv _ _ _ _)

theorem keepsMovers_vtmStore (p a : Nat) (cov : List Nat) (bs : List Byte) : KeepsMovers (vtmStore p a cov bs) := by
  refine keepsMovers_after (f := Eng.each ((partWords a bs.length).filter (fun w => !cov.contains w)) (fun w => vtmUse p (8 * w) 8))
    (keepsMovers_each fun w => keepsMovers_of_engRest (engRest_vtmUse _ _ _)) fun s h => ?_
  unfold vtmStore
  split <;> rename_i heq <;> rw [heq] at h
  · exact h
  · exact moversWf_of_engRest (engRest_unitWrote _ _ _) h

theorem keepsMovers_vtmWrite (p o : Nat) (cov : List Nat) (bs : List Byte) : KeepsMovers (vtmWrite p o cov bs) := by
  refine keepsMovers_after (f := regionAt p o bs.length) (keepsMovers_of_engRest (engRest_regionAt p o bs.length)) fun s h => ?_
  unfold vtmWrite
  split <;> rename_i heq <;> rw [heq] at h
  · exact h
  · exact keepsMovers_vtmStore _ _ _ _ _ h

theorem keepsMovers_ownRow (x : MovCtx) (r : Nat) : KeepsMovers (ownRow x r) := by
  refine keepsMovers_of_engRest fun s => ?_
  unfold ownRow
  split
  · rfl
  · split
    · rfl
    · exact engRest_bump _ _ _

theorem engRest_winCheck (c w r k : Nat) (q : Req) (rd : Bool) (s : State) : engRest (winCheck c w r k q rd s).2 = engRest s := by
  unfold winCheck
  split
  · rfl
  · rw [winReject, engRest_raiseIrq, engRest_raiseErr, engRest_bump]

theorem keepsMovers_winRow (x : MovCtx) (d : Desc) (o : Nat) (rd : Bool) : KeepsMovers (winRow x d o rd) := by
  refine keepsMovers_of_engRest fun s => ?_
  unfold winRow
  split
  · rfl
  next c _ =>
    have h := engRest_winCheck c (fld d.base 26 3) (swizzle d.swz (winBase s c (fld d.base 26 3) + o / 512)) 1 x.req rd s
    dsimp only
    split <;> rename_i heq <;> rw [heq] at h <;> exact h

theorem moversWf_of_wireRest {s t : State} (h : wireRest t = wireRest s) (hs : MoversWf s) : MoversWf t := by
  rw [MoversWf, wireRest_keeps h State.movers]
  exact hs

theorem keepsMovers_remCheck (p a : Nat) : KeepsMovers (remCheck p a) := fun s => moversWf_of_wireRest (wireRest_remCheck p a s)

/-! ## Elements (R408 to R418) -/

theorem keepsMovers_elemBytes (x : MovCtx) (d : Desc) (a : Nat) : KeepsMovers (elemBytes x d a) := by
  unfold elemBytes
  extract_lets o n nib row
  have hrow (c r : Nat) : KeepsMovers (row c r) :=
    keepsMovers_ite (keepsMovers_bind (keepsMovers_rowRead _ _ _) fun _ => keepsMovers_pure _) (keepsMovers_bind (keepsMovers_spWide _ _ _) fun _ => keepsMovers_pure _)
  split
  · exact keepsMovers_bind (keepsMovers_engRead _ _ _) fun _ => keepsMovers_pure _
  · exact keepsMovers_bind (keepsMovers_ownRow _ _) fun _ => hrow _ _
  · exact keepsMovers_bind (keepsMovers_adapt (keepsMovers_vtmRead _ _ _) _) fun _ => keepsMovers_pure _
  · exact keepsMovers_bind (keepsMovers_winRow _ _ _ _) fun _ => keepsMovers_adapt (hrow _ _) _
  · refine keepsMovers_still fun s => ?_
    cases remBytes s x.key (remAddr d o) n with
    | none => exact ⟨_, rfl⟩
    | some b => exact ⟨_, rfl⟩

theorem keepsMovers_elemStore (x : MovCtx) (d : Desc) (a : Nat) (cov : Bool) (b : List Byte) : KeepsMovers (elemStore x d a cov b) := by
  unfold elemStore
  extract_lets o val words row store
  have hval (f : State → List Byte) : KeepsMovers (val f) := keepsMovers_get _
  have hrow (c r : Nat) : KeepsMovers (row c r) :=
    keepsMovers_ite (keepsMovers_rowWrite _ _ _ _) (keepsMovers_bind (hval _) fun _ => keepsMovers_spPut _ _ _ _)
  have hstore (v : List Byte) : KeepsMovers (store v) :=
    keepsMovers_bind (keepsMovers_of_engRest (engRest_engWriteAll _ _ _)) fun _ => keepsMovers_pure _
  split
  · refine keepsMovers_ite (c := (d.fmt == 2) = true) (keepsMovers_bind ?_ hstore) (keepsMovers_bind (keepsMovers_pure b) hstore)
    exact keepsMovers_bind (keepsMovers_of_engRest (engRest_engPeek _ _)) fun _ => keepsMovers_pure _
  · exact keepsMovers_bind (keepsMovers_ownRow _ _) fun _ => keepsMovers_bind (hrow _ _) fun _ => keepsMovers_pure _
  · exact keepsMovers_bind (hval _) fun _ => keepsMovers_bind (keepsMovers_adapt (keepsMovers_vtmWrite _ _ _ _) _) fun _ => keepsMovers_pure _
  · exact keepsMovers_bind (keepsMovers_winRow _ _ _ _) fun _ => keepsMovers_bind (keepsMovers_adapt (hrow _ _) _) fun _ => keepsMovers_pure _
  · refine keepsMovers_bind (keepsMovers_remCheck _ _) fun _ => ?_
    refine keepsMovers_ite (keepsMovers_mover fun s => ?_) (keepsMovers_pure _)
    cases remBytes s x.key (remAddr d o) 1 with
    | none => exact ⟨_, .inl rfl⟩
    | some b => exact ⟨_, .inr ⟨_, _, rfl⟩⟩

theorem keepsMovers_readElem (x : MovCtx) (d : Desc) (n : Nat) : KeepsMovers (readElem x d n) := keepsMovers_ite (keepsMovers_pure _) (keepsMovers_elemBytes _ _ _)

theorem moversWf_signWrite {s : State} (hs : MoversWf s) (u : Nat) (r : TRef) (a : Nat) (b : List Byte) : MoversWf (signWrite u r a b s) := hs

theorem keepsMovers_signedStore (x : MovCtx) (d : Desc) (a : Nat) (cov : Bool) (b : List Byte) : KeepsMovers (signedStore x d a cov b) := by
  intro s hs
  have h := keepsMovers_elemStore x d a cov b s hs
  unfold signedStore
  split
  · exact h
  · split
    · exact h
    · split <;> rename_i heq <;> rw [heq] at h
      · exact h
      · dsimp only
        split
        · exact moversWf_signWrite hs _ _ _ _
        · exact moversWf_signWrite h _ _ _ _

theorem keepsMovers_writeElem (x : MovCtx) (d : Desc) (n : Nat) (b : List Byte) : KeepsMovers (writeElem x d n b) := by
  refine keepsMovers_ite (keepsMovers_pure _) (keepsMovers_bind (keepsMovers_signedStore _ _ _ _ _) fun o => ?_)
  have hcount : KeepsMovers (Eng.modify (fun s => match logicalCore s x.part (fld d.base 29 3) with
      | some c => if (x.sign.map (·.2.copy)) = some 1 then s else bump s (spc c + 0x818) 1
      | none => s)) := by
    refine keepsMovers_modify fun s hs => ?_
    split
    · split
      · exact hs
      · exact moversWf_of_engRest (engRest_bump _ _ _) hs
    · exact hs
  exact keepsMovers_ite (c := d.space = 3 ∧ rowBegins d n = true) (keepsMovers_bind hcount fun _ => keepsMovers_pure o) (keepsMovers_pure o)

theorem keepsMovers_injAddr (k : Nat) : KeepsMovers (injAddr k) := by
  refine keepsMovers_of_engRest fun s => ?_
  simp only [injAddr]
  split
  · exact engRest_injUsed _ _ _ _
  · rfl

theorem keepsMovers_injBuf (k : Nat) : KeepsMovers (injBuf k) := by
  refine keepsMovers_of_engRest fun s => ?_
  unfold injBuf
  split
  extract_lets t s1
  have ht : engRest t = engRest s := (engRest_raiseErr _ _ _ _ _).trans (engRest_injUsed _ _ _ _)
  have h1 : engRest s1 = engRest s := by
    unfold s1
    split
    · split
      · exact (engRest_bump _ _ _).trans ht
      · exact ht
    · rfl
  split
  · exact (engRest_injUsed _ _ _ _).trans h1
  · exact h1

theorem keepsMovers_movRead (x : MovCtx) (d : Desc) (n : Nat) : KeepsMovers (movRead x d n) :=
  keepsMovers_ite (keepsMovers_readElem _ _ _) (keepsMovers_bind (keepsMovers_injAddr _) fun _ => keepsMovers_readElem _ _ _)

theorem keepsMovers_movWrite (x : MovCtx) (d : Desc) (n : Nat) (b : List Byte) : KeepsMovers (movWrite x d n b) :=
  keepsMovers_ite (keepsMovers_writeElem _ _ _ _)
    (keepsMovers_bind (keepsMovers_injAddr _) fun _ => keepsMovers_bind (keepsMovers_injBuf _) fun _ => keepsMovers_writeElem _ _ _ _)

end Sys2Proof.Machine
end

section
/-! The table of movers stays one as pairs move and commands complete (R415, R429, R430, R448). -/

namespace Sys2Proof.Machine
open Sys2Proof

/-! ## Elements of a pair -/

theorem moversWf_after {α : Type} {f : Eng α} (hf : KeepsMovers f) {s t : State} {r : Except Nat α} (h : f s = (r, t)) (hs : MoversWf s) : MoversWf t := by
  have ht := hf s hs
  rwa [h] at ht

theorem moversWf_runElems (x : MovCtx) (c : MovCmd) (rd wd : Desc) (k n : Nat) (acc : Moved) {s : State} (hs : MoversWf s) :
    MoversWf (runElems x c rd wd k n acc s).2.2.2 := by
  induction k generalizing n acc s with
  | zero => exact hs
  | succ k ih =>
    unfold runElems
    split
    next ht => exact moversWf_after (keepsMovers_movRead _ _ _) ht hs
    next ht =>
      have h := moversWf_after (keepsMovers_movRead _ _ _) ht hs
      dsimp only
      split
      next hu => exact moversWf_after (keepsMovers_movWrite _ _ _ _) hu h
      next hu => exact ih _ _ (moversWf_after (keepsMovers_movWrite _ _ _ _) hu h)

theorem moversWf_readAll (x : MovCtx) (rd : Desc) (k n : Nat) (acc : List Nat) {s : State} (hs : MoversWf s) : MoversWf (readAll x rd k n acc s).2 := by
  induction k generalizing n acc s with
  | zero => exact hs
  | succ k ih =>
    unfold readAll
    split
    next ht => exact moversWf_after (keepsMovers_movRead _ _ _) ht hs
    next ht => exact ih _ _ (moversWf_after (keepsMovers_movRead _ _ _) ht hs)

theorem moversWf_writeAll (x : MovCtx) (wd : Desc) (n : Nat) (l : List Nat) (acc : Moved) {s : State} (hs : MoversWf s) :
    MoversWf (writeAll x wd n l acc s).2.2.2 := by
  induction l generalizing n acc s with
  | nil => exact hs
  | cons v r ih =>
    unfold writeAll
    split
    next ht => exact moversWf_after (keepsMovers_movWrite _ _ _ _) ht hs
    next ht => exact ih _ _ (moversWf_after (keepsMovers_movWrite _ _ _ _) ht hs)

theorem moversWf_runPair (x : MovCtx) (c : MovCmd) (rd wd : Desc) (buf : Option (List Nat)) (k n : Nat) {s : State} (hs : MoversWf s) :
    MoversWf (runPair x c rd wd buf k n s).2 := by
  unfold runPair
  split
  · exact moversWf_runElems x c rd wd _ n {} hs
  · dsimp only
    split
    · exact moversWf_writeAll x wd n _ _ hs
    · have h := moversWf_readAll x rd rd.elems 0 [] hs
      split
      next ht =>
        rw [ht] at h
        exact h
      next ht =>
        rw [ht] at h
        exact moversWf_writeAll x wd n _ _ h

/-! ## What moved is counted and sent -/

theorem moversWf_remWrites (k p n a : Nat) (bs : List Byte) {s : State} (hs : MoversWf s) : MoversWf (remWrites k p n a bs s) := by
  induction n generalizing a bs s with
  | zero => exact hs
  | succ n ih =>
    unfold remWrites
    split
    · exact hs
    · exact ih _ _ (moversWf_setMov (moversWf_of_wireRest (wireRest_sendConn _ _ _ _ _ _ _ _) hs) _ _)

theorem moversWf_bump64 {s : State} (hs : MoversWf s) (a n : Nat) : MoversWf (bump64 s a n) := by
  rw [MoversWf, movers_bump64]
  exact hs

theorem moversWf_account (m : Mover) (p : Nat) (a : Moved) {s : State} (hs : MoversWf s) : MoversWf (account s m p a) := by
  unfold account
  refine forAll_induct (P := MoversWf) ?_ fun w _ t ht => moversWf_remWrites _ _ _ _ _ ht
  cases m with
  | ch c => exact moversWf_bump64 (moversWf_bump64 hs _ _) _ _
  | nc u j => exact moversWf_bump64 (moversWf_bump64 (moversWf_bump64 hs _ _) _ _) _ _
  | vs u j => exact moversWf_bump64 (moversWf_bump64 (moversWf_bump64 hs _ _) _ _) _ _

theorem moversWf_scramble (x : Span) {s : State} (hs : MoversWf s) : MoversWf (scramble x s) := by
  unfold scramble
  dsimp only
  split <;> exact hs

theorem moversWf_noteMoved (k : Nat) (g : Seg) {s : State} (hs : MoversWf s) : MoversWf (noteMoved k g s) := by
  unfold noteMoved
  split
  · exact hs
  · dsimp only
    split
    · exact hs
    · exact forAll_induct (P := MoversWf) hs fun x _ t ht => moversWf_scramble x ht

theorem moversWf_runMov (m : Mover) (c : MovCmd) (upTo n : Nat) (bits : Option Nat) {s : State} (hs : MoversWf s) :
    MoversWf (runMov m c upTo n bits s) := by
  induction n generalizing bits s with
  | zero => exact hs
  | succ n ih =>
    unfold runMov
    extract_lets k v x
    split
    · exact hs
    next rd wd _ =>
      extract_lets cap kept
      have h := moversWf_runPair x c rd wd v.buf cap v.elem hs
      split
      next y t ht =>
        rw [ht] at h
        extract_lets t1 t2 u moved whole t3
        have h1 : MoversWf t1 := moversWf_account m c.part y.moved h
        have h2 : MoversWf t2 := by
          unfold t2
          split
          · exact h1
          · exact moversWf_noteMoved _ _ h1
        have h3 : MoversWf t3 := moversWf_setMov h2 _ _
        split
        · exact moversWf_setMov h2 _ _
        · cases bits with
          | none => exact ih _ h3
          | some b =>
            dsimp only
            split
            · exact ih _ h3
            · exact h3

theorem moversWf_runTo (m : Mover) (c : MovCmd) (upTo : Nat) {s : State} (hs : MoversWf s) : MoversWf (runTo m c upTo s) := moversWf_runMov m c upTo _ none hs

end Sys2Proof.Machine
end

section
/-! Streams and channels arm, fetch their lists, move and complete (R420 to R450). -/

namespace Sys2Proof.Machine
open Sys2Proof

/-! ## The head of a stream queue is armed or refused (R424, R426, R432, R434) -/

/-- The command of a stream queue as it is armed for its task. -/
def armedFor (q : MovCmd) (u : Nat) (c : SCmd) (x : Ctx) : MovCmd :=
  { q with
    part := x.part, bufR := x.bufR, bufW := x.bufW, task := some c.task, opId := c.ids % 2 ^ 24, flow := x.flow, ticket := c.ticket
    core := u, spBase := x.spBase, spRows := x.spRows, dual := x.dual, stream := c.stream
    layer := fld c.ids 24 16, phase := fld c.ids 40 8 }

/-- May a mover not read a list from a scratchpad: it is no stream of a core. -/
def outsideCore : Mover → Bool
  | .nc _ _ => false
  | _ => true

section
variable {s : State} {m : Mover} {u : Nat} {c : SCmd} {r : List SCmd} {x : Ctx}
  (hf : (List.range 8).find? (fun n => match (coreAt s n).sq with | c :: _ => streamMover n c.stream == m | [] => false) = some u)
  (hq : (coreAt s u).sq = c :: r) (hx : taskCtx s u c.task = some x)
include hf hq hx

theorem streamArmAct_head : streamArmAct s m =
    if x.kill.isSome then pruneTask s u c.task
    else if !movPresent s m || movOwner s m != some x.part then streamRefuse (dropSq s u) m u c 0x13
    else if armFull s (movKey m) then streamRefuse (dropSq s u) m u c 0x10
    else match readMove c.cmd false with
      | none => streamRefuse (dropSq s u) m u c 0x11
      | some q => if q.listSp && outsideCore m then streamRefuse (dropSq s u) m u c 0x11
        else armCmd (dropSq s u) m (armedFor q u c x) := by
  unfold streamArmAct
  generalize hw : List.find? _ (List.range 8) = w
  obtain rfl : w = some u := hw.symm.trans hf
  simp only [hq, hx]
  rfl

theorem streamArmAct_killed (hk : x.kill ≠ none) : streamArmAct s m = pruneTask s u c.task :=
  (streamArmAct_head hf hq hx).trans (if_pos (Option.isSome_iff_ne_none.2 hk))

variable (hk : x.kill = none)
include hk

theorem streamArmAct_alive : streamArmAct s m =
    if !movPresent s m || movOwner s m != some x.part then streamRefuse (dropSq s u) m u c 0x13
    else if armFull s (movKey m) then streamRefuse (dropSq s u) m u c 0x10
    else match readMove c.cmd false with
      | none => streamRefuse (dropSq s u) m u c 0x11
      | some q => if q.listSp && outsideCore m then streamRefuse (dropSq s u) m u c 0x11
        else armCmd (dropSq s u) m (armedFor q u c x) :=
  (streamArmAct_head hf hq hx).trans (if_neg (by rw [hk]; decide))

theorem streamArmAct_foreign (ho : movOwner s m ≠ some x.part) : streamArmAct s m = streamRefuse (dropSq s u) m u c 0x13 :=
  (streamArmAct_alive hf hq hx hk).trans (if_pos (by rw [bne_iff_ne.2 ho, Bool.or_true]))

variable (hp : movPresent s m = true) (ho : movOwner s m = some x.part)
include hp ho

theorem streamArmAct_owned : streamArmAct s m =
    if armFull s (movKey m) then streamRefuse (dropSq s u) m u c 0x10
    else match readMove c.cmd false with
      | none => streamRefuse (dropSq s u) m u c 0x11
      | some q => if q.listSp && outsideCore m then streamRefuse (dropSq s u) m u c 0x11
        else armCmd (dropSq s u) m (armedFor q u c x) := by
  have hthere : ¬ (!movPresent s m || movOwner s m != some x.part) = true := by
    rw [hp, ho, bne_self_eq_false]
    decide
  exact (streamArmAct_alive hf hq hx hk).trans (if_neg hthere)

theorem streamArmAct_full (ha : armFull s (movKey m) = true) : streamArmAct s m = streamRefuse (dropSq s u) m u c 0x10 :=
  (streamArmAct_owned hf hq hx hk hp ho).trans (if_pos ha)

variable (ha : armFull s (movKey m) = false)
include ha

theorem streamArmAct_unread (hr : readMove c.cmd false = none) : streamArmAct s m = streamRefuse (dropSq s u) m u c 0x11 := by
  rw [streamArmAct_owned hf hq hx hk hp ho, ha, if_neg Bool.false_ne_true, hr]

theorem streamArmAct_armed {q : MovCmd} (hr : readMove c.cmd false = some q) (hl : q.listSp = false) :
    streamArmAct s m = armCmd (dropSq s u) m (armedFor q u c x) := by
  rw [streamArmAct_owned hf hq hx hk hp ho, ha, if_neg Bool.false_ne_true, hr]
  dsimp only
  rw [hl, Bool.false_and, if_neg Bool.false_ne_true]

end

theorem armCmd_empty {s : State} {m : Mover} (h : (movAt s (movKey m)).active = none) (d : MovCmd) :
    armCmd s m d = nextCmd s m (some { d with armedAt := s.time.toNat }) := by
  simp only [armCmd, h, Option.isNone_none, if_true]

theorem nextCmd_some_keeps {β : Type} (k : State → β) (hm : ∀ t i v, k (setMov t i v) = k t) (hf : ∀ (t : State) f, k { t with flights := f } = k t)
    (s : State) (m : Mover) (c : MovCmd) : k (nextCmd s m (some c)) = k s := by
  rw [nextCmd_some, grantSlots_keeps k hm]
  exact (hf _ _).trans ((hm _ _ _).trans (hf _ _))

/-- The command of a queue armed on an empty mover is active there, and gone from the queue. -/
theorem armCmd_dropSq {s : State} {m : Mover} {u : Nat} {c : SCmd} {r : List SCmd} (hm : MoversWf s) (hc : twf (fun _ => ({} : Core)) s.cores = true)
    (hq : (coreAt s u).sq = c :: r) (ha : (movAt s (movKey m)).active = none) (d : MovCmd) :
    (movAt (armCmd (dropSq s u) m d) (movKey m)).active = some { d with armedAt := s.time.toNat } ∧ (coreAt (armCmd (dropSq s u) m d) u).sq = r ∧
      (armCmd (dropSq s u) m d).hbm = s.hbm := by
  rw [armCmd_empty (s := dropSq s u) ha]
  refine ⟨(movAt_nextCmd (s := dropSq s u) hm m _).1, ?_, nextCmd_some_keeps State.hbm (fun _ _ _ => rfl) (fun _ _ => rfl) _ _ _⟩
  have hcores := nextCmd_some_keeps State.cores (fun _ _ _ => rfl) (fun _ _ => rfl) (dropSq s u) m { d with armedAt := s.time.toNat }
  have hdrop : coreAt (dropSq s u) u = { coreAt s u with sq := (coreAt s u).sq.drop 1 } := coreAt_setCore_same hc _ _
  refine (congrArg Core.sq (coreAt_congr hcores u)).trans ?_
  rw [hdrop]
  show (coreAt s u).sq.drop 1 = r
  rw [hq, List.drop_one, List.tail_cons]

/-! ## A batch of the list is fetched (R420, R427) -/

/-- A request for remote data changes nothing of a mover but what is asked for, where that tells the mover from an idle one. -/
theorem askRemote_mov {β : Type} (p : Mov → β) (hp : ∀ v a, p { v with asks := a } = p v) {p0 : β} (hne : ∀ v, p v = p0 → v ≠ {}) {k : Nat} (c : MovCmd) (i e : Nat)
    (l : List (Desc × Desc)) {s : State} (h : p (movAt s k) = p0) : p (movAt (askRemote k c i e l s).2 k) = p0 := by
  induction l generalizing i e s with
  | nil => exact h
  | cons d r ih =>
    unfold askRemote
    split
    · exact ih (i + 1) 0 h
    · have hcheck := wireRest_remCheck c.part (if d.1.space = 4 then d.1.base else d.2.base) s
      split
      next ht =>
        rw [ht] at hcheck
        rw [show movAt _ k = movAt s k from wireRest_keeps hcheck (movAt · k)]
        exact h
      next t ht =>
        rw [ht] at hcheck
        have hk : movAt t k = movAt s k := wireRest_keeps hcheck (movAt · k)
        refine ih (i + 1) 0 (forAll_induct (P := fun x => p (movAt x k) = p0) (by rw [hk]; exact h) fun u _ x hx => ?_)
        have hsent := wireRest_keeps (wireRest_sendConn x (remPeer (u * 64)) 2 (c.part + 4 * remPart (u * 64)) (u * 64 % 2 ^ 32 + 1 * 2 ^ 32 + k % 65536 * 2 ^ 48) [] (k + 1) (u * 64))
          (movAt · k)
        have hmov := hx
        rw [← hsent, ← hp _ ((movAt (sendConn x (remPeer (u * 64)) 2 (c.part + 4 * remPart (u * 64)) (u * 64 % 2 ^ 32 + 1 * 2 ^ 32 + k % 65536 * 2 ^ 48) []
          (k + 1) (u * 64)).2 k).asks ++ [(u * 64, 1)])] at hmov
        rw [show movAt (remAsk k c.part (u * 64) 1 x) k = _ from movAt_setMov_of_ne _ _ (hne _ hmov)]
        exact hmov

theorem askedAgain_mov {β : Type} (p : Mov → β) (hp : ∀ v b, p { v with bad := b } = p v) {p0 : β} (hne : ∀ v, p v = p0 → v ≠ {}) {k : Nat}
    {r : Option (Nat × Nat × Nat) × State} (h : p (movAt r.2 k) = p0) : p (movAt (askedAgain k r) k) = p0 := by
  unfold askedAgain
  split
  next x _ =>
    have hbad : p { movAt r.2 k with bad := some x } = p0 := (hp _ _).trans h
    rw [movAt_setMov_of_ne _ _ (hne _ hbad)]
    exact hbad
  · exact h

/-- The state in which the pairs of a batch are armed: counted, and kept in the mover. -/
def batchArmed (t : State) (m : Mover) (c : MovCmd) (v : Mov) (n : Nat) (b : List Byte) : State :=
  let t0 := match m with
    | .ch _ => bump64 t (movPg m + 0x800) (128 * n)
    | _ => if c.listSp then t else bump64 t (movPg m + 0x800) (128 * n)
  setMov t0 (movKey m) { movAt t0 (movKey m) with
    descs := v.descs ++ (armAll t m c v.descs.length (groups 128 8 b)).1, bad := (armAll t m c v.descs.length (groups 128 8 b)).2, got := v.descs.length + n }

section
variable {s : State} {m : Mover} {c : MovCmd} (hc : runCmd s m = some c) 
include hc

theorem fetchBatch_copy (hcopy : c.copy ≠ none) (hp : (movAt s (movKey m)).descs.length ≤ 1) : fetchBatch s m = s := by
  have hfirst : ¬ ((movAt s (movKey m)).pair < ((movAt s (movKey m)).descs.length - 1) / 8 * 8 ∧ (movAt s (movKey m)).bad.isNone = true) := by omega
  have hgo : ((movAt s (movKey m)).halted || (movAt s (movKey m)).err.isSome || (movAt s (movKey m)).bad.isSome || c.copy.isSome ||
      decide (c.pairs ≤ (movAt s (movKey m)).descs.length) ||
      decide ((movAt s (movKey m)).pair < ((movAt s (movKey m)).descs.length - 1) / 8 * 8)) = true := by
    simp [Option.isSome_iff_ne_none.2 hcopy]
  simp only [fetchBatch, if_neg hfirst, hc, hgo, if_true]

theorem fetchAll_copy (hcopy : c.copy ≠ none) (hp : (movAt s (movKey m)).descs.length ≤ 1) (n : Nat) : fetchAll m n s = s := by
  induction n with
  | zero => rfl
  | succ n ih => rw [fetchAll, fetchBatch_copy hc hcopy hp, ih]

variable {v : Mov} (hv : v = movAt s (movKey m)) (hh : v.halted = false) (he : v.err = none) (hb : v.bad = none) (hcopy : c.copy = none)
  (hlen : v.descs.length < c.pairs) (hpair : (v.descs.length - 1) / 8 * 8 ≤ v.pair)
include hv hh he hb hcopy hlen hpair

/-- A mover whose next batch may come reads it. -/
theorem fetchBatch_reads : fetchBatch s m =
    match listRead (movCtx m c) c v.descs.length (min 8 (c.pairs - v.descs.length)) s with
    | (.error f, t) => setMov t (movKey m) { movAt t (movKey m) with bad := some (v.descs.length, f, 0xFFFFFFFF) }
    | (.ok b, t) => askedAgain (movKey m) (askRemote (movKey m) c v.descs.length 0 (armAll t m c v.descs.length (groups 128 8 b)).1
        (batchArmed t m c v (min 8 (c.pairs - v.descs.length)) b)) := by
  have hfirst : ¬ (v.pair < (v.descs.length - 1) / 8 * 8 ∧ v.bad.isNone = true) := fun h => absurd h.1 (Nat.not_lt.2 hpair)
  have hgo : (v.halted || v.err.isSome || v.bad.isSome || c.copy.isSome || decide (c.pairs ≤ v.descs.length) ||
      decide (v.pair < (v.descs.length - 1) / 8 * 8)) = false := by
    rw [hh, he, hb, hcopy, decide_eq_false (Nat.not_le.2 hlen), decide_eq_false (Nat.not_lt.2 hpair)]
    rfl
  subst hv
  simp only [fetchBatch, if_neg hfirst, hc, hgo, Bool.false_eq_true, if_false]
  rfl

theorem fetchBatch_error {f : Nat} (hr : (listRead (movCtx m c) c v.descs.length (min 8 (c.pairs - v.descs.length)) s).1 = .error f) :
    fetchBatch s m = setMov (listRead (movCtx m c) c v.descs.length (min 8 (c.pairs - v.descs.length)) s).2 (movKey m)
      { movAt (listRead (movCtx m c) c v.descs.length (min 8 (c.pairs - v.descs.length)) s).2 (movKey m) with bad := some (v.descs.length, f, 0xFFFFFFFF) } := by
  rw [fetchBatch_reads hc hv hh he hb hcopy hlen hpair]
  generalize listRead (movCtx m c) c v.descs.length (min 8 (c.pairs - v.descs.length)) s = w at hr
  obtain ⟨w, t⟩ := w
  cases hr
  rfl

theorem fetchBatch_ok {l : List Byte} (hr : (listRead (movCtx m c) c v.descs.length (min 8 (c.pairs - v.descs.length)) s).1 = .ok l) :
    (movAt (fetchBatch s m) (movKey m)).descs =
      v.descs ++ (armAll (listRead (movCtx m c) c v.descs.length (min 8 (c.pairs - v.descs.length)) s).2 m c v.descs.length (groups 128 8 l)).1 := by
  rw [fetchBatch_reads hc hv hh he hb hcopy hlen hpair]
  generalize listRead (movCtx m c) c v.descs.length (min 8 (c.pairs - v.descs.length)) s = w at hr
  obtain ⟨w, t⟩ := w
  cases hr
  dsimp only
  generalize hn : min 8 (c.pairs - v.descs.length) = n
  have hgot : v.descs.length + n ≠ 0 := by omega
  have hne : ∀ x : Mov, (x.descs, x.got) = (v.descs ++ (armAll t m c v.descs.length (groups 128 8 l)).1, v.descs.length + n) → x ≠ {} := by
    rintro x hx rfl
    exact hgot (Prod.mk.inj hx).2.symm
  have harmed : (fun x : Mov => (x.descs, x.got)) (movAt (batchArmed t m c v n l) (movKey m)) =
      (v.descs ++ (armAll t m c v.descs.length (groups 128 8 l)).1, v.descs.length + n) := by
    unfold batchArmed
    dsimp -zeta only
    extract_lets t0
    rw [movAt_setMov_of_ne _ _ (hne _ rfl)]
  have hasked := askRemote_mov (fun x : Mov => (x.descs, x.got)) (fun _ _ => rfl) hne c v.descs.length 0 (armAll t m c v.descs.length (groups 128 8 l)).1 harmed
  exact (Prod.mk.inj (askedAgain_mov (fun x : Mov => (x.descs, x.got)) (fun _ _ => rfl) hne hasked)).1

end

end Sys2Proof.Machine
end

section
/-! A command completes, and a channel takes its task (R426, R430, R444, R450). -/

namespace Sys2Proof.Machine
open Sys2Proof

/-! ## Completion (R430, R433) -/

theorem completeCmd_idle {s : State} {m : Mover} (h : movable s m = none) : completeCmd s m = s := by simp only [completeCmd, h]

theorem completeCmd_moves {s : State} {m : Mover} {c : MovCmd} {v : Mov} (hc : movable s m = some c) (hv : v = movAt s (movKey m)) (hb : v.bad = none)
    (hlen : (if c.copy.isSome then 1 else c.pairs) ≤ v.descs.length) (hp : pacedCh s m = false ∨ v.descs.length ≤ v.pair) :
    completeCmd s m =
      if (movAt (runTo m c v.descs.length s) (movKey m)).err.isNone && (movAt (runTo m c v.descs.length s) (movKey m)).remW.isEmpty
      then finishCmd (runTo m c v.descs.length s) m c else runTo m c v.descs.length s := by
  have hgo : (v.bad.isSome || decide (v.descs.length < (if c.copy.isSome then 1 else c.pairs)) || (pacedCh s m && decide (v.pair < v.descs.length))) = false := by
    rw [hb, decide_eq_false (Nat.not_lt.2 hlen)]
    rcases hp with hp | hp
    · rw [hp]
      rfl
    · rw [decide_eq_false (Nat.not_lt.2 hp), Bool.and_false]
      rfl
  subst hv
  simp only [completeCmd, hc, hgo, Bool.false_eq_true, if_false]

theorem movAt_finishCmd {s : State} (hs : MoversWf s) (m : Mover) (c : MovCmd) :
    (movAt (finishCmd s m c) (movKey m)).active = (movAt s (movKey m)).shadow ∧ (movAt (finishCmd s m c) (movKey m)).shadow = none := by
  have hnext := movAt_nextCmd hs m (movAt s (movKey m)).shadow
  suffices h : (finishCmd s m c).movers = (nextCmd s m (movAt s (movKey m)).shadow).movers by
    rw [movAt_congr h]
    exact hnext
  have hemit (t : State) (r : Trace) : (emit t r).movers = t.movers := outRest_keeps (outRest_emit t r) State.movers
  cases m with
  | ch ch =>
    unfold finishCmd
    dsimp only
    split
    · exact logRest_keeps (logRest_pushFinal _ _ _ _) State.movers
    · rfl
  | nc u j =>
    unfold finishCmd
    dsimp only
    split
    · exact hemit _ _
    · rfl
  | vs u j =>
    unfold finishCmd
    dsimp only
    split
    · exact hemit _ _
    · rfl

/-! ## A channel's task (R426, R444) -/

section
variable {s : State} {ch : Nat} (hsh : (movAt s (256 + ch)).shadow = none)
include hsh

theorem armUnit_idle (hr : (unitAt s .dma ch).run = none) : armUnit s ch = s := by simp only [armUnit, hsh, hr, Bool.false_eq_true, if_false]

variable {r : TRef} (hr : (unitAt s .dma ch).run = some r) (hd : (unitAt s .dma ch).done = none) (hp : (unitAt s .dma ch).pre = none)
  (ha : (movAt s (256 + ch)).active = none) (hcut : (movAt s (256 + ch)).cut = none)
include hr hd hp ha hcut

omit hr hd hp hcut in
theorem chHolds_empty : chHolds s ch r = false := by simp only [chHolds, ha, hsh, List.any_cons, List.any_nil, Bool.or_false]

omit hr hd hp ha hcut in
theorem armFull_empty : armFull s (256 + ch) = false := by rw [armFull, hsh, Option.isSome_none]

theorem armUnit_ok {d : MovCmd} (h : chCommand s ch r = .ok d) : armUnit s ch = nextCmd s (.ch ch) (some { d with armedAt := s.time.toNat }) := by
  rw [← armCmd_empty (m := .ch ch) ha d]
  simp only [armUnit, hsh, hr, hd, hp, hcut, h, armFull_empty hsh, chHolds_empty hsh ha, Option.isSome_none, Bool.false_eq_true, if_false, Bool.or_false]

theorem armUnit_error {q : Nat} (h : chCommand s ch r = .error q) : armUnit s ch = chRefuse s ch q := by
  simp only [armUnit, hsh, hr, hd, hp, hcut, h, armFull_empty hsh, chHolds_empty hsh ha, Option.isSome_none, Bool.false_eq_true, if_false, Bool.or_false]

end

theorem unitAt_finishRun (s : State) (b : Blk) (n st : Nat) : (unitAt (finishRun s b n st) b n).done = some st := by
  have hne : { unitAt s b n with done := some st } ≠ ({} : UnitSt) := fun h => Option.some_ne_none st (congrArg UnitSt.done h)
  rw [finishRun, unitAt, setUnit]
  dsimp only
  rw [tget_tset_ne _ _ _ hne]

/-- A channel that refuses its task holds no command. -/
theorem active_chRefuse {s : State} {ch : Nat} (ha : (movAt s (256 + ch)).active = none) (q : Nat) : (movAt (chRefuse s ch q) (256 + ch)).active = none := by
  have hfinal : (movAt (setMov s (256 + ch) { movAt s (256 + ch) with final := true, cause := q }) (256 + ch)).active = none := by
    rw [movAt_setMov_of_ne _ _ (mov_ne_of_final rfl)]
    exact ha
  have herr (t : State) (o : Option Nat) (e : Nat) : movAt (raiseErr t .dma 0 e o) (256 + ch) = movAt t (256 + ch) :=
    rest_keeps (irqRest_raiseErr t .dma 0 e o) (movAt · (256 + ch))
  have hfin (t : State) (st : Nat) : movAt (finishRun t .dma ch st) (256 + ch) = movAt t (256 + ch) := rfl
  unfold chRefuse
  dsimp only
  rw [hfin, if_pos (Option.isNone_iff_eq_none.2 ha)]
  split
  · rw [herr]
    exact hfinal
  · exact hfinal

theorem runCmd_idle {s : State} {m : Mover} (h : (movAt s (movKey m)).active = none) : runCmd s m = none := by simp only [runCmd, h]

theorem movable_idle {s : State} {m : Mover} (h : runCmd s m = none) : movable s m = none := by
  simp only [movable, h, ite_self]

theorem runCmd_of_movable {s : State} {m : Mover} {c : MovCmd} (h : movable s m = some c) : runCmd s m = some c := by
  unfold movable at h
  dsimp only at h
  split at h
  · cases h
  · exact h

theorem moveAct_idle {s : State} {ch : Nat} (h : (movAt (armUnit s ch) (256 + ch)).active = none) : moveAct s ch = armUnit s ch := by
  have hrun : runCmd (armUnit s ch) (.ch ch) = none := runCmd_idle h
  simp only [moveAct, hrun, fetchAll, advance, movable_idle hrun]

/-- A copy that may move moves. -/
theorem moveAct_copy {s : State} {ch : Nat} {d : MovCmd} (hr : (unitAt s .dma ch).run = none) (hsh : (movAt s (256 + ch)).shadow = none) (hc : d.copy ≠ none)
    (hlen : (movAt s (256 + ch)).descs.length = 1) (hm : movable s (.ch ch) = some d) (hp : pacedCh s (.ch ch) = false) :
    moveAct s ch = runTo (.ch ch) d 1 s := by
  have hrun := runCmd_of_movable hm
  have hfetch (n : Nat) : fetchAll (.ch ch) n s = s := fetchAll_copy hrun hc (Nat.le_of_eq hlen) n
  simp only [moveAct, armUnit_idle hsh hr, hfetch, advance, hm, hp, Bool.false_eq_true, if_false, hlen]

/-- Settles O42: the cases of `streamArmAct`, `fetchBatch`, `completeCmd` and `moveAct`; the shadow becomes active because the movers stay a table
through everything that moving does. -/
theorem streamsArmFetchAndComplete : Obligations.StreamsArmFetchAndComplete := by
  unfold Obligations.StreamsArmFetchAndComplete
  intro dt s m b v e k hw hp
  have hwf : MoversWf b := tblOf_wf _ _
  have hcores : twf (fun _ => ({} : Core)) b.cores = true := tblOf_wf _ _
  have harm (vs : Bool) (u j : Nat) (hm : m = if vs then Mover.vs u j else .nc u j) :
      exec (.streamArm dt vs u j) s = .next (closing s (streamArmAct e m)) := by
    subst hm
    exact actLive_onMover (fun x => streamArmAct x (if vs then Mover.vs u j else .nc u j)) hw hp rfl
  have hbatch : exec (.descriptorBatch dt m) s = .next (closing s (fetchBatch e m)) := actLive_onMover (fun x => fetchBatch x m) hw hp rfl
  have hdone : exec (.streamCommandComplete dt m) s = .next (closing s (completeCmd e m)) := actLive_onMover (fun x => completeCmd x m) hw hp rfl
  have hmove (ch : Nat) (hm : m = .ch ch) : exec (.move dt ch) s = .next (closing s (moveAct e ch)) := by
    subst hm
    exact actLive_onMover (fun x => moveAct x ch) hw hp rfl
  have hewf : MoversWf e := hwf
  have he : ∃ a, e = { b with actor := a } := ⟨_, rfl⟩
  clear_value e b
  obtain ⟨a, rfl⟩ := he
  refine ⟨fun vs u j x c r y hm hf hq hx => ?_, ⟨hbatch, fun c hc hh herr hbad hcopy hlen hpair => ?_⟩, fun hidle => ?_, fun c hc hbad hlen hpaced => ?_,
    fun ch hm => ⟨hmove ch hm, fun d hr _ _ hcopy hsh hlen hmv hpaced => ?_, fun r hr hd hpre ha hsh hcut => ⟨fun d h => ?_, fun q h => ?_⟩⟩⟩
  · rw [harm vs u j hm]
    refine ⟨fun hk => ?_, fun hk ho => ?_, fun hk ho hfull => ?_, fun hk ho hfull hr => ?_, fun q hk ho hfull hr hl ha => ?_⟩
    · exact next_closing_congr s (streamArmAct_killed (s := { b with actor := a }) hf hq hx hk)
    · exact next_closing_congr s (streamArmAct_foreign (s := { b with actor := a }) hf hq hx hk ho)
    · exact next_closing_congr s (streamArmAct_full (s := { b with actor := a }) hf hq hx hk hp ho hfull)
    · exact next_closing_congr s (streamArmAct_unread (s := { b with actor := a }) hf hq hx hk hp ho hfull hr)
    · obtain ⟨hact, hsq, hhbm⟩ := armCmd_dropSq (s := { b with actor := a }) (m := m) hewf hcores hq ha (armedFor q x c y)
      exact ⟨_, _, next_closing_congr s (streamArmAct_armed (s := { b with actor := a }) hf hq hx hk hp ho hfull hr hl), hact, rfl, rfl, rfl, rfl, rfl, rfl,
        hsq, hhbm⟩
  · intro i r
    exact ⟨fun f h => fetchBatch_error hc rfl hh herr hbad hcopy hlen hpair h, fun l h => fetchBatch_ok hc rfl hh herr hbad hcopy hlen hpair h⟩
  · rw [hdone, completeCmd_idle hidle]
  · intro t
    have hrow := hdone.trans (next_closing_congr s (completeCmd_moves hc rfl hbad hlen hpaced))
    have htwf : MoversWf t := moversWf_runTo m c _ hewf
    refine ⟨fun herr hrem => ⟨hrow.trans (next_closing_congr s (if_pos ?_)), movAt_finishCmd htwf m c⟩, fun h => hrow.trans (next_closing_congr s (if_neg ?_))⟩
    · show ((movAt t k).err.isNone && (movAt t k).remW.isEmpty) = true
      rw [herr, hrem]
      rfl
    · show ¬ ((movAt t k).err.isNone && (movAt t k).remW.isEmpty) = true
      rcases h with h | h <;> simp [h]
  · subst hm
    exact moveAct_copy hr hsh hcopy hlen hmv hpaced
  · subst hm
    rw [armUnit_ok (s := { b with actor := a }) hsh hr hd hpre ha hcut h]
    exact (movAt_nextCmd hewf (.ch ch) _).1
  · subst hm
    have harmed := armUnit_error (s := { b with actor := a }) hsh hr hd hpre ha hcut h
    have hidle := moveAct_idle (s := { b with actor := a }) (ch := ch) (by rw [harmed]; exact active_chRefuse (s := { b with actor := a }) ha q)
    rw [hidle, harmed]
    exact ⟨rfl, unitAt_finishRun _ _ _ _⟩

end Sys2Proof.Machine
end
